-- ==== Sys2Proof/Word.lean ====
section
/-! DEFINITION. The word types of the module and the plainest arithmetic on them. -/

namespace Sys2Proof

/-- A byte of memory or of a frame. -/
abbrev Byte := BitVec 8

/-- A 32-bit register or memory word (R3). -/
abbrev W32 := BitVec 32

end Sys2Proof
end

