-- ==== Sys2Proof/Syntax.lean ====
section
/-! DEFINITION. The commands of the module: one constructor for each row of the table of operations
and events, with the operands the command brings from outside (an address, a value, a frame, a
measured quantity, a pin level). Everything a command can know from the module's own state is read
there and is no operand. -/

namespace Sys2Proof

/-- A frame of the Azide Link as its bytes in wire order, header and CRC-32C included (R4, R85). -/
abbrev Frame := List Byte

/-- Who makes a register access (R434): a control core, a signal engine or the debug port. -/
inductive Initiator where
  | core (c : Fin 8)
  | engine (n : Fin 4)
  | debug
  deriving DecidableEq, Repr

/-- What a memory scrub or access found (R215, R348). -/
inductive MemErr where
  | none
  | corrected
  | uncorrectable
  deriving DecidableEq, Repr

/-- The atomic memory operations of the A extension (R210). PRESUMED (log 33). -/
inductive AmoOp where
  | swap | add | xor | and | or | min | max | minu | maxu
  deriving DecidableEq, Repr

/-- How a CSR instruction writes. PRESUMED (log 33). -/
inductive CsrOp where
  | write | set | clear
  deriving DecidableEq, Repr

/-- What an access of a core is (R210, R213): a load or store, an instruction fetch, a load-reserved or store-conditional,
an atomic operation, an access to the CSR whose number is the address, or MRET, of which the row brings the operands; or
`run`: the instruction at the core's pc, executed whole. PRESUMED (log 33). -/
inductive CoreOp where
  | plain
  | fetch
  | reserved
  | amo (op : AmoOp)
  | csr (op : CsrOp)
  | mret
  | run
  deriving DecidableEq, Repr

/-- How an access is made: its width in bytes; of a core, also what it is, whether in U mode, and the PC of the
instruction; and the memory error it meets (R3, R208, R212, R215). -/
structure Access where
  size : Nat
  op : CoreOp
  user : Bool
  pc : BitVec 64
  err : MemErr
  deriving DecidableEq, Repr

/-- The strap pins SROLE1-0, SSIDE and SPAIR3-0 (R13). -/
structure Straps where
  role : Fin 4
  side : Fin 2
  pair : Fin 16
  deriving DecidableEq, Repr

/-- What this receiver's adaptation, which the spec leaves to the module (R77), asks of the far transmitter with a Train
block: a request for each tap, PRESET, and whether it has finished (RRDY). -/
structure Adapt where
  reqPre : Fin 4
  reqMain : Fin 4
  reqPost : Fin 4
  preset : Bool
  rrdy : Bool
  deriving DecidableEq, Repr

/-- A move field of a format P instruction (R192): T, IX, STP and REG. -/
structure Move where
  t : Fin 4
  ix : Fin 8
  stp : Fin 4
  reg : Fin 8
  deriving DecidableEq, Repr

/-- The operand fields of a format P instruction (R192): D, S, XM and YM. -/
structure PFmt where
  d : Fin 4
  s : Fin 8
  xm : Move
  ym : Move
  deriving DecidableEq, Repr

/-- The record a sampled instruction brings to the PSB (R232). -/
structure PsbRec where
  pc : BitVec 64
  insn : BitVec 32
  lat : BitVec 16
  flags : Fin 16
  deriving DecidableEq, Repr

/-- The memories of R348 that are scrubbed in idle cycles. -/
inductive ScrubMem where
  | localSram (c : Fin 8)
  | l2
  | cleWindow
  | framePool
  | seX (n : Fin 4)
  | seY (n : Fin 4)
  | seP (n : Fin 4)
  deriving DecidableEq, Repr

/-- What lock a lane loses in the LANE cycle in which LOS asserts (R81, R83). -/
inductive LockLoss where
  | none
  | block
  | freq
  deriving DecidableEq, Repr

/-- The two sides of the isolation link (R352). -/
inductive LinkSide where
  | main
  | field
  deriving DecidableEq, Repr

/-- An input edge of an encoder channel (R364): the input and its level after the edge. -/
inductive EncInput where
  | a | b | z
  deriving DecidableEq, Repr

/-- What a safety channel reads at its inputs (R369, R370): the eight filtered SI levels and its
SA current in microampere. -/
structure SafInputs where
  si : BitVec 8
  sa : Nat
  deriving DecidableEq, Repr

/-- The commands. Each constructor is one row of the table; its docstring names the rule. -/
inductive Instr where
  /-- R7, R9, R213: a write of `v`; `events` are the bits of the word that hardware events set in the same cycle. -/
  | registerWrite (ini : Initiator) (addr : Nat) (v : BitVec 64) (how : Access) (events : W32)
  /-- R10, R213. -/
  | readLowWord (ini : Initiator) (addr : Nat) (how : Access)
  /-- R11. -/
  | writeHighWord (ini : Initiator) (addr : Nat) (v : W32)
  /-- R11. -/
  | writeLowWord (ini : Initiator) (addr : Nat) (v : W32)
  /-- R57. -/
  | commit (page : Fin 64)
  /-- R433. -/
  | commitApplyUnlocked (page : Fin 64)
  /-- R431: a CTL write of `v` with SRST set. -/
  | softReset (page : Fin 64) (v : W32)
  /-- R431. -/
  | softResetDone (page : Fin 64)
  /-- R428. -/
  | faultCountClear (page : Fin 64)
  /-- R430. -/
  | blockEnable (page : Fin 64)
  /-- R430. -/
  | blockDisable (page : Fin 64)
  /-- R409: VIN in 1/256 V. -/
  | powerOnReset (vin : Nat)
  /-- R403. -/
  | overvoltageShutdown (vin : Nat)
  /-- R408. -/
  | clockFailure
  /-- R421. -/
  | thermalShutdown
  /-- R411: a low pulse of `ns` nanoseconds. -/
  | nreset (ns : Nat)
  /-- R424. -/
  | swrstArm
  /-- R410: GO, `since` fabric cycles after the last ARM. -/
  | softwareReset (since : Nat)
  /-- R337: `dt` ns after the previous command. -/
  | restart (dt : Nat)
  /-- R1. -/
  | resetRelease (straps : Straps)
  /-- R399. -/
  | resetWipeComplete
  /-- R403. -/
  | vinExcursion (vin : Nat)
  /-- R421: die temperature, Q12.4 degrees. -/
  | dieTemperatureLimit (t : Int)
  /-- R424. -/
  | vinMinClear
  /-- R425. -/
  | laneLockCountClear
  /-- R216. -/
  | coreStart (c : Fin 8)
  /-- R37. -/
  | strike
  /-- R36. -/
  | localTickInstant
  /-- R95. -/
  | harvestOpen
  /-- R95. -/
  | originTimeout
  /-- R38. -/
  | harvestCutoff
  /-- R38. -/
  | decideBegin (arm : Fin 2)
  /-- R102. -/
  | broadcast (arm : Fin 2)
  /-- R48. -/
  | commandDeadline
  /-- R37. -/
  | eveClose
  /-- R55. -/
  | drainInstant
  /-- R59. -/
  | repeatCountClear
  /-- R59. -/
  | drainCountClear
  /-- R46. -/
  | trajectoryLoss (arm : Fin 2)
  /-- R80: the amplitude in mV below which the input has stayed, and for how many ns; `lock` tells what lock is lost in the
  same LANE cycle (R83), `inFrame` whether a frame is arriving. -/
  | losAssert (n : Fin 20) (lock : LockLoss) (mv ns : Nat) (inFrame : Bool)
  /-- R80: the amplitude in mV at or above which the input has stayed, and for how many ns. -/
  | losClear (n : Fin 20) (mv ns : Nat)
  /-- R75. -/
  | blockLock (n : Fin 20)
  /-- R81: whether a frame is arriving. -/
  | blockLockLoss (n : Fin 20) (inFrame : Bool)
  /-- R81: measured offset in 0.25 ppm, and whether a frame is arriving. -/
  | frequencyWindow (n : Fin 20) (ppm : Int) (inFrame : Bool)
  /-- R76, R77: payload bytes 1 to 7, byte 1 the most significant; the Train blocks this transmitter has sent since it
  received the last one; and what this receiver's adaptation asks for. -/
  | trainBlockReceive (n : Fin 20) (pay : BitVec 56) (sent : Nat) (mine : Adapt)
  /-- R78. -/
  | countdownComplete (n : Fin 20)
  /-- R75. -/
  | trainTimeout (n : Fin 20)
  /-- R75. -/
  | verifyComplete (n : Fin 20)
  /-- R75. -/
  | remoteFault (n : Fin 20)
  /-- R75: whether a frame is arriving. -/
  | trainBlockInUp (n : Fin 20) (inFrame : Bool)
  /-- R75. -/
  | retryHoldoffExpiry (n : Fin 20)
  /-- R75. -/
  | retrain (n : Fin 20)
  /-- R84. -/
  | laneCounterClear (n : Fin 20)
  /-- R440. -/
  | laneAdmission (n : Fin 20)
  /-- R71: occupancy in eighths of a block, whether inside a frame, Leap blocks received in this gap and their LSTAT. -/
  | leapSite (n : Fin 20) (occ : Fin 33) (inFrame : Bool) (leaps : Nat) (lstat : Byte)
  /-- R68, R81: the level indices received, 33 a block, of the block and of any number of valid ones right before it (R61);
  whether it comes inside a frame, and the blocks since the last invalid sync header. -/
  | invalidBlock (n : Fin 20) (sym : List (Fin 4)) (inFrame : Bool) (gap : Nat)
  /-- R68. -/
  | abortReceive (n : Fin 20)
  /-- R122: from lane `n` to lane `m`. -/
  | frameRelay (n m : Fin 20) (f : Frame)
  /-- R86. -/
  | unknownFrame (n m : Fin 20) (f : Frame)
  /-- R95. -/
  | harvestFrameRelay (n : Fin 20) (f : Frame)
  /-- R96. -/
  | harvestFrameReceive (n : Fin 20) (f : Frame)
  /-- R97. -/
  | keyExtractReceive (n : Fin 20) (f : Frame)
  /-- R98. -/
  | slotCopySend
  /-- R127. -/
  | slotCopyReceive (n : Fin 20) (f : Frame)
  /-- R40. -/
  | downFrameReceive (n : Fin 20) (f : Frame)
  /-- R49. -/
  | repeatFrameReceive (n : Fin 20) (f : Frame)
  /-- R45. -/
  | trajectoryReceive (n : Fin 20) (f : Frame)
  /-- R107. -/
  | reportReceive (n : Fin 20) (f : Frame)
  /-- R104. -/
  | mailboxResend (ring : Fin 16)
  /-- R105. -/
  | mailboxFrameReceive (n : Fin 20) (f : Frame)
  /-- R105: the message to node `dst`. -/
  | mailboxFrameResend (dst : Fin 16384)
  /-- R123. -/
  | azfCounterClear
  /-- R114. -/
  | timingFrameOrigin
  /-- R115: residence in 1/256 ns. -/
  | timingFrameRelay (n m : Fin 20) (f : Frame) (res : Nat)
  /-- R117: RXTS in 1/256 ns after the local Strike or tick instant. -/
  | timingFrameReceive (n : Fin 20) (f : Frame) (rxts : Int)
  /-- R118. -/
  | alignmentLost
  /-- R116: t1 in 1/256 ns on the local clock. -/
  | probeSend (n : Fin 20) (t1 : Nat)
  /-- R116: turnaround t3 - t2 in 1/256 ns. -/
  | probeReceive (n : Fin 20) (f : Frame) (turn : Nat)
  /-- R116: t4 in 1/256 ns on the local clock. -/
  | probeReplyReceive (n : Fin 20) (f : Frame) (t4 : Nat)
  /-- R110. -/
  | enumGo
  /-- R109. -/
  | enumReceive (n : Fin 20) (f : Frame)
  /-- R109. -/
  | enumReplyReceive (n : Fin 20) (f : Frame)
  /-- R109. -/
  | enumFindingTimeout (ring : Fin 16)
  /-- R109. -/
  | assignReceive (n : Fin 20) (f : Frame)
  /-- R255: the raw codes of the two Strike conversions. -/
  | adcStrikeConversionDone (raw0 raw1 : BitVec 16)
  /-- R141. -/
  | leaveSend (node : Fin 16384)
  /-- R147. -/
  | weightsMessage (age stick : BitVec 16)
  /-- R147. -/
  | leaveMessage
  /-- R53. -/
  | rejoinMessage
  /-- R151. -/
  | icmdLeave
  /-- R151. -/
  | icmdRejoin
  /-- R150. -/
  | rhoClear (i : Fin 2)
  /-- R150. -/
  | rseCounterClear
  /-- R242. -/
  | trimEdge
  /-- R238. -/
  | deadTimeEnd
  /-- R244: FLTn has been at the level for `ns` nanoseconds. -/
  | gateFault (n : Fin 4) (high : Bool) (ns : Nat)
  /-- R245: the GF bits written as 1, and the inputs active at the write. -/
  | gateFaultClear (bits active : BitVec 4)
  /-- R247. -/
  | bypassSet
  /-- R247. -/
  | bypassClear
  /-- R249. -/
  | debugHalt (c : Fin 2)
  /-- R249. -/
  | debugRelease (c : Fin 2)
  /-- R252. -/
  | carrierPeriodStart
  /-- R266. -/
  | pwmCounterClear
  /-- R259. -/
  | calibrate
  /-- R259: the factors found for ADC0 and ADC1. -/
  | calibrationDone (g0 o0 g1 o1 : BitVec 16)
  /-- R260: the raw code of the zero input. -/
  | offsetTrackingConversion (c : Fin 2) (z : BitVec 16)
  /-- R261. -/
  | sequencerEntryDue (c : Fin 2) (e : Fin 16)
  /-- R261: the raw codes of the entry's conversions. -/
  | sequencerConversionDone (c : Fin 2) (e : Fin 16) (raws : List (BitVec 16))
  /-- R267. -/
  | adcCounterClear
  /-- R162. -/
  | cleTrigger (n : Fin 32)
  /-- R162. -/
  | cleRun (n : Fin 32)
  /-- R163. -/
  | cleEvaluationStart
  /-- R161. -/
  | cleEvaluationDone
  /-- R165. -/
  | cleWindowWrite (ini : Initiator) (addr size : Nat) (v : W32)
  /-- R179. -/
  | cleCounterClear
  /-- R172. -/
  | pgnPublish
  /-- R177: the PRESET bits written as 1. -/
  | pgnPreset (bits : BitVec 16)
  /-- R194: the format P instructions, on engine `n`. -/
  | seNop (n : Fin 4) (p : PFmt)
  | seAdd (n : Fin 4) (p : PFmt)
  | seSub (n : Fin 4) (p : PFmt)
  | seCmp (n : Fin 4) (p : PFmt)
  | seMov (n : Fin 4) (p : PFmt)
  | seAbs (n : Fin 4) (p : PFmt)
  | seNeg (n : Fin 4) (p : PFmt)
  | seClr (n : Fin 4) (p : PFmt)
  | seMul (n : Fin 4) (p : PFmt)
  | seMac (n : Fin 4) (p : PFmt)
  | seMsb (n : Fin 4) (p : PFmt)
  | seMulr (n : Fin 4) (p : PFmt)
  | seMacr (n : Fin 4) (p : PFmt)
  | seMsbr (n : Fin 4) (p : PFmt)
  | seRnd (n : Fin 4) (p : PFmt)
  | seSat (n : Fin 4) (p : PFmt)
  | seShl (n : Fin 4) (p : PFmt)
  | seShr (n : Fin 4) (p : PFmt)
  | seExp (n : Fin 4) (p : PFmt)
  | seNorm (n : Fin 4) (p : PFmt)
  | seAnd (n : Fin 4) (p : PFmt)
  | seOr (n : Fin 4) (p : PFmt)
  | seXor (n : Fin 4) (p : PFmt)
  | seMax (n : Fin 4) (p : PFmt)
  | seMin (n : Fin 4) (p : PFmt)
  /-- R197: the format C instructions, on engine `n`. -/
  | seLdi (n : Fin 4) (reg : Fin 64) (hi : Bool) (imm : BitVec 16)
  | seMovr (n : Fin 4) (dst src : Fin 64)
  | seLda (n : Fin 4) (y : Bool) (reg : Fin 64) (addr : Fin 16384)
  | seSta (n : Fin 4) (y : Bool) (reg : Fin 64) (addr : Fin 16384)
  | seLdo (n : Fin 4) (y : Bool) (reg : Fin 64) (k : Fin 8) (ofs : BitVec 12)
  | seSto (n : Fin 4) (y : Bool) (reg : Fin 64) (k : Fin 8) (ofs : BitVec 12)
  | seJmpcc (n : Fin 4) (cc : Fin 16) (target : Fin 8192)
  | seCall (n : Fin 4) (target : Fin 8192)
  | seRet (n : Fin 4)
  | seRepeat (n : Fin 4) (src : Bool) (cnt : Fin 4096) (reg : Fin 64)
  | seDbnz (n : Fin 4) (reg : Fin 64) (target : Fin 8192)
  | seHalt (n : Fin 4)
  | seSig (n : Fin 4) (code : BitVec 8)
  | seAsh (n : Fin 4) (d : Fin 4) (sh : BitVec 7)
  | seAddi (n : Fin 4) (reg : Fin 64) (imm : BitVec 16)
  | seIold (n : Fin 4) (reg : Fin 64) (word : Fin 16384)
  | seIost (n : Fin 4) (reg : Fin 64) (word : Fin 16384)
  /-- R201. -/
  | seEntryTrigger (n k : Fin 4)
  /-- R201: the START bits written as 1. -/
  | seStart (n : Fin 4) (bits : BitVec 4)
  /-- R203. -/
  | seStop (n : Fin 4)
  /-- R201. -/
  | seProgramStart (n : Fin 4)
  /-- R183: a core's access to the memory window of an engine; `v` is the value of a write. -/
  | seMemoryAccess (c : Fin 8) (addr size : Nat) (v : Option W32) (err : MemErr)
  /-- R209. -/
  | seCounterClear (n : Fin 4)
  /-- R219. -/
  | sourceEvent (src : Fin 256) (arg : BitVec 24)
  /-- R221. -/
  | slotFill
  /-- R223. -/
  | mdsxTake (c : Fin 8) (umode : Bool) (pc : BitVec 64)
  /-- R223. -/
  | mdsxDoneRead (c : Fin 8) (umode : Bool) (pc : BitVec 64)
  /-- R223. -/
  | mdsxDoneWrite (c : Fin 8) (umode : Bool) (pc : BitVec 64)
  /-- R217. -/
  | post (num : Fin 64) (arg : BitVec 24)
  /-- R225: whether an event of the source falls in the same cycle. -/
  | cancel (src : Fin 256) (sameCycle : Bool)
  /-- R233. -/
  | timerConfigure (n : Fin 16) (v : W32)
  /-- R217. -/
  | timerExpiry (n : Fin 16)
  /-- R227. -/
  | dispatchWatchdog (c : Fin 8)
  /-- R233. -/
  | dsxCounterClear
  /-- R211. -/
  | timeCsrRead (c : Fin 8) (umode : Bool) (pc : BitVec 64)
  /-- R214. -/
  | fenceI (c : Fin 8)
  /-- R231. -/
  | counterWrap (c : Fin 8) (j : Fin 6)
  /-- R231. -/
  | counterWrite (c : Fin 8) (j : Fin 6) (v : BitVec 48)
  /-- R232. -/
  | psbSample (c : Fin 8) (r : PsbRec)
  /-- R232. -/
  | psbRead (c : Fin 8)
  /-- R232: the word written to PSBCFG with EN set. -/
  | psbEnable (c : Fin 8) (v : W32)
  /-- R273: the low word written to TBS.OFSIN. -/
  | offsetDelivery (v : W32)
  /-- R276. -/
  | accept
  /-- R276. -/
  | resume
  /-- R270. -/
  | snap
  /-- R290. -/
  | tbsCounterClear
  /-- R278: `dt` ns after the previous command. -/
  | holdTimeout (dt : Nat)
  /-- R289. -/
  | timedHeadArrival (m : Fin 2)
  /-- R287. -/
  | timedLaunch (m : Fin 2)
  /-- R285. -/
  | ethFrameTransmit (m : Fin 2)
  /-- R284: frame without FCS, and whether its FCS was right. -/
  | ethFrameReceive (m : Fin 2) (f : Frame) (fcsOk : Bool)
  /-- R291. -/
  | captureRead (m : Fin 2)
  /-- R436. -/
  | txTailWrite (m : Fin 2) (v : W32)
  /-- R436. -/
  | rxTailWrite (m : Fin 2) (v : W32)
  /-- R437: of the receive ring or of the transmit ring. -/
  | descriptorCompletion (m : Fin 2) (tx : Bool)
  /-- R292. -/
  | acqSample
  /-- R296. -/
  | arm
  /-- R296. -/
  | acqStop
  /-- R301. -/
  | force
  /-- R316. -/
  | acqCounterClear
  /-- R312. -/
  | rdptrWrite (v : W32)
  /-- R313. -/
  | encoderDone
  /-- R313. -/
  | windowCopyDone
  /-- R313. -/
  | measurementDone
  /-- R313. -/
  | measurementTimeout
  /-- R318. -/
  | startTimeout
  /-- R319. -/
  | mirrorLaunch
  /-- R322. -/
  | shortMirrorSend
  /-- R321. -/
  | mirrorReceive (n : Fin 20) (f : Frame)
  /-- R327. -/
  | yield
  /-- R328. -/
  | revertRequest
  /-- R330. -/
  | redCounterClear
  /-- R335: `dt` ns after the previous command. -/
  | fcuEvent (src : Fin 128) (dt : Nat)
  /-- R335. -/
  | quietPeriodExpiry (src : Fin 128) (dt : Nat)
  /-- R335. -/
  | recoveryAgeing (src : Fin 128) (dt : Nat)
  /-- R350. -/
  | unlatch (src : Fin 128)
  /-- R350. -/
  | lostClear
  /-- R340. -/
  | logrdWrite (v : W32)
  /-- R343: the path-delay margins and core-rail stress of the hour. -/
  | hourlyEntry (pdc pds vstr : BitVec 16)
  /-- R343. -/
  | startEntry
  /-- R344: whether the entry verified. -/
  | almanacProgramDone (ok : Bool)
  /-- R343: die temperature, Q12.4 degrees. -/
  | temperatureSample (tdie : BitVec 16)
  /-- R345. -/
  | epOpen
  /-- R345. -/
  | epClose
  /-- R346. -/
  | guardBandStep
  /-- R351. -/
  | rdataRead
  /-- R348: the burst at `addr` and what the scrub found; `passEnd` with the last burst of a pass. -/
  | dramScrub (addr : Nat) (err : MemErr) (passEnd : Bool)
  /-- R352: the frame received at one side with its CRC-8, or none where it is missing. -/
  | linkFrame (side : LinkSide) (f : Option (List Byte))
  /-- R353. -/
  | linkLoss (side : LinkSide)
  /-- R353. -/
  | linkRecovery (side : LinkSide)
  /-- R357. -/
  | outputWrite (v : W32)
  /-- R357. -/
  | outputSet (v : W32)
  /-- R357. -/
  | outputClear (v : W32)
  /-- R354. -/
  | modeChange (n : Fin 16) (v : W32)
  /-- R355: pin `n` has been at `mv` millivolts for `us` microseconds. -/
  | inputChange (n : Fin 16) (mv us : Nat)
  /-- R356. -/
  | outputThermalShutdown (n : Fin 16)
  /-- R356. -/
  | thermalRestart (n : Fin 16)
  /-- R356. -/
  | groupShutdown (g : Fin 2)
  /-- R356. -/
  | groupClear (g : Fin 2)
  /-- R362. -/
  | fioRestart
  /-- R378. -/
  | fioCounterClear
  /-- R358. -/
  | darkTestRound
  /-- R358: the pin level at the end of the pulse. -/
  | darkTestEnd (pin : Bool)
  /-- R359. -/
  | darkTestAbandon
  /-- R360: the channel found tied to channel `n`, if a test made the pin fall. -/
  | stuckHighClassification (n : Fin 16) (partner : Option (Fin 16))
  /-- R361: VFLD in 1/256 V. -/
  | vfldThreshold (volt : BitVec 16)
  /-- R361. -/
  | fieldDieReset
  /-- R363. -/
  | bypassPullInEnd
  /-- R365. -/
  | encWindowEnd (n : Fin 4)
  /-- R366: the pair (A, B or Z), and whether the fault begins or ends. -/
  | wireFault (n : Fin 4) (pair : EncInput) (present : Bool)
  /-- R365. -/
  | encConfigure (n : Fin 4) (v : W32)
  /-- R379. -/
  | encCounterClear
  /-- R376: channel 0 is SAF-A, 1 is SAF-B. -/
  | safSelfTestDone (ch : Fin 2) (ok : Bool)
  /-- R368. -/
  | crossChannelExchange
  /-- R368. -/
  | clockSupervisorFault (ch : Fin 2)
  /-- R372. -/
  | safetyDemand (ch : Fin 2) (inp : SafInputs)
  /-- R370. -/
  | discrepancy (sip : Fin 4)
  /-- R371: the switches as read by SAF-A and by SAF-B. -/
  | switchRead (a b : BitVec 8)
  /-- R375: whether every pin fell, and whether a demand came during the test. -/
  | safetyOutputTest (ch : Fin 2) (ok demand : Bool)
  /-- R373: the cause code 0x07-0x0B. -/
  | motionViolation (ch : Fin 2) (cause : Fin 16)
  /-- R373. -/
  | violationRelease (ch : Fin 2)
  /-- R372. -/
  | dischargeTimeReached (ch : Fin 2)
  /-- R377. -/
  | safMirrorUpdate
  /-- R383. -/
  | bootVerify
  /-- R384. -/
  | meas0Lock
  /-- R386: owner slot, byte offset in it, image bytes. -/
  | imageSegment (slot : Fin 2) (ofs : Nat) (bytes : List Byte)
  /-- R386. -/
  | imageEnd (slot : Fin 2) (len : Nat)
  /-- R393. -/
  | nonce
  /-- R393. -/
  | verify
  /-- R393. -/
  | sign
  /-- R394. -/
  | attest
  /-- R384. -/
  | extend
  /-- R397. -/
  | order
  /-- R384. -/
  | mlock
  /-- R387. -/
  | svnCommit
  /-- R393. -/
  | secCommandDone
  /-- R390. -/
  | subtreeRebuildDone
  /-- R391. -/
  | lowerTreeDone
  /-- R388. -/
  | topTreeDone
  /-- R398. -/
  | transitionWipeDone
  /-- R388. -/
  | entropyFailure
  /-- R361. -/
  | fieldDieStart
  /-- R408: whether a frame is arriving. -/
  | lanePllLockLoss (n : Fin 20) (inFrame : Bool)
  /-- R424: the rail, 0 IO to 5 analogue, and whether it is within its tolerance again. -/
  | railExcursion (rail : Fin 6) (ok : Bool)
  /-- R364: the input and its level after the edge. -/
  | encoderEdge (n : Fin 4) (inp : EncInput) (level : Bool)
  /-- R370. -/
  | healthyFor1S (sip : Fin 4)
  /-- R250. -/
  | carrierCompare (n : Fin 4)
  /-- R348. -/
  | sramScrub (mem : ScrubMem) (word : Nat) (err : MemErr)
  /-- R436. -/
  | ethLinkChange (m : Fin 2) (up : Bool)
  deriving DecidableEq, Repr

end Sys2Proof
end

