-- ==== Sys2Proof/Decode.lean ====
section
/-! DEFINITION. The words of the table of operations. No row of the table gives a word any bits: a command comes from
outside with its operands, and no word spells one. -/

namespace Sys2Proof

/-- The command that a word of `nbits` bits spells by the table's bits: none, as no row gives bits.
DEDUCED (log 7). -/
def decodeTableWord (_nbits _w : Nat) : Option Instr := Option.none

end Sys2Proof
end

