-- ==== Sys2Proof/Config.lean ====
section
/-! DEFINITION. What is fixed outside the model: values the spec leaves open, fused and stored values
of the individual module, and functions the spec names and defines elsewhere. Every constant here is
opaque: nothing can be proved about its value. -/

namespace Sys2Proof

/-- A value the spec leaves open, fresh for each number: the model applies it to a counter of State.
DESIGN CHOICE (log 3). -/
opaque Config.free : Nat → Nat

/-- The topology configuration selects two-arm mode for this Section pair (R30). PRESUMED (log 79). -/
opaque Config.twoArm : Bool

/-- The number of Sections configured on an upper chain, by chain. PRESUMED (log 79). -/
opaque Config.chainLen : Nat → Nat

/-- The 64-bit serial of the module (R108). -/
opaque Config.serial : BitVec 64

/-- The rate estimate of R118, in 1/256 ns a tick, from the last sixteen values of e, newest first: the spec
names no formula. DEDUCED (log 75). -/
opaque Config.rateEstimate : List Int → Int

/-- The data of the Mailbox frame by which a Section tells its partner its finding on a ring (R109): the
spec gives no layout. DEDUCED (log 77). -/
opaque Config.findingBytes : Nat → Bool → Nat → List Byte

/-- The finding on a ring that the data of a Mailbox frame of the partner carries, if it carries one: ring,
intact, reply count (R109). DEDUCED (log 77). -/
opaque Config.findingOf : List Byte → Option (Nat × Bool × Nat)

/-- The data of the Mailbox frame by which a Section tells its partner which of its ring lanes are out of service (R112): the
spec gives no layout. DEDUCED (log 80). -/
opaque Config.lanesBytes : List Nat → List Byte

/-- The partner's ring lanes out of service that the data of a Mailbox frame carries, if it carries them (R112).
DEDUCED (log 80). -/
opaque Config.lanesOf : List Byte → Option (List Nat)

/-- The quantities V and S that the control law of the active Conductor forms for Section pair p and arm a, index 2p + a, at
the start of a period, or none where no trajectory is sent (R106, R326). DESIGN CHOICE (log 21). -/
opaque Config.trajectory : Nat → Nat → Option (List (Int × Int))

/-- The stored plan of a module whose Almanac region holds no plan, as ALM.PLAN carries it (R345, R351). -/
opaque Config.firstPlan : Nat

/-- The fused lowest guard bands in mV (R351). -/
opaque Config.gbMinCore : Nat
opaque Config.gbMinSig : Nat

/-- SHAKE256 with a 32-byte output, first byte most significant (R382 to R398). PRESUMED (log 230). -/
opaque Config.shake256 : List Byte → BitVec 256

/-- Verification of an XMSS-SHAKE256_20_256 signature: public key, message, signature (R382, R396).
PRESUMED (log 230). -/
opaque Config.xmssVerify : List Byte → List Byte → List Byte → Bool

/-- The identity signature of a message by index, for an identity generation (R388, R393).
PRESUMED (log 230). -/
opaque Config.idSign : Nat → Nat → List Byte → List Byte

/-- The identity public key of a generation (R388). PRESUMED (log 230). -/
opaque Config.idKey : Nat → List Byte

/-- The bytes of the boot ROM (R213). -/
opaque Config.rom : Nat → Byte

/-- SHAKE256 of the boot ROM (R384). PRESUMED (log 230). -/
opaque Config.romDigest : BitVec 256

/-- The four vendor public keys in the boot ROM, and which of them are revoked by a fuse (R383).
PRESUMED (log 230). -/
opaque Config.vendorKey : Nat → List Byte
opaque Config.vendorRevoked : Nat → Bool

end Sys2Proof
end

