-- ==== Sys2Proof/Machine/RegMap.lean ====
section
/-! DEFINITION. The register map of the module: every field of every register page of R426, written
from the field tables of the chapters (Bits, Field, Access, Reset). A register field is known by its
key, the byte offset of its word in the register region times 32 plus its lowest bit; a field of a
64-bit register stands at the low word's offset. -/

namespace Sys2Proof.Machine

/-- The access codes of R7. -/
inductive Acc where
  | ro | rw | st | do | w1c | w1a
  deriving DecidableEq, Repr

/-- One register field: its key, its width in bits, its access code and its reset value. -/
structure Fld where
  key : Nat
  width : Nat
  acc : Acc
  reset : Nat
  deriving DecidableEq, Repr

/-- The field at byte offset `a` of the register region from bit `lsb` on. -/
def fld (a lsb w : Nat) (acc : Acc) (reset : Nat) : Fld :=
  ⟨a * 32 + lsb, w, acc, reset⟩

/-- The byte offset of the word (or low word) a field stands in. -/
def Fld.word (f : Fld) : Nat := f.key / 128 * 4

/-- The lowest bit of a field in its register. -/
def Fld.lsb (f : Fld) : Nat := f.key % 128

/-! ### Reset configuration of the fault sources (R332, R333) -/

/-- The pages R426 defines. -/
def pageDefined (p : Nat) : Bool := decide (p ≤ 0x1A ∨ (0x20 ≤ p ∧ p ≤ 0x34))

/-- EN of FCU.SCFGn at reset (R350): 1 for the sources R332 and R333 define. -/
def fcuDefined (n : Nat) : Nat :=
  if n ≤ 0x15 ∨ (0x40 ≤ n ∧ n ≤ 0x5A) ∨ (0x60 ≤ n ∧ n ≤ 0x74) then 1 else 0

/-- GATE at reset (R332): sources 0x01, 0x03, 0x07, 0x09, 0x0A, 0x10 and 0x11. -/
def fcuGate (n : Nat) : Nat :=
  if n = 0x01 ∨ n = 0x03 ∨ n = 0x07 ∨ n = 0x09 ∨ n = 0x0A ∨ n = 0x10 ∨ n = 0x11 then 1 else 0

/-- REACT at reset (R332, R333): Yield for 0x03 and 0x09, Log for 0x00, 0x0D, 0x0E and the page
sources, Notify for the other named sources. -/
def fcuReact (n : Nat) : Nat :=
  if n = 0x03 ∨ n = 0x09 then 2
  else if n = 0x00 ∨ n = 0x0D ∨ n = 0x0E ∨ 0x16 ≤ n then 0
  else 1

/-- N - 1 at reset (R332, R333): N = 8 for 0x00, 0x04 and the page sources, 1 otherwise. -/
def fcuNm1 (n : Nat) : Nat :=
  if n = 0x00 ∨ n = 0x04 then 7 else if n < 0x40 then 0 else if fcuDefined n = 1 then 7 else 0

/-! ### Common page header (R428) -/

/-- CTL.EN at reset (R426). -/
def enReset (p : Nat) : Nat :=
  if p ≤ 5 ∨ p = 8 ∨ p = 9 ∨ p = 0xA ∨ p = 0xB ∨ p = 0x17 ∨ p = 0x34 then 1 else 0

/-- The pages whose CTL.EN is fixed and whose CTL.SRST is refused (R426). -/
def pageFixed (p : Nat) : Bool := decide (p ≤ 5 ∨ p = 0xA ∨ p = 0x17)

/-- The defined FLT bits of page `p` (R428; the tables of the chapters). -/
def fltMask (p : Nat) : Nat :=
  if p = 0 then 0x0 else
  if p = 1 then 0x0 else
  if p = 2 then 0x3 else
  if p = 3 then 0x0 else
  if p = 4 then 0xF else
  if p = 5 then 0x3F else
  if p = 6 then 0x7 else
  if p = 7 then 0x0 else
  if p = 8 then 0x0 else
  if p = 9 then 0x0 else
  if p = 10 then 0x3 else
  if p = 11 then 0xF else
  if p = 12 then 0xF else
  if p = 13 then 0x0 else
  if p = 14 then 0x0 else
  if p = 15 then 0x0 else
  if 16 ≤ p ∧ p < 20 then 0x1F else
  if p = 20 then 0x3F else
  if p = 21 then 0xF else
  if p = 22 then 0xFF else
  if p = 23 then 0x1F else
  if p = 24 then 0xF else
  if 25 ≤ p ∧ p < 27 then 0x0 else
  if 32 ≤ p ∧ p < 52 then 0xFF else
  if p = 52 then 0x0 else
  0

/-- CTL.EN of page `p`. -/
def R.EN (p : Nat) : Fld := fld (0x1000 * p + 4) 0 1 .rw (enReset p)
/-- CTL.MODE of page `p`: no mode but 0 exists (R428). -/
def R.MODE (p : Nat) : Fld := fld (0x1000 * p + 4) 8 4 .rw 0
/-- STA.WERR of page `p`. -/
def R.WERR (p : Nat) : Fld := fld (0x1000 * p + 8) 0 1 .w1c 0
/-- STA.SRB of page `p`. -/
def R.SRB (p : Nat) : Fld := fld (0x1000 * p + 8) 1 1 .ro 0
/-- CMT.PEND of page `p`. -/
def R.PEND (p : Nat) : Fld := fld (0x1000 * p + 12) 1 1 .ro 0
/-- CMT.LATE of page `p`. -/
def R.LATE (p : Nat) : Fld := fld (0x1000 * p + 12) 2 1 .ro 0
/-- FLT of page `p`, all 32 bits; the defined ones are `fltMask p`. -/
def R.FLT (p : Nat) : Fld := fld (0x1000 * p + 0x10) 0 32 .w1c 0
/-- FEN of page `p`; resets to the defined FLT bits. -/
def R.FEN (p : Nat) : Fld := fld (0x1000 * p + 0x14) 0 32 .rw (fltMask p)
/-- FCT.CNT of page `p`. -/
def R.FCT (p : Nat) : Fld := fld (0x1000 * p + 0x18) 0 16 .ro 0
/-- SEQ of page `p`. -/
def R.SEQ (p : Nat) : Fld := fld (0x1000 * p + 0x1C) 0 32 .ro 0

/-! ### SYS (page 0x00) -/
/-- SYS.STRAP.BAD [7:7] RO, R20. -/
def R.SYS_STRAP_BAD : Fld := fld (0x40) 7 1 .ro (0)
/-- SYS.STRAP.PAIR [6:3] RO, R20. -/
def R.SYS_STRAP_PAIR : Fld := fld (0x40) 3 4 .ro (0)
/-- SYS.STRAP.SIDE [2:2] RO, R20. -/
def R.SYS_STRAP_SIDE : Fld := fld (0x40) 2 1 .ro (0)
/-- SYS.STRAP.ROLE [1:0] RO, R20. -/
def R.SYS_STRAP_ROLE : Fld := fld (0x40) 0 2 .ro (0)
/-- SYS.NODEID.SRC [15:15] RO, R21. -/
def R.SYS_NODEID_SRC : Fld := fld (0x44) 15 1 .ro (0)
/-- SYS.NODEID.VALID [14:14] RO, R21. -/
def R.SYS_NODEID_VALID : Fld := fld (0x44) 14 1 .ro (0)
/-- SYS.NODEID.ID [13:0] RO, R21. -/
def R.SYS_NODEID_ID : Fld := fld (0x44) 0 14 .ro (0)
/-! ### CLK (page 0x01) -/
/-- CLK.STA.FIELDOK [6:6] RO, R425. -/
def R.CLK_STA_FIELDOK : Fld := fld (0x1040) 6 1 .ro (0)
/-- CLK.STA.ACTLK [5:5] RO, R425. -/
def R.CLK_STA_ACTLK : Fld := fld (0x1040) 5 1 .ro (1)
/-- CLK.STA.TIMELK [4:4] RO, R425. -/
def R.CLK_STA_TIMELK : Fld := fld (0x1040) 4 1 .ro (1)
/-- CLK.STA.MEMLK [3:3] RO, R425. -/
def R.CLK_STA_MEMLK : Fld := fld (0x1040) 3 1 .ro (1)
/-- CLK.STA.SIGLK [2:2] RO, R425. -/
def R.CLK_STA_SIGLK : Fld := fld (0x1040) 2 1 .ro (1)
/-- CLK.STA.CORELK [1:1] RO, R425. -/
def R.CLK_STA_CORELK : Fld := fld (0x1040) 1 1 .ro (1)
/-- CLK.STA.REFOK [0:0] RO, R425. -/
def R.CLK_STA_REFOK : Fld := fld (0x1040) 0 1 .ro (1)
/-- CLK.LANELK.LK [19:0] RO, R425. -/
def R.CLK_LANELK_LK : Fld := fld (0x1044) 0 20 .ro (0)
/-- CLK.LLCNT.CNT [15:0] RO, R425. -/
def R.CLK_LLCNT_CNT : Fld := fld (0x1048) 0 16 .ro (0)
/-- CLK.CMD.CCLR [0:0] W1A, R425. -/
def R.CLK_CMD_CCLR : Fld := fld (0x104C) 0 1 .w1a (0)
/-! ### PWR (page 0x02) -/
/-- PWR.RSTC.WIPER [12:12] RO, R424. -/
def R.PWR_RSTC_WIPER : Fld := fld (0x2040) 12 1 .ro (0)
/-- PWR.RSTC.CLKF [11:11] RO, R424. -/
def R.PWR_RSTC_CLKF : Fld := fld (0x2040) 11 1 .ro (0)
/-- PWR.RSTC.THSD [10:10] RO, R424. -/
def R.PWR_RSTC_THSD : Fld := fld (0x2040) 10 1 .ro (0)
/-- PWR.RSTC.OVSD [9:9] RO, R424. -/
def R.PWR_RSTC_OVSD : Fld := fld (0x2040) 9 1 .ro (0)
/-- PWR.RSTC.BROWN [8:8] RO, R424. -/
def R.PWR_RSTC_BROWN : Fld := fld (0x2040) 8 1 .ro (0)
/-- PWR.RSTC.CAUSE [3:0] RO, R424. -/
def R.PWR_RSTC_CAUSE : Fld := fld (0x2040) 0 4 .ro (0)
/-- PWR.SWRST.GO [1:1] W1A, R424. -/
def R.PWR_SWRST_GO : Fld := fld (0x2044) 1 1 .w1a (0)
/-- PWR.SWRST.ARM [0:0] W1A, R424. -/
def R.PWR_SWRST_ARM : Fld := fld (0x2044) 0 1 .w1a (0)
/-- PWR.VIN.VMIN [31:16] RO, R424. -/
def R.PWR_VIN_VMIN : Fld := fld (0x2048) 16 16 .ro (65535)
/-- PWR.VIN.VIN [15:0] RO, R424. -/
def R.PWR_VIN_VIN : Fld := fld (0x2048) 0 16 .ro (0)
/-- PWR.RAIL.OK [5:0] RO, R424. -/
def R.PWR_RAIL_OK : Fld := fld (0x204C) 0 6 .ro (63)
/-- PWR.CMD.CCLR [0:0] W1A, R424. -/
def R.PWR_CMD_CCLR : Fld := fld (0x2050) 0 1 .w1a (0)
/-! ### FCU (page 0x03) -/
/-- FCU.STKk.STK [31:0] W1C, R350. -/
def R.FCU_STK_STK (k : Nat) : Fld := fld (0x3040 + 0x4 * k) 0 32 .w1c (0)
/-- FCU.SEVk.SEV [31:0] RO, R350. -/
def R.FCU_SEV_SEV (k : Nat) : Fld := fld (0x3050 + 0x4 * k) 0 32 .ro (0)
/-- FCU.TIME.TIME [47:0] RO, R350. -/
def R.FCU_TIME_TIME : Fld := fld (0x3060) 0 48 .ro (0)
/-- FCU.CMD.LCLR [9:9] W1A, R350. -/
def R.FCU_CMD_LCLR : Fld := fld (0x3068) 9 1 .w1a (0)
/-- FCU.CMD.UNL [8:8] W1A, R350. -/
def R.FCU_CMD_UNL : Fld := fld (0x3068) 8 1 .w1a (0)
/-- FCU.CMD.SRC [6:0] RW, R350. -/
def R.FCU_CMD_SRC : Fld := fld (0x3068) 0 7 .rw (0)
/-- FCU.GSTA.NSEV [15:8] RO, R350. -/
def R.FCU_GSTA_NSEV : Fld := fld (0x306C) 8 8 .ro (0)
/-- FCU.GSTA.LATG [1:1] RO, R350. -/
def R.FCU_GSTA_LATG : Fld := fld (0x306C) 1 1 .ro (0)
/-- FCU.GSTA.SEVG [0:0] RO, R350. -/
def R.FCU_GSTA_SEVG : Fld := fld (0x306C) 0 1 .ro (0)
/-- FCU.LOGWR.UNREAD [26:16] RO, R350. -/
def R.FCU_LOGWR_UNREAD : Fld := fld (0x3070) 16 11 .ro (0)
/-- FCU.LOGWR.IDX [9:0] RO, R350. -/
def R.FCU_LOGWR_IDX : Fld := fld (0x3070) 0 10 .ro (0)
/-- FCU.LOGRD.IDX [9:0] RW, R350. -/
def R.FCU_LOGRD_IDX : Fld := fld (0x3074) 0 10 .rw (0)
/-- FCU.LOGIDX.IDX [9:0] RW, R350. -/
def R.FCU_LOGIDX_IDX : Fld := fld (0x307C) 0 10 .rw (0)
/-- FCU.LOST.LOST [15:0] RO, R350. -/
def R.FCU_LOST_LOST : Fld := fld (0x3078) 0 16 .ro (0)
/-- FCU.LOGDATAw.WORD [31:0] RO, R350. -/
def R.FCU_LOGDATA_WORD (w : Nat) : Fld := fld (0x3080 + 0x4 * w) 0 32 .ro (0)
/-- FCU.SCFGn.EN [31:31] RW, R350. -/
def R.FCU_SCFG_EN (n : Nat) : Fld := fld (0x3100 + 0x8 * n) 31 1 .rw (fcuDefined n)
/-- FCU.SCFGn.GATE [30:30] RW, R350. -/
def R.FCU_SCFG_GATE (n : Nat) : Fld := fld (0x3100 + 0x8 * n) 30 1 .rw (fcuGate n)
/-- FCU.SCFGn.REACT [29:27] RW, R350. -/
def R.FCU_SCFG_REACT (n : Nat) : Fld := fld (0x3100 + 0x8 * n) 27 3 .rw (fcuReact n)
/-- FCU.SCFGn.NM1 [23:20] RW, R350. -/
def R.FCU_SCFG_NM1 (n : Nat) : Fld := fld (0x3100 + 0x8 * n) 20 4 .rw (fcuNm1 n)
/-- FCU.SCFGn.W [15:0] RW, R350. -/
def R.FCU_SCFG_W (n : Nat) : Fld := fld (0x3100 + 0x8 * n) 0 16 .rw (100)
/-- FCU.SQCFGn.RCAP [19:16] RW, R350. -/
def R.FCU_SQCFG_RCAP (n : Nat) : Fld := fld (0x3104 + 0x8 * n) 16 4 .rw (3)
/-- FCU.SQCFGn.Q [15:0] RW, R350. -/
def R.FCU_SQCFG_Q (n : Nat) : Fld := fld (0x3104 + 0x8 * n) 0 16 .rw (50)
/-- FCU.SSTn.RCNT [11:8] RO, R350. -/
def R.FCU_SST_RCNT (n : Nat) : Fld := fld (0x3500 + 0x4 * n) 8 4 .ro (0)
/-- FCU.SSTn.STATE [1:0] RO, R350. -/
def R.FCU_SST_STATE (n : Nat) : Fld := fld (0x3500 + 0x4 * n) 0 2 .ro (0)
/-! ### ALM (page 0x04) -/
/-- ALM.STA.EPOCH [31:31] RO, R351. -/
def R.ALM_STA_EPOCH : Fld := fld (0x4040) 31 1 .ro (0)
/-- ALM.STA.FULL [30:30] RO, R351. -/
def R.ALM_STA_FULL : Fld := fld (0x4040) 30 1 .ro (0)
/-- ALM.STA.BUSY [29:29] RO, R351. -/
def R.ALM_STA_BUSY : Fld := fld (0x4040) 29 1 .ro (0)
/-- ALM.STA.WIDX [18:0] RO, R351. -/
def R.ALM_STA_WIDX : Fld := fld (0x4040) 0 19 .ro (0)
/-- ALM.POH.POH [31:0] RO, R351. -/
def R.ALM_POH_POH : Fld := fld (0x4044) 0 32 .ro (0)
/-- ALM.PDM.SIG [31:16] RO, R351. -/
def R.ALM_PDM_SIG : Fld := fld (0x4048) 16 16 .ro (0)
/-- ALM.PDM.CORE [15:0] RO, R351. -/
def R.ALM_PDM_CORE : Fld := fld (0x4048) 0 16 .ro (0)
/-- ALM.TDIE.TLIM [31:16] RW, R351. -/
def R.ALM_TDIE_TLIM : Fld := fld (0x404C) 16 16 .rw (1680)
/-- ALM.TDIE.TDIE [15:0] RO, R351. -/
def R.ALM_TDIE_TDIE : Fld := fld (0x404C) 0 16 .ro (0)
/-- ALM.KEST0.ESR [31:16] RW, R351. -/
def R.ALM_KEST0_ESR : Fld := fld (0x4050) 16 16 .rw (4096)
/-- ALM.KEST0.CEST [15:0] RW, R351. -/
def R.ALM_KEST0_CEST : Fld := fld (0x4050) 0 16 .rw (32768)
/-- ALM.KEST1.TCYC [31:16] RW, R351. -/
def R.ALM_KEST1_TCYC : Fld := fld (0x4054) 16 16 .rw (0)
/-- ALM.KEST1.VDRIFT [15:0] RW, R351. -/
def R.ALM_KEST1_VDRIFT : Fld := fld (0x4054) 0 16 .rw (0)
/-- ALM.GB.DREF [17:16] RO, R351. -/
def R.ALM_GB_DREF : Fld := fld (0x4058) 16 2 .ro (0)
/-- ALM.GB.GBS [15:8] RO, R351. -/
def R.ALM_GB_GBS : Fld := fld (0x4058) 8 8 .ro (0)
/-- ALM.GB.GBC [7:0] RO, R351. -/
def R.ALM_GB_GBC : Fld := fld (0x4058) 0 8 .ro (0)
/-- ALM.PLAN.DREF [17:16] ST, R351. -/
def R.ALM_PLAN_DREF : Fld := fld (0x405C) 16 2 .st (0)
/-- ALM.PLAN.GBS [15:8] ST, R351. -/
def R.ALM_PLAN_GBS : Fld := fld (0x405C) 8 8 .st (0)
/-- ALM.PLAN.GBC [7:0] ST, R351. -/
def R.ALM_PLAN_GBC : Fld := fld (0x405C) 0 8 .st (0)
/-- ALM.GBMIN.GBSMIN [15:8] RO, R351. -/
def R.ALM_GBMIN_GBSMIN : Fld := fld (0x4060) 8 8 .ro (0)
/-- ALM.GBMIN.GBCMIN [7:0] RO, R351. -/
def R.ALM_GBMIN_GBCMIN : Fld := fld (0x4060) 0 8 .ro (0)
/-- ALM.CMD.EPCLOSE [1:1] W1A, R351. -/
def R.ALM_CMD_EPCLOSE : Fld := fld (0x4064) 1 1 .w1a (0)
/-- ALM.CMD.EPOPEN [0:0] W1A, R351. -/
def R.ALM_CMD_EPOPEN : Fld := fld (0x4064) 0 1 .w1a (0)
/-- ALM.WCNT.WFC [15:0] RO, R351. -/
def R.ALM_WCNT_WFC : Fld := fld (0x4068) 0 16 .ro (0)
/-- ALM.RIDX.WORD [23:19] RW, R351. -/
def R.ALM_RIDX_WORD : Fld := fld (0x406C) 19 5 .rw (0)
/-- ALM.RIDX.ENTRY [18:0] RW, R351. -/
def R.ALM_RIDX_ENTRY : Fld := fld (0x406C) 0 19 .rw (0)
/-- ALM.RDATA.DATA [31:0] RO, R351. -/
def R.ALM_RDATA_DATA : Fld := fld (0x4070) 0 32 .ro (0)
/-! ### SEC (page 0x05) -/
/-- SEC.STA.OERR [23:20] RO, R402. -/
def R.SEC_STA_OERR : Fld := fld (0x5040) 20 4 .ro (0)
/-- SEC.STA.BUSY [15:15] RO, R402. -/
def R.SEC_STA_BUSY : Fld := fld (0x5040) 15 1 .ro (0)
/-- SEC.STA.IDVALID [14:14] RO, R402. -/
def R.SEC_STA_IDVALID : Fld := fld (0x5040) 14 1 .ro (0)
/-- SEC.STA.NEXTRDY [13:13] RO, R402. -/
def R.SEC_STA_NEXTRDY : Fld := fld (0x5040) 13 1 .ro (0)
/-- SEC.STA.SIGRDY [12:12] RO, R402. -/
def R.SEC_STA_SIGRDY : Fld := fld (0x5040) 12 1 .ro (0)
/-- SEC.STA.DBGOPEN [11:11] RO, R402. -/
def R.SEC_STA_DBGOPEN : Fld := fld (0x5040) 11 1 .ro (0)
/-- SEC.STA.LCS [10:8] RO, R402. -/
def R.SEC_STA_LCS : Fld := fld (0x5040) 8 3 .ro (0)
/-- SEC.STA.OSLOT [7:7] RO, R402. -/
def R.SEC_STA_OSLOT : Fld := fld (0x5040) 7 1 .ro (0)
/-- SEC.STA.VSLOT [6:6] RO, R402. -/
def R.SEC_STA_VSLOT : Fld := fld (0x5040) 6 1 .ro (0)
/-- SEC.STA.BSTAGE [3:0] RO, R402. -/
def R.SEC_STA_BSTAGE : Fld := fld (0x5040) 0 4 .ro (0)
/-- SEC.CMD.SVNCOMMIT [7:7] W1A, R402. -/
def R.SEC_CMD_SVNCOMMIT : Fld := fld (0x5044) 7 1 .w1a (0)
/-- SEC.CMD.MLOCK [6:6] W1A, R402. -/
def R.SEC_CMD_MLOCK : Fld := fld (0x5044) 6 1 .w1a (0)
/-- SEC.CMD.EXTEND [5:5] W1A, R402. -/
def R.SEC_CMD_EXTEND : Fld := fld (0x5044) 5 1 .w1a (0)
/-- SEC.CMD.ATTEST [4:4] W1A, R402. -/
def R.SEC_CMD_ATTEST : Fld := fld (0x5044) 4 1 .w1a (0)
/-- SEC.CMD.SIGN [3:3] W1A, R402. -/
def R.SEC_CMD_SIGN : Fld := fld (0x5044) 3 1 .w1a (0)
/-- SEC.CMD.VERIFY [2:2] W1A, R402. -/
def R.SEC_CMD_VERIFY : Fld := fld (0x5044) 2 1 .w1a (0)
/-- SEC.CMD.ORDER [1:1] W1A, R402. -/
def R.SEC_CMD_ORDER : Fld := fld (0x5044) 1 1 .w1a (0)
/-- SEC.CMD.NONCE [0:0] W1A, R402. -/
def R.SEC_CMD_NONCE : Fld := fld (0x5044) 0 1 .w1a (0)
/-- SEC.OPARG.SVNK [8:8] RW, R402. -/
def R.SEC_OPARG_SVNK : Fld := fld (0x5048) 8 1 .rw (0)
/-- SEC.OPARG.MIDX [1:0] RW, R402. -/
def R.SEC_OPARG_MIDX : Fld := fld (0x5048) 0 2 .rw (0)
/-- SEC.MADDR.ADDR [35:0] RW, R402. -/
def R.SEC_MADDR_ADDR : Fld := fld (0x5050) 0 36 .rw (0)
/-- SEC.MLEN.LEN [23:0] RW, R402. -/
def R.SEC_MLEN_LEN : Fld := fld (0x5058) 0 24 .rw (0)
/-- SEC.RES.OLEN [31:16] RO, R402. -/
def R.SEC_RES_OLEN : Fld := fld (0x505C) 16 16 .ro (0)
/-- SEC.RES.OK [0:0] RO, R402. -/
def R.SEC_RES_OK : Fld := fld (0x505C) 0 1 .ro (0)
/-- SEC.IDX.VAL [39:0] RO, R402. -/
def R.SEC_IDX_VAL : Fld := fld (0x5060) 0 40 .ro (0)
/-- SEC.RESV.VAL [39:0] RO, R402. -/
def R.SEC_RESV_VAL : Fld := fld (0x5068) 0 40 .ro (0)
/-- SEC.SVN.OWNER [31:16] RO, R402. -/
def R.SEC_SVN_OWNER : Fld := fld (0x5070) 16 16 .ro (0)
/-- SEC.SVN.VENDOR [15:0] RO, R402. -/
def R.SEC_SVN_VENDOR : Fld := fld (0x5070) 0 16 .ro (0)
/-- SEC.SIGC.SIGC [31:0] RO, R402. -/
def R.SEC_SIGC_SIGC : Fld := fld (0x5074) 0 32 .ro (0)
/-- SEC.SKIP.SKIP [6:0] RO, R402. -/
def R.SEC_SKIP_SKIP : Fld := fld (0x5078) 0 7 .ro (0)
/-- SEC.NONCEw.WORD [31:0] RO, R402. -/
def R.SEC_NONCE_WORD (w : Nat) : Fld := fld (0x5080 + 0x4 * w) 0 32 .ro (0)
/-- SEC.MEASk_w.WORD [31:0] RO, R402. -/
def R.SEC_MEAS_WORD (k w : Nat) : Fld := fld (0x5100 + 0x20 * k + 0x4 * w) 0 32 .ro (0)
/-- SEC.IDPKw.WORD [31:0] RO, R402. -/
def R.SEC_IDPK_WORD (w : Nat) : Fld := fld (0x5180 + 0x4 * w) 0 32 .ro (0)
/-- SEC.SERIAL.SERIAL [63:0] RO, R402. -/
def R.SEC_SERIAL_SERIAL : Fld := fld (0x51C8) 0 64 .ro (0)
/-- SEC.DBG.SCOPE [1:0] RO, R402. -/
def R.SEC_DBG_SCOPE : Fld := fld (0x51D0) 0 2 .ro (0)
/-- SEC.BUF.WORD [31:0] RW, R402. -/
def R.SEC_BUF_WORD (w : Nat) : Fld := fld (0x5400 + 0x4 * w) 0 32 .rw (0)
/-! ### TBS (page 0x06) -/
/-- TBS.CFG.JUMPLIM [31:16] ST, R290. -/
def R.TBS_CFG_JUMPLIM : Fld := fld (0x6040) 16 16 .st (50)
/-- TBS.CFG.HOLDTMO [15:8] ST, R290. -/
def R.TBS_CFG_HOLDTMO : Fld := fld (0x6040) 8 8 .st (30)
/-- TBS.CFG.AUTOACC [4:4] ST, R290. -/
def R.TBS_CFG_AUTOACC : Fld := fld (0x6040) 4 1 .st (0)
/-- TBS.CFG.SRC [1:0] ST, R290. -/
def R.TBS_CFG_SRC : Fld := fld (0x6040) 0 2 .st (0)
/-- TBS.GAIN.GI [31:16] ST, R290. -/
def R.TBS_GAIN_GI : Fld := fld (0x6044) 16 16 .st (1)
/-- TBS.GAIN.GP [15:0] ST, R290. -/
def R.TBS_GAIN_GP : Fld := fld (0x6044) 0 16 .st (16)
/-- TBS.FMAX.FMAX [8:0] ST, R290. -/
def R.TBS_FMAX_FMAX : Fld := fld (0x6048) 0 9 .st (100)
/-- TBS.STA.CMDREF [5:5] W1C, R290. -/
def R.TBS_STA_CMDREF : Fld := fld (0x604C) 5 1 .w1c (0)
/-- TBS.STA.UHOLD [4:4] RO, R290. -/
def R.TBS_STA_UHOLD : Fld := fld (0x604C) 4 1 .ro (0)
/-- TBS.STA.STATE [2:0] RO, R290. -/
def R.TBS_STA_STATE : Fld := fld (0x604C) 0 3 .ro (0)
/-- TBS.FADJ.VAL [31:0] RO, R290. -/
def R.TBS_FADJ_VAL : Fld := fld (0x6050) 0 32 .ro (0)
/-- TBS.FINT.VAL [31:0] RO, R290. -/
def R.TBS_FINT_VAL : Fld := fld (0x6054) 0 32 .ro (0)
/-- TBS.OFSIN.OFS [63:0] RW, R290. -/
def R.TBS_OFSIN_OFS : Fld := fld (0x6058) 0 64 .rw (0)
/-- TBS.PEND.PEND [63:0] RO, R290. -/
def R.TBS_PEND_PEND : Fld := fld (0x6060) 0 64 .ro (0)
/-- TBS.MON.MON [31:0] RO, R290. -/
def R.TBS_MON_MON : Fld := fld (0x6068) 0 32 .ro (0)
/-- TBS.CMD.CCLR [3:3] W1A, R290. -/
def R.TBS_CMD_CCLR : Fld := fld (0x606C) 3 1 .w1a (0)
/-- TBS.CMD.RESUME [2:2] W1A, R290. -/
def R.TBS_CMD_RESUME : Fld := fld (0x606C) 2 1 .w1a (0)
/-- TBS.CMD.ACCEPT [1:1] W1A, R290. -/
def R.TBS_CMD_ACCEPT : Fld := fld (0x606C) 1 1 .w1a (0)
/-- TBS.CMD.SNAP [0:0] W1A, R290. -/
def R.TBS_CMD_SNAP : Fld := fld (0x606C) 0 1 .w1a (0)
/-- TBS.SNAPS.SEC [47:0] RO, R290. -/
def R.TBS_SNAPS_SEC : Fld := fld (0x6070) 0 48 .ro (0)
/-- TBS.STRKS.SEC [47:0] RO, R290. -/
def R.TBS_STRKS_SEC : Fld := fld (0x6080) 0 48 .ro (0)
/-- TBS.SNAPN.NS [31:0] RO, R290. -/
def R.TBS_SNAPN_NS : Fld := fld (0x6078) 0 32 .ro (0)
/-- TBS.STRKN.NS [31:0] RO, R290. -/
def R.TBS_STRKN_NS : Fld := fld (0x6088) 0 32 .ro (0)
/-- TBS.SNAPF.TICK [31:16] RO, R290. -/
def R.TBS_SNAPF_TICK : Fld := fld (0x607C) 16 16 .ro (0)
/-- TBS.SNAPF.SUB [7:0] RO, R290. -/
def R.TBS_SNAPF_SUB : Fld := fld (0x607C) 0 8 .ro (0)
/-- TBS.STRKF.TICK [31:16] RO, R290. -/
def R.TBS_STRKF_TICK : Fld := fld (0x608C) 16 16 .ro (0)
/-- TBS.STRKF.SUB [7:0] RO, R290. -/
def R.TBS_STRKF_SUB : Fld := fld (0x608C) 0 8 .ro (0)
/-- TBS.CNT.REFC [31:16] RO, R290. -/
def R.TBS_CNT_REFC : Fld := fld (0x6090) 16 16 .ro (0)
/-- TBS.CNT.STEPC [15:0] RO, R290. -/
def R.TBS_CNT_STEPC : Fld := fld (0x6090) 0 16 .ro (0)
/-! ### TCK (page 0x07) -/
/-- TCK.PER.PER [13:0] ST, R59. -/
def R.TCK_PER_PER : Fld := fld (0x7040) 0 14 .st (1000)
/-- TCK.MINP.MINP [13:0] DO, R59. -/
def R.TCK_MINP_MINP : Fld := fld (0x7044) 0 14 .do (400)
/-- TCK.CDL.CDL [13:0] ST, R59. -/
def R.TCK_CDL_CDL : Fld := fld (0x7048) 0 14 .st (0)
/-- TCK.CPER.MM1 [3:0] ST, R59. -/
def R.TCK_CPER_MM1 : Fld := fld (0x704C) 0 4 .st (0)
/-- TCK.HOLD.HCNT [11:8] RO, R59. -/
def R.TCK_HOLD_HCNT : Fld := fld (0x7050) 8 4 .ro (0)
/-- TCK.HOLD.HOLDLIM [3:0] ST, R59. -/
def R.TCK_HOLD_HOLDLIM : Fld := fld (0x7050) 0 4 .st (3)
/-- TCK.RPT.WIN1 [25:16] RO, R59. -/
def R.TCK_RPT_WIN1 : Fld := fld (0x7054) 16 10 .ro (0)
/-- TCK.RPT.CONS1 [15:12] RO, R59. -/
def R.TCK_RPT_CONS1 : Fld := fld (0x7054) 12 4 .ro (0)
/-- TCK.RPT.WIN0 [11:2] RO, R59. -/
def R.TCK_RPT_WIN0 : Fld := fld (0x7054) 2 10 .ro (0)
/-- TCK.RPT.CONS0 [1:0] RO, R59. -/
def R.TCK_RPT_CONS0 : Fld := fld (0x7054) 0 2 .ro (0)
/-- TCK.LAST.CMDAT [29:16] RO, R59. -/
def R.TCK_LAST_CMDAT : Fld := fld (0x7058) 16 14 .ro (0)
/-- TCK.LAST.HDONE [13:0] RO, R59. -/
def R.TCK_LAST_HDONE : Fld := fld (0x7058) 0 14 .ro (0)
/-- TCK.NUM.NUM [47:0] RO, R59. -/
def R.TCK_NUM_NUM : Fld := fld (0x7060) 0 48 .ro (0)
/-- TCK.DRNC.TLM [31:16] RO, R59. -/
def R.TCK_DRNC_TLM : Fld := fld (0x7068) 16 16 .ro (0)
/-- TCK.DRNC.CTL [15:0] RO, R59. -/
def R.TCK_DRNC_CTL : Fld := fld (0x7068) 0 16 .ro (0)
/-- TCK.CLR.RCLR [1:1] W1A, R59. -/
def R.TCK_CLR_RCLR : Fld := fld (0x706C) 1 1 .w1a (0)
/-- TCK.CLR.DCLR [0:0] W1A, R59. -/
def R.TCK_CLR_DCLR : Fld := fld (0x706C) 0 1 .w1a (0)
/-- TCK.STAT.CSTATE [5:4] RO, R59. -/
def R.TCK_STAT_CSTATE : Fld := fld (0x7070) 4 2 .ro (0)
/-- TCK.STAT.ALGN [3:3] RO, R59. -/
def R.TCK_STAT_ALGN : Fld := fld (0x7070) 3 1 .ro (0)
/-- TCK.STAT.TPCHG [2:2] RO, R59. -/
def R.TCK_STAT_TPCHG : Fld := fld (0x7070) 2 1 .ro (0)
/-- TCK.STAT.PERR [1:1] W1C, R59. -/
def R.TCK_STAT_PERR : Fld := fld (0x7070) 1 1 .w1c (0)
/-- TCK.STAT.LOCK [0:0] RO, R59. -/
def R.TCK_STAT_LOCK : Fld := fld (0x7070) 0 1 .ro (0)
/-- TCK.PNEW.PNEW [13:0] RO, R59. -/
def R.TCK_PNEW_PNEW : Fld := fld (0x7074) 0 14 .ro (0)
/-! ### DSX (page 0x08) -/
/-- DSX.CRUN.RUNNING [15:8] RO, R233. -/
def R.DSX_CRUN_RUNNING : Fld := fld (0x8040) 8 8 .ro (1)
/-- DSX.CRUN.START [7:1] W1A, R233. -/
def R.DSX_CRUN_START : Fld := fld (0x8040) 1 7 .w1a (0)
/-- DSX.CBOOT.ADDR [31:2] RW, R233. -/
def R.DSX_CBOOT_ADDR : Fld := fld (0x8044) 2 30 .rw (0)
/-- DSX.POST.NUM [29:24] W1A, R233. -/
def R.DSX_POST_NUM : Fld := fld (0x8048) 24 6 .w1a (0)
/-- DSX.POST.ARG [23:0] W1A, R233. -/
def R.DSX_POST_ARG : Fld := fld (0x8048) 0 24 .w1a (0)
/-- DSX.CANCEL.GO [31:31] W1A, R233. -/
def R.DSX_CANCEL_GO : Fld := fld (0x804C) 31 1 .w1a (0)
/-- DSX.CANCEL.SRC [7:0] RW, R233. -/
def R.DSX_CANCEL_SRC : Fld := fld (0x804C) 0 8 .rw (0)
/-- DSX.POOL.MINFREE [28:16] RO, R233. -/
def R.DSX_POOL_MINFREE : Fld := fld (0x8050) 16 13 .ro (4096)
/-- DSX.POOL.FREE [12:0] RO, R233. -/
def R.DSX_POOL_FREE : Fld := fld (0x8050) 0 13 .ro (4096)
/-- DSX.DROP.POOL [15:0] RO, R233. -/
def R.DSX_DROP_POOL : Fld := fld (0x8054) 0 16 .ro (0)
/-- DSX.CNCL.CANC [31:16] RO, R233. -/
def R.DSX_CNCL_CANC : Fld := fld (0x8058) 16 16 .ro (0)
/-- DSX.CNCL.SAME [15:0] RO, R233. -/
def R.DSX_CNCL_SAME : Fld := fld (0x8058) 0 16 .ro (0)
/-- DSX.DRN.DRN [15:0] RO, R233. -/
def R.DSX_DRN_DRN : Fld := fld (0x805C) 0 16 .ro (0)
/-- DSX.WDG.LIMIT [23:0] RW, R233. -/
def R.DSX_WDG_LIMIT : Fld := fld (0x8060) 0 24 .rw (0)
/-- DSX.WFLG.WDG [7:0] W1C, R233. -/
def R.DSX_WFLG_WDG : Fld := fld (0x8064) 0 8 .w1c (0)
/-- DSX.CMD.CCLR [0:0] W1A, R233. -/
def R.DSX_CMD_CCLR : Fld := fld (0x8068) 0 1 .w1a (0)
/-- DSX.CSTc.HELD [31:31] RO, R233. -/
def R.DSX_CST_HELD (c : Nat) : Fld := fld (0x8080 + 0x4 * c) 31 1 .ro (0)
/-- DSX.CSTc.SLOTV [30:30] RO, R233. -/
def R.DSX_CST_SLOTV (c : Nat) : Fld := fld (0x8080 + 0x4 * c) 30 1 .ro (0)
/-- DSX.CSTc.PRIO [29:24] RO, R233. -/
def R.DSX_CST_PRIO (c : Nat) : Fld := fld (0x8080 + 0x4 * c) 24 6 .ro (0)
/-- DSX.CSTc.DOM [15:8] RO, R233. -/
def R.DSX_CST_DOM (c : Nat) : Fld := fld (0x8080 + 0x4 * c) 8 8 .ro (0)
/-- DSX.CSTc.SRC [7:0] RO, R233. -/
def R.DSX_CST_SRC (c : Nat) : Fld := fld (0x8080 + 0x4 * c) 0 8 .ro (0)
/-- DSX.SLOTc.DESC [63:0] RO, R233. -/
def R.DSX_SLOT_DESC (c : Nat) : Fld := fld (0x80C0 + 0x8 * c) 0 64 .ro (0)
/-- DSX.TMRCFGn.EN [31:31] RW, R233. -/
def R.DSX_TMRCFG_EN (n : Nat) : Fld := fld (0x8100 + 0x8 * n) 31 1 .rw (0)
/-- DSX.TMRCFGn.PER [30:30] RW, R233. -/
def R.DSX_TMRCFG_PER (n : Nat) : Fld := fld (0x8100 + 0x8 * n) 30 1 .rw (0)
/-- DSX.TMRCFGn.INTV [29:0] RW, R233. -/
def R.DSX_TMRCFG_INTV (n : Nat) : Fld := fld (0x8100 + 0x8 * n) 0 30 .rw (0)
/-- DSX.TMRCNTn.CNT [29:0] RO, R233. -/
def R.DSX_TMRCNT_CNT (n : Nat) : Fld := fld (0x8104 + 0x8 * n) 0 30 .ro (0)
/-- DSX.SRCn.EN [31:31] RW, R233. -/
def R.DSX_SRC_EN (n : Nat) : Fld := fld (0x8400 + 0x4 * n) 31 1 .rw (0)
/-- DSX.SRCn.UNORD [30:30] RW, R233. -/
def R.DSX_SRC_UNORD (n : Nat) : Fld := fld (0x8400 + 0x4 * n) 30 1 .rw (0)
/-- DSX.SRCn.COAL [29:29] RW, R233. -/
def R.DSX_SRC_COAL (n : Nat) : Fld := fld (0x8400 + 0x4 * n) 29 1 .rw (0)
/-- DSX.SRCn.DROPF [28:28] W1C, R233. -/
def R.DSX_SRC_DROPF (n : Nat) : Fld := fld (0x8400 + 0x4 * n) 28 1 .w1c (0)
/-- DSX.SRCn.PRIO [21:16] RW, R233. -/
def R.DSX_SRC_PRIO (n : Nat) : Fld := fld (0x8400 + 0x4 * n) 16 6 .rw (63)
/-- DSX.SRCn.DOM [15:8] RW, R233. -/
def R.DSX_SRC_DOM (n : Nat) : Fld := fld (0x8400 + 0x4 * n) 8 8 .rw (0)
/-- DSX.SRCn.CMASK [7:0] RW, R233. -/
def R.DSX_SRC_CMASK (n : Nat) : Fld := fld (0x8400 + 0x4 * n) 0 8 .rw (255)
/-! ### PMU (page 0x09) -/
/-- PMU.EVSELj.OVIE [10:10] RW, R234. -/
def R.PMU_EVSEL_OVIE (c j : Nat) : Fld := fld (0x9100 + 0x80 * c + 0x4 * j) 10 1 .rw (0)
/-- PMU.EVSELj.MMODE [9:9] RW, R234. -/
def R.PMU_EVSEL_MMODE (c j : Nat) : Fld := fld (0x9100 + 0x80 * c + 0x4 * j) 9 1 .rw (0)
/-- PMU.EVSELj.UMODE [8:8] RW, R234. -/
def R.PMU_EVSEL_UMODE (c j : Nat) : Fld := fld (0x9100 + 0x80 * c + 0x4 * j) 8 1 .rw (0)
/-- PMU.EVSELj.EVT [7:0] RW, R234. -/
def R.PMU_EVSEL_EVT (c j : Nat) : Fld := fld (0x9100 + 0x80 * c + 0x4 * j) 0 8 .rw (0)
/-- PMU.PCTL.FZOV [1:1] RW, R234. -/
def R.PMU_PCTL_FZOV (c : Nat) : Fld := fld (0x9118 + 0x80 * c) 1 1 .rw (0)
/-- PMU.PCTL.FRZ [0:0] RW, R234. -/
def R.PMU_PCTL_FRZ (c : Nat) : Fld := fld (0x9118 + 0x80 * c) 0 1 .rw (0)
/-- PMU.OVF.PSBFULL [9:9] W1C, R234. -/
def R.PMU_OVF_PSBFULL (c : Nat) : Fld := fld (0x911C + 0x80 * c) 9 1 .w1c (0)
/-- PMU.OVF.PSBTH [8:8] W1C, R234. -/
def R.PMU_OVF_PSBTH (c : Nat) : Fld := fld (0x911C + 0x80 * c) 8 1 .w1c (0)
/-- PMU.OVF.OV [5:0] W1C, R234. -/
def R.PMU_OVF_OV (c : Nat) : Fld := fld (0x911C + 0x80 * c) 0 6 .w1c (0)
/-- PMU.CNTj.CNT [47:0] RW, R234. -/
def R.PMU_CNT_CNT (c j : Nat) : Fld := fld (0x9120 + 0x80 * c + 0x8 * j) 0 48 .rw (0)
/-- PMU.USEREN.EN [5:0] RW, R234. -/
def R.PMU_USEREN_EN (c : Nat) : Fld := fld (0x9150 + 0x80 * c) 0 6 .rw (0)
/-- PMU.PSBCFG.EN [31:31] RW, R234. -/
def R.PMU_PSBCFG_EN (c : Nat) : Fld := fld (0x9154 + 0x80 * c) 31 1 .rw (0)
/-- PMU.PSBCFG.IE [30:30] RW, R234. -/
def R.PMU_PSBCFG_IE (c : Nat) : Fld := fld (0x9154 + 0x80 * c) 30 1 .rw (0)
/-- PMU.PSBCFG.CLASS [29:27] RW, R234. -/
def R.PMU_PSBCFG_CLASS (c : Nat) : Fld := fld (0x9154 + 0x80 * c) 27 3 .rw (0)
/-- PMU.PSBCFG.DITHER [26:24] RW, R234. -/
def R.PMU_PSBCFG_DITHER (c : Nat) : Fld := fld (0x9154 + 0x80 * c) 24 3 .rw (0)
/-- PMU.PSBCFG.PERIOD [19:0] RW, R234. -/
def R.PMU_PSBCFG_PERIOD (c : Nat) : Fld := fld (0x9154 + 0x80 * c) 0 20 .rw (0)
/-- PMU.PSBTHR.THR [6:0] RW, R234. -/
def R.PMU_PSBTHR_THR (c : Nat) : Fld := fld (0x9158 + 0x80 * c) 0 7 .rw (32)
/-- PMU.PSBSTA.SEQ [31:16] RO, R234. -/
def R.PMU_PSBSTA_SEQ (c : Nat) : Fld := fld (0x915C + 0x80 * c) 16 16 .ro (0)
/-- PMU.PSBSTA.COUNT [6:0] RO, R234. -/
def R.PMU_PSBSTA_COUNT (c : Nat) : Fld := fld (0x915C + 0x80 * c) 0 7 .ro (0)
/-- PMU.PSBRDw.WORD [31:0] RO, R234. -/
def R.PMU_PSBRD_WORD (c w : Nat) : Fld := fld (0x9164 + 0x80 * c + 0x4 * w) 0 32 .ro (0)
/-- PMU.PSBLOST.LOST [15:0] RO, R234. -/
def R.PMU_PSBLOST_LOST (c : Nat) : Fld := fld (0x9160 + 0x80 * c) 0 16 .ro (0)
/-! ### MEMC (page 0x0A) -/
/-- MEMC.STA.SCRB [2:2] RO, R435. -/
def R.MEMC_STA_SCRB : Fld := fld (0xA040) 2 1 .ro (0)
/-- MEMC.STA.RATE [1:0] RO, R435. -/
def R.MEMC_STA_RATE : Fld := fld (0xA040) 0 2 .ro (0)
/-- MEMC.SCRB.PASS [31:16] RO, R435. -/
def R.MEMC_SCRB_PASS : Fld := fld (0xA044) 16 16 .ro (0)
/-- MEMC.CEC.CEC [31:0] RO, R435. -/
def R.MEMC_CEC_CEC : Fld := fld (0xA048) 0 32 .ro (0)
/-- MEMC.UEA.ADDR [35:0] RO, R435. -/
def R.MEMC_UEA_ADDR : Fld := fld (0xA050) 0 36 .ro (0)
/-! ### RED (page 0x0B) -/
/-- RED.CFG.RVH [31:24] ST, R330. -/
def R.RED_CFG_RVH : Fld := fld (0xB040) 24 8 .st (10)
/-- RED.CFG.SILN [23:20] ST, R330. -/
def R.RED_CFG_SILN : Fld := fld (0xB040) 20 4 .st (1)
/-- RED.CFG.HBN [19:16] ST, R330. -/
def R.RED_CFG_HBN : Fld := fld (0xB040) 16 4 .st (2)
/-- RED.CFG.READYN [15:8] ST, R330. -/
def R.RED_CFG_READYN : Fld := fld (0xB040) 8 8 .st (16)
/-- RED.CFG.PRIM [0:0] ST, R330. -/
def R.RED_CFG_PRIM : Fld := fld (0xB040) 0 1 .st (0)
/-- RED.STA.REASON [11:8] RO, R330. -/
def R.RED_STA_REASON : Fld := fld (0xB044) 8 4 .ro (0)
/-- RED.STA.CMDREF [7:7] W1C, R330. -/
def R.RED_STA_CMDREF : Fld := fld (0xB044) 7 1 .w1c (0)
/-- RED.STA.COLD [6:6] RO, R330. -/
def R.RED_STA_COLD : Fld := fld (0xB044) 6 1 .ro (0)
/-- RED.STA.PPRES [5:5] RO, R330. -/
def R.RED_STA_PPRES : Fld := fld (0xB044) 5 1 .ro (0)
/-- RED.STA.PREADY [4:4] RO, R330. -/
def R.RED_STA_PREADY : Fld := fld (0xB044) 4 1 .ro (0)
/-- RED.STA.READY [3:3] RO, R330. -/
def R.RED_STA_READY : Fld := fld (0xB044) 3 1 .ro (0)
/-- RED.STA.STATE [2:0] RO, R330. -/
def R.RED_STA_STATE : Fld := fld (0xB044) 0 3 .ro (0)
/-- RED.CMD.CCLR [1:1] W1A, R330. -/
def R.RED_CMD_CCLR : Fld := fld (0xB048) 1 1 .w1a (0)
/-- RED.CMD.YIELD [0:0] W1A, R330. -/
def R.RED_CMD_YIELD : Fld := fld (0xB048) 0 1 .w1a (0)
/-- RED.HB.HB [7:0] RW, R330. -/
def R.RED_HB_HB : Fld := fld (0xB04C) 0 8 .rw (0)
/-- RED.MODE.MODE [31:0] RW, R330. -/
def R.RED_MODE_MODE : Fld := fld (0xB050) 0 32 .rw (0)
/-- RED.PMODE.MODE [31:0] RO, R330. -/
def R.RED_PMODE_MODE : Fld := fld (0xB054) 0 32 .ro (0)
/-- RED.MSELC.CH [31:0] ST, R330. -/
def R.RED_MSELC_CH : Fld := fld (0xB058) 0 32 .st (0)
/-- RED.MSELP.ARMS [17:16] ST, R330. -/
def R.RED_MSELP_ARMS : Fld := fld (0xB05C) 16 2 .st (3)
/-- RED.MSELP.PGN [15:0] ST, R330. -/
def R.RED_MSELP_PGN : Fld := fld (0xB05C) 0 16 .st (0)
/-- RED.MOFS.OFS [13:0] ST, R330. -/
def R.RED_MOFS_OFS : Fld := fld (0xB060) 0 14 .st (200)
/-- RED.EPOCH.EPOCH [15:0] RO, R330. -/
def R.RED_EPOCH_EPOCH : Fld := fld (0xB064) 0 16 .ro (0)
/-- RED.CNT.MLOSTC [31:16] RO, R330. -/
def R.RED_CNT_MLOSTC : Fld := fld (0xB068) 16 16 .ro (0)
/-- RED.CNT.TKOC [15:0] RO, R330. -/
def R.RED_CNT_TKOC : Fld := fld (0xB068) 0 16 .ro (0)
/-- RED.TKO.TICK [31:0] RO, R330. -/
def R.RED_TKO_TICK : Fld := fld (0xB06C) 0 32 .ro (0)
/-- RED.MLEN.SEGS [23:16] RO, R330. -/
def R.RED_MLEN_SEGS : Fld := fld (0xB070) 16 8 .ro (0)
/-- RED.MLEN.BYTES [15:0] RO, R330. -/
def R.RED_MLEN_BYTES : Fld := fld (0xB070) 0 16 .ro (0)
/-- RED.RVCNT.CNT [31:0] RO, R330. -/
def R.RED_RVCNT_CNT : Fld := fld (0xB074) 0 32 .ro (0)
/-! ### ACQ (page 0x0C) -/
/-- ACQ.CFG.SOFS [29:16] DO, R316. -/
def R.ACQ_CFG_SOFS : Fld := fld (0xC040) 16 14 .do (25)
/-- ACQ.CFG.RETRIG [15:15] DO, R316. -/
def R.ACQ_CFG_RETRIG : Fld := fld (0xC040) 15 1 .do (1)
/-- ACQ.CFG.STOPV [14:14] DO, R316. -/
def R.ACQ_CFG_STOPV : Fld := fld (0xC040) 14 1 .do (0)
/-- ACQ.CFG.SDM1 [3:0] DO, R316. -/
def R.ACQ_CFG_SDM1 : Fld := fld (0xC040) 0 4 .do (0)
/-- ACQ.WIN.POST [29:16] DO, R316. -/
def R.ACQ_WIN_POST : Fld := fld (0xC044) 16 14 .do (1000)
/-- ACQ.WIN.PRE [14:0] DO, R316. -/
def R.ACQ_WIN_PRE : Fld := fld (0xC044) 0 15 .do (200)
/-- ACQ.MAXP.MAXPOST [13:0] DO, R316. -/
def R.ACQ_MAXP_MAXPOST : Fld := fld (0xC048) 0 14 .do (16383)
/-- ACQ.HBASE.BASE [31:0] DO, R316. -/
def R.ACQ_HBASE_BASE : Fld := fld (0xC04C) 0 32 .do (0)
/-- ACQ.RBASE.BASE [31:0] DO, R316. -/
def R.ACQ_RBASE_BASE : Fld := fld (0xC058) 0 32 .do (0)
/-- ACQ.HDEP.HDEP [15:0] DO, R316. -/
def R.ACQ_HDEP_HDEP : Fld := fld (0xC050) 0 16 .do (256)
/-- ACQ.HSIZE.SIZE [15:0] DO, R316. -/
def R.ACQ_HSIZE_SIZE : Fld := fld (0xC054) 0 16 .do (0)
/-- ACQ.RSIZE.SIZE [15:0] DO, R316. -/
def R.ACQ_RSIZE_SIZE : Fld := fld (0xC05C) 0 16 .do (0)
/-- ACQ.WRPTR.PTR [27:4] RO, R316. -/
def R.ACQ_WRPTR_PTR : Fld := fld (0xC060) 4 24 .ro (0)
/-- ACQ.RDPTR.PTR [27:4] RW, R316. -/
def R.ACQ_RDPTR_PTR : Fld := fld (0xC064) 4 24 .rw (0)
/-- ACQ.CMD.CCLR [3:3] W1A, R316. -/
def R.ACQ_CMD_CCLR : Fld := fld (0xC068) 3 1 .w1a (0)
/-- ACQ.CMD.STOP [2:2] W1A, R316. -/
def R.ACQ_CMD_STOP : Fld := fld (0xC068) 2 1 .w1a (0)
/-- ACQ.CMD.FORCE [1:1] W1A, R316. -/
def R.ACQ_CMD_FORCE : Fld := fld (0xC068) 1 1 .w1a (0)
/-- ACQ.CMD.ARM [0:0] W1A, R316. -/
def R.ACQ_CMD_ARM : Fld := fld (0xC068) 0 1 .w1a (0)
/-- ACQ.STA.CFGERR [7:7] RO, R316. -/
def R.ACQ_STA_CFGERR : Fld := fld (0xC06C) 7 1 .ro (0)
/-- ACQ.STA.CMDREF [6:6] W1C, R316. -/
def R.ACQ_STA_CMDREF : Fld := fld (0xC06C) 6 1 .w1c (0)
/-- ACQ.STA.SCAUSE [5:4] RO, R316. -/
def R.ACQ_STA_SCAUSE : Fld := fld (0xC06C) 4 2 .ro (0)
/-- ACQ.STA.STATE [2:0] RO, R316. -/
def R.ACQ_STA_STATE : Fld := fld (0xC06C) 0 3 .ro (0)
/-- ACQ.RSEQ.VAL [31:0] RO, R316. -/
def R.ACQ_RSEQ_VAL : Fld := fld (0xC070) 0 32 .ro (0)
/-- ACQ.DEAD.VAL [31:0] RO, R316. -/
def R.ACQ_DEAD_VAL : Fld := fld (0xC074) 0 32 .ro (0)
/-- ACQ.CNT.MISSED [31:16] RO, R316. -/
def R.ACQ_CNT_MISSED : Fld := fld (0xC078) 16 16 .ro (0)
/-- ACQ.CNT.OVFC [15:0] RO, R316. -/
def R.ACQ_CNT_OVFC : Fld := fld (0xC078) 0 16 .ro (0)
/-- ACQ.MEAS.EN [31:31] DO, R316. -/
def R.ACQ_MEAS_EN : Fld := fld (0xC07C) 31 1 .do (0)
/-- ACQ.MEAS.ENG [29:28] DO, R316. -/
def R.ACQ_MEAS_ENG : Fld := fld (0xC07C) 28 2 .do (0)
/-- ACQ.MEAS.CH [21:16] DO, R316. -/
def R.ACQ_MEAS_CH : Fld := fld (0xC07C) 16 6 .do (0)
/-- ACQ.MEAS.MWM1 [11:0] DO, R316. -/
def R.ACQ_MEAS_MWM1 : Fld := fld (0xC07C) 0 12 .do (4095)
/-- ACQ.MADR.YADDR [29:16] DO, R316. -/
def R.ACQ_MADR_YADDR : Fld := fld (0xC080) 16 14 .do (0)
/-- ACQ.MADR.XADDR [13:0] DO, R316. -/
def R.ACQ_MADR_XADDR : Fld := fld (0xC080) 0 14 .do (0)
/-- ACQ.MLVL.VAL [31:0] DO, R316. -/
def R.ACQ_MLVL_VAL : Fld := fld (0xC084) 0 32 .do (0)
/-- ACQ.MTMO.VAL [15:0] DO, R316. -/
def R.ACQ_MTMO_VAL : Fld := fld (0xC088) 0 16 .do (0)
/-- ACQ.CHSRCn.EN [31:31] DO, R316. -/
def R.ACQ_CHSRC_EN (n : Nat) : Fld := fld (0xC100 + 0x8 * n) 31 1 .do (0)
/-- ACQ.CHSRCn.SGN [30:30] DO, R316. -/
def R.ACQ_CHSRC_SGN (n : Nat) : Fld := fld (0xC100 + 0x8 * n) 30 1 .do (0)
/-- ACQ.CHSRCn.TYPE [29:27] DO, R316. -/
def R.ACQ_CHSRC_TYPE (n : Nat) : Fld := fld (0xC100 + 0x8 * n) 27 3 .do (0)
/-- ACQ.CHSRCn.SEL [15:0] DO, R316. -/
def R.ACQ_CHSRC_SEL (n : Nat) : Fld := fld (0xC100 + 0x8 * n) 0 16 .do (0)
/-- ACQ.CHMODn.CO [31:31] DO, R316. -/
def R.ACQ_CHMOD_CO (n : Nat) : Fld := fld (0xC104 + 0x8 * n) 31 1 .do (0)
/-- ACQ.CHMODn.DB [30:0] DO, R316. -/
def R.ACQ_CHMOD_DB (n : Nat) : Fld := fld (0xC104 + 0x8 * n) 0 31 .do (0)
/-- ACQ.TCFGk.EN [31:31] ST, R316. -/
def R.ACQ_TCFG_EN (k : Nat) : Fld := fld (0xC300 + 0x10 * k) 31 1 .st (0)
/-- ACQ.TCFGk.TYPE [27:24] ST, R316. -/
def R.ACQ_TCFG_TYPE (k : Nat) : Fld := fld (0xC300 + 0x10 * k) 24 4 .st (0)
/-- ACQ.TCFGk.CH [21:16] ST, R316. -/
def R.ACQ_TCFG_CH (k : Nat) : Fld := fld (0xC300 + 0x10 * k) 16 6 .st (0)
/-- ACQ.LVLk.LVL [31:0] ST, R316. -/
def R.ACQ_LVL_LVL (k : Nat) : Fld := fld (0xC304 + 0x10 * k) 0 32 .st (0)
/-- ACQ.LVL2k.LVL2 [31:0] ST, R316. -/
def R.ACQ_LVL2_LVL2 (k : Nat) : Fld := fld (0xC308 + 0x10 * k) 0 32 .st (0)
/-- ACQ.HYSk.HYS [31:0] ST, R316. -/
def R.ACQ_HYS_HYS (k : Nat) : Fld := fld (0xC30C + 0x10 * k) 0 32 .st (0)
/-- ACQ.MCFGk.EN [31:31] ST, R316. -/
def R.ACQ_MCFG_EN (k : Nat) : Fld := fld (0xC800 + 0x40 * k) 31 1 .st (0)
/-- ACQ.MCFGk.CH [21:16] ST, R316. -/
def R.ACQ_MCFG_CH (k : Nat) : Fld := fld (0xC800 + 0x40 * k) 16 6 .st (0)
/-- ACQ.MCFGk.REF [6:0] ST, R316. -/
def R.ACQ_MCFG_REF (k : Nat) : Fld := fld (0xC800 + 0x40 * k) 0 7 .st (127)
/-- ACQ.DLOk.LO [31:0] ST, R316. -/
def R.ACQ_DLO_LO (k : Nat) : Fld := fld (0xC804 + 0x40 * k) 0 32 .st (0)
/-- ACQ.DHIk.HI [31:0] ST, R316. -/
def R.ACQ_DHI_HI (k : Nat) : Fld := fld (0xC808 + 0x40 * k) 0 32 .st (4294967295)
/-- ACQ.SLENk_s.LEN [15:0] ST, R316. -/
def R.ACQ_SLEN_LEN (k s : Nat) : Fld := fld (0xC810 + 0x40 * k + 0xC * s) 0 16 .st (0)
/-- ACQ.SLOk_s.LO [31:0] ST, R316. -/
def R.ACQ_SLO_LO (k s : Nat) : Fld := fld (0xC814 + 0x40 * k + 0xC * s) 0 32 .st (0)
/-- ACQ.SHIk_s.HI [31:0] ST, R316. -/
def R.ACQ_SHI_HI (k s : Nat) : Fld := fld (0xC818 + 0x40 * k + 0xC * s) 0 32 .st (4294967295)
/-! ### PGN (page 0x0D) -/
/-- PGN.CMD.PRESET [15:0] W1A, R180. -/
def R.PGN_CMD_PRESET : Fld := fld (0xD040) 0 16 .w1a (0)
/-- PGN.FLG.PERR [0:0] W1C, R180. -/
def R.PGN_FLG_PERR : Fld := fld (0xD044) 0 1 .w1c (0)
/-- PGN.TGTc.TGT [63:0] ST, R180. -/
def R.PGN_TGT_TGT (c : Nat) : Fld := fld (0xD100 + 0x40 * c) 0 64 .st (0)
/-- PGN.VMAXc.VMAX [63:0] ST, R180. -/
def R.PGN_VMAX_VMAX (c : Nat) : Fld := fld (0xD108 + 0x40 * c) 0 64 .st (4294967296)
/-- PGN.AMAXc.AMAX [63:0] ST, R180. -/
def R.PGN_AMAX_AMAX (c : Nat) : Fld := fld (0xD110 + 0x40 * c) 0 64 .st (16777216)
/-- PGN.JMAXc.JMAX [63:0] ST, R180. -/
def R.PGN_JMAX_JMAX (c : Nat) : Fld := fld (0xD118 + 0x40 * c) 0 64 .st (0)
/-- PGN.Pc.P [63:0] RO, R180. -/
def R.PGN_P_P (c : Nat) : Fld := fld (0xD120 + 0x40 * c) 0 64 .ro (0)
/-- PGN.Vc.V [63:0] RO, R180. -/
def R.PGN_V_V (c : Nat) : Fld := fld (0xD128 + 0x40 * c) 0 64 .ro (0)
/-- PGN.Ac.A [63:0] RO, R180. -/
def R.PGN_A_A (c : Nat) : Fld := fld (0xD130 + 0x40 * c) 0 64 .ro (0)
/-- PGN.PCFGc.EN [31:31] ST, R180. -/
def R.PGN_PCFG_EN (c : Nat) : Fld := fld (0xD138 + 0x40 * c) 31 1 .st (0)
/-- PGN.PCFGc.PHASE [7:4] ST, R180. -/
def R.PGN_PCFG_PHASE (c : Nat) : Fld := fld (0xD138 + 0x40 * c) 4 4 .st (0)
/-- PGN.PCFGc.DM1 [3:0] ST, R180. -/
def R.PGN_PCFG_DM1 (c : Nat) : Fld := fld (0xD138 + 0x40 * c) 0 4 .st (0)
/-- PGN.PSTAc.OVS [4:4] W1C, R180. -/
def R.PGN_PSTA_OVS (c : Nat) : Fld := fld (0xD13C + 0x40 * c) 4 1 .w1c (0)
/-- PGN.PSTAc.VOL [3:3] RO, R180. -/
def R.PGN_PSTA_VOL (c : Nat) : Fld := fld (0xD13C + 0x40 * c) 3 1 .ro (0)
/-- PGN.PSTAc.AOL [2:2] RO, R180. -/
def R.PGN_PSTA_AOL (c : Nat) : Fld := fld (0xD13C + 0x40 * c) 2 1 .ro (0)
/-- PGN.PSTAc.MOVING [1:1] RO, R180. -/
def R.PGN_PSTA_MOVING (c : Nat) : Fld := fld (0xD13C + 0x40 * c) 1 1 .ro (0)
/-- PGN.PSTAc.AT [0:0] RO, R180. -/
def R.PGN_PSTA_AT (c : Nat) : Fld := fld (0xD13C + 0x40 * c) 0 1 .ro (0)
/-! ### CLE (page 0x0E) -/
/-- CLE.FLG.XFERR [2:2] W1C, R179. -/
def R.CLE_FLG_XFERR : Fld := fld (0xE040) 2 1 .w1c (0)
/-- CLE.FLG.PTRERR [1:1] W1C, R179. -/
def R.CLE_FLG_PTRERR : Fld := fld (0xE040) 1 1 .w1c (0)
/-- CLE.FLG.PERR [0:0] W1C, R179. -/
def R.CLE_FLG_PERR : Fld := fld (0xE040) 0 1 .w1c (0)
/-- CLE.SKIPC.SKIP [31:16] RO, R179. -/
def R.CLE_SKIPC_SKIP : Fld := fld (0xE044) 16 16 .ro (0)
/-- CLE.SKIPC.MIXC [15:0] RO, R179. -/
def R.CLE_SKIPC_MIXC : Fld := fld (0xE044) 0 16 .ro (0)
/-- CLE.CMD.CCLR [8:8] W1A, R179. -/
def R.CLE_CMD_CCLR : Fld := fld (0xE048) 8 1 .w1a (0)
/-- CLE.CMD.RUN [5:5] W1A, R179. -/
def R.CLE_CMD_RUN : Fld := fld (0xE048) 5 1 .w1a (0)
/-- CLE.CMD.CHAN [4:0] RW, R179. -/
def R.CLE_CMD_CHAN : Fld := fld (0xE048) 0 5 .rw (0)
/-- CLE.COASTF.COAST [31:0] W1C, R179. -/
def R.CLE_COASTF_COAST : Fld := fld (0xE04C) 0 32 .w1c (0)
/-- CLE.IDIMi.NY [28:24] ST, R179. -/
def R.CLE_IDIM_NY (i : Nat) : Fld := fld (0xE200 + 0x10 * i) 24 5 .st (1)
/-- CLE.IDIMi.NR [19:16] ST, R179. -/
def R.CLE_IDIM_NR (i : Nat) : Fld := fld (0xE200 + 0x10 * i) 16 4 .st (1)
/-- CLE.IDIMi.NU [11:8] ST, R179. -/
def R.CLE_IDIM_NU (i : Nat) : Fld := fld (0xE200 + 0x10 * i) 8 4 .st (1)
/-- CLE.IDIMi.NX [4:0] ST, R179. -/
def R.CLE_IDIM_NX (i : Nat) : Fld := fld (0xE200 + 0x10 * i) 0 5 .st (1)
/-- CLE.ICFGi.COASTACT [24:24] ST, R179. -/
def R.CLE_ICFG_COASTACT (i : Nat) : Fld := fld (0xE204 + 0x10 * i) 24 1 .st (0)
/-- CLE.ICFGi.SHX [20:16] ST, R179. -/
def R.CLE_ICFG_SHX (i : Nat) : Fld := fld (0xE204 + 0x10 * i) 16 5 .st (0)
/-- CLE.ICFGi.SHU [12:8] ST, R179. -/
def R.CLE_ICFG_SHU (i : Nat) : Fld := fld (0xE204 + 0x10 * i) 8 5 .st (0)
/-- CLE.ICFGi.SHE [4:0] ST, R179. -/
def R.CLE_ICFG_SHE (i : Nat) : Fld := fld (0xE204 + 0x10 * i) 0 5 .st (0)
/-- CLE.IFRi.FRZWIN [31:16] ST, R179. -/
def R.CLE_IFR_FRZWIN (i : Nat) : Fld := fld (0xE208 + 0x10 * i) 16 16 .st (0)
/-- CLE.IFRi.FRZN [15:8] ST, R179. -/
def R.CLE_IFR_FRZN (i : Nat) : Fld := fld (0xE208 + 0x10 * i) 8 8 .st (0)
/-- CLE.IFRi.COASTLIM [7:0] ST, R179. -/
def R.CLE_IFR_COASTLIM (i : Nat) : Fld := fld (0xE208 + 0x10 * i) 0 8 .st (8)
/-- CLE.ISTi.WCNT [31:16] RO, R179. -/
def R.CLE_IST_WCNT (i : Nat) : Fld := fld (0xE20C + 0x10 * i) 16 16 .ro (0)
/-- CLE.ISTi.COAST [15:8] RO, R179. -/
def R.CLE_IST_COAST (i : Nat) : Fld := fld (0xE20C + 0x10 * i) 8 8 .ro (0)
/-- CLE.ISTi.LOST [3:3] RO, R179. -/
def R.CLE_IST_LOST (i : Nat) : Fld := fld (0xE20C + 0x10 * i) 3 1 .ro (0)
/-- CLE.ISTi.FROZ [2:2] RO, R179. -/
def R.CLE_IST_FROZ (i : Nat) : Fld := fld (0xE20C + 0x10 * i) 2 1 .ro (0)
/-- CLE.ISTi.MIXL [1:1] RO, R179. -/
def R.CLE_IST_MIXL (i : Nat) : Fld := fld (0xE20C + 0x10 * i) 1 1 .ro (0)
/-- CLE.ISTi.USAT [0:0] RO, R179. -/
def R.CLE_IST_USAT (i : Nat) : Fld := fld (0xE20C + 0x10 * i) 0 1 .ro (0)
/-- CLE.CCFGn.EN [31:31] ST, R179. -/
def R.CLE_CCFG_EN (n : Nat) : Fld := fld (0xE400 + 0x10 * n) 31 1 .st (0)
/-- CLE.CCFGn.XFER [30:30] ST, R179. -/
def R.CLE_CCFG_XFER (n : Nat) : Fld := fld (0xE400 + 0x10 * n) 30 1 .st (0)
/-- CLE.CCFGn.TRG [29:28] ST, R179. -/
def R.CLE_CCFG_TRG (n : Nat) : Fld := fld (0xE400 + 0x10 * n) 28 2 .st (0)
/-- CLE.CCFGn.DM1 [27:24] ST, R179. -/
def R.CLE_CCFG_DM1 (n : Nat) : Fld := fld (0xE400 + 0x10 * n) 24 4 .st (0)
/-- CLE.CCFGn.PHASE [23:20] ST, R179. -/
def R.CLE_CCFG_PHASE (n : Nat) : Fld := fld (0xE400 + 0x10 * n) 20 4 .st (0)
/-- CLE.CCFGn.ARM [19:19] ST, R179. -/
def R.CLE_CCFG_ARM (n : Nat) : Fld := fld (0xE400 + 0x10 * n) 19 1 .st (0)
/-- CLE.CCFGn.SRCCH [18:14] ST, R179. -/
def R.CLE_CCFG_SRCCH (n : Nat) : Fld := fld (0xE400 + 0x10 * n) 14 5 .st (0)
/-- CLE.CCFGn.OFS [13:0] ST, R179. -/
def R.CLE_CCFG_OFS (n : Nat) : Fld := fld (0xE400 + 0x10 * n) 0 14 .st (0)
/-- CLE.CINSTn.INST [4:0] ST, R179. -/
def R.CLE_CINST_INST (n : Nat) : Fld := fld (0xE404 + 0x10 * n) 0 5 .st (n)
/-- CLE.CSTn.OSEQ [31:16] RO, R179. -/
def R.CLE_CST_OSEQ (n : Nat) : Fld := fld (0xE408 + 0x10 * n) 16 16 .ro (0)
/-- CLE.CSTn.TSTART [13:0] RO, R179. -/
def R.CLE_CST_TSTART (n : Nat) : Fld := fld (0xE408 + 0x10 * n) 0 14 .ro (0)
/-- CLE.CFLGn.LATE [3:3] W1C, R179. -/
def R.CLE_CFLG_LATE (n : Nat) : Fld := fld (0xE40C + 0x10 * n) 3 1 .w1c (0)
/-- CLE.CFLGn.BUSY [2:2] W1C, R179. -/
def R.CLE_CFLG_BUSY (n : Nat) : Fld := fld (0xE40C + 0x10 * n) 2 1 .w1c (0)
/-- CLE.CFLGn.MIX [1:1] W1C, R179. -/
def R.CLE_CFLG_MIX (n : Nat) : Fld := fld (0xE40C + 0x10 * n) 1 1 .w1c (0)
/-- CLE.CFLGn.SAT [0:0] W1C, R179. -/
def R.CLE_CFLG_SAT (n : Nat) : Fld := fld (0xE40C + 0x10 * n) 0 1 .w1c (0)
/-- CLE.OUT.U [31:0] RO, R179. -/
def R.CLE_OUT_U (k : Nat) : Fld := fld (0xE800 + 0x4 * k) 0 32 .ro (0)
/-- CLE.MEASj.SEQ [39:32] RW, R179. -/
def R.CLE_MEAS_SEQ (j : Nat) : Fld := fld (0xEC00 + 0x8 * j) 32 8 .rw (0)
/-- CLE.MEASj.VAL [31:0] RW, R179. -/
def R.CLE_MEAS_VAL (j : Nat) : Fld := fld (0xEC00 + 0x8 * j) 0 32 .rw (0)
/-! ### RSE (page 0x0F) -/
/-- RSE.TADDR.INDEX [9:0] RW, R150. -/
def R.RSE_TADDR_INDEX : Fld := fld (0xF040) 0 10 .rw (0)
/-- RSE.TDATA.LOSTCNT [31:16] RO, R150. -/
def R.RSE_TDATA_LOSTCNT : Fld := fld (0xF044) 16 16 .ro (0)
/-- RSE.TDATA.LEFT [9:9] RO, R150. -/
def R.RSE_TDATA_LEFT : Fld := fld (0xF044) 9 1 .ro (0)
/-- RSE.TDATA.UNREACH [7:7] RO, R150. -/
def R.RSE_TDATA_UNREACH : Fld := fld (0xF044) 7 1 .ro (0)
/-- RSE.TDATA.HELD [6:6] RO, R150. -/
def R.RSE_TDATA_HELD : Fld := fld (0xF044) 6 1 .ro (0)
/-- RSE.TDATA.CAND [5:5] RO, R150. -/
def R.RSE_TDATA_CAND : Fld := fld (0xF044) 5 1 .ro (0)
/-- RSE.TDATA.TRIMP [4:4] RO, R150. -/
def R.RSE_TDATA_TRIMP : Fld := fld (0xF044) 4 1 .ro (0)
/-- RSE.TDATA.EST [3:2] RO, R150. -/
def R.RSE_TDATA_EST : Fld := fld (0xF044) 2 2 .ro (0)
/-- RSE.TDATA.FB [1:1] DO, R150. -/
def R.RSE_TDATA_FB : Fld := fld (0xF044) 1 1 .do (0)
/-- RSE.TDATA.PRES [0:0] DO, R150. -/
def R.RSE_TDATA_PRES : Fld := fld (0xF044) 0 1 .do (0)
/-- RSE.CMD.RHOCLR1 [2:2] W1A, R150. -/
def R.RSE_CMD_RHOCLR1 : Fld := fld (0xF048) 2 1 .w1a (0)
/-- RSE.CMD.RHOCLR0 [1:1] W1A, R150. -/
def R.RSE_CMD_RHOCLR0 : Fld := fld (0xF048) 1 1 .w1a (0)
/-- RSE.CMD.TCLR [0:0] W1A, R150. -/
def R.RSE_CMD_TCLR : Fld := fld (0xF048) 0 1 .w1a (0)
/-- RSE.CFGi.RHOMAX [31:24] ST, R150. -/
def R.RSE_CFG_RHOMAX (i : Nat) : Fld := fld (0xF100 + 0x80 * i) 24 8 .st (4)
/-- RSE.CFGi.IARMSEL [23:16] ST, R150. -/
def R.RSE_CFG_IARMSEL (i : Nat) : Fld := fld (0xF100 + 0x80 * i) 16 8 .st (0)
/-- RSE.CFGi.VREFSEL [15:8] ST, R150. -/
def R.RSE_CFG_VREFSEL (i : Nat) : Fld := fld (0xF100 + 0x80 * i) 8 8 .st (0)
/-- RSE.CFGi.ECOMP [2:2] ST, R150. -/
def R.RSE_CFG_ECOMP (i : Nat) : Fld := fld (0xF100 + 0x80 * i) 2 1 .st (1)
/-- RSE.CFGi.TRIMEN [1:1] ST, R150. -/
def R.RSE_CFG_TRIMEN (i : Nat) : Fld := fld (0xF100 + 0x80 * i) 1 1 .st (1)
/-- RSE.CFGi.EN [0:0] ST, R150. -/
def R.RSE_CFG_EN (i : Nat) : Fld := fld (0xF100 + 0x80 * i) 0 1 .st (0)
/-- RSE.TRIMi.IDB [31:16] ST, R150. -/
def R.RSE_TRIM_IDB (i : Nat) : Fld := fld (0xF104 + 0x80 * i) 16 16 .st (20)
/-- RSE.TRIMi.PMIN [15:0] ST, R150. -/
def R.RSE_TRIM_PMIN (i : Nat) : Fld := fld (0xF104 + 0x80 * i) 0 16 .st (200)
/-- RSE.LOSTi.LOSTLIM [15:0] ST, R150. -/
def R.RSE_LOST_LOSTLIM (i : Nat) : Fld := fld (0xF108 + 0x80 * i) 0 16 .st (1000)
/-- RSE.RHOi.RHO [31:0] RO, R150. -/
def R.RSE_RHO_RHO (i : Nat) : Fld := fld (0xF10C + 0x80 * i) 0 32 .ro (0)
/-- RSE.THRi.KSEL [31:31] RO, R150. -/
def R.RSE_THR_KSEL (i : Nat) : Fld := fld (0xF110 + 0x80 * i) 31 1 .ro (0)
/-- RSE.THRi.TRV [30:30] RO, R150. -/
def R.RSE_THR_TRV (i : Nat) : Fld := fld (0xF110 + 0x80 * i) 30 1 .ro (0)
/-- RSE.THRi.THR [23:0] RO, R150. -/
def R.RSE_THR_THR (i : Nat) : Fld := fld (0xF110 + 0x80 * i) 0 24 .ro (0)
/-- RSE.IDSi.TRIM [29:16] RO, R150. -/
def R.RSE_IDS_TRIM (i : Nat) : Fld := fld (0xF114 + 0x80 * i) 16 14 .ro (0)
/-- RSE.IDSi.TIE [13:0] RO, R150. -/
def R.RSE_IDS_TIE (i : Nat) : Fld := fld (0xF114 + 0x80 * i) 0 14 .ro (0)
/-- RSE.TOFFi.TOFF [19:0] RO, R150. -/
def R.RSE_TOFF_TOFF (i : Nat) : Fld := fld (0xF118 + 0x80 * i) 0 20 .ro (0)
/-- RSE.LEVi.NINS [31:16] RO, R150. -/
def R.RSE_LEV_NINS (i : Nat) : Fld := fld (0xF11C + 0x80 * i) 16 16 .ro (0)
/-- RSE.LEVi.LEVEL [15:0] RO, R150. -/
def R.RSE_LEV_LEVEL (i : Nat) : Fld := fld (0xF11C + 0x80 * i) 0 16 .ro (0)
/-- RSE.CNTi.NHELD [26:16] RO, R150. -/
def R.RSE_CNT_NHELD (i : Nat) : Fld := fld (0xF120 + 0x80 * i) 16 11 .ro (0)
/-- RSE.CNTi.NCAND [10:0] RO, R150. -/
def R.RSE_CNT_NCAND (i : Nat) : Fld := fld (0xF120 + 0x80 * i) 0 11 .ro (0)
/-- RSE.ERRi.NMISS [31:16] RO, R150. -/
def R.RSE_ERR_NMISS (i : Nat) : Fld := fld (0xF124 + 0x80 * i) 16 16 .ro (0)
/-- RSE.ERRi.EPS [15:0] RO, R150. -/
def R.RSE_ERR_EPS (i : Nat) : Fld := fld (0xF124 + 0x80 * i) 0 16 .ro (0)
/-- RSE.NUMi.NPRIME [31:0] RO, R150. -/
def R.RSE_NUM_NPRIME (i : Nat) : Fld := fld (0xF128 + 0x80 * i) 0 32 .ro (0)
/-- RSE.RHOLDi.RINGS [15:0] RO, R150. -/
def R.RSE_RHOLD_RINGS (i : Nat) : Fld := fld (0xF12C + 0x80 * i) 0 16 .ro (0)
/-- RSE.STCNTi.SATC [31:16] RO, R150. -/
def R.RSE_STCNT_SATC (i : Nat) : Fld := fld (0xF130 + 0x80 * i) 16 16 .ro (0)
/-- RSE.STCNTi.RHC [15:0] RO, R150. -/
def R.RSE_STCNT_RHC (i : Nat) : Fld := fld (0xF130 + 0x80 * i) 0 16 .ro (0)
/-- RSE.FLGi.LEAVE [3:3] W1C, R150. -/
def R.RSE_FLG_LEAVE (i : Nat) : Fld := fld (0xF134 + 0x80 * i) 3 1 .w1c (0)
/-- RSE.FLGi.EPS [2:2] W1C, R150. -/
def R.RSE_FLG_EPS (i : Nat) : Fld := fld (0xF134 + 0x80 * i) 2 1 .w1c (0)
/-- RSE.FLGi.RHOLD [1:1] W1C, R150. -/
def R.RSE_FLG_RHOLD (i : Nat) : Fld := fld (0xF134 + 0x80 * i) 1 1 .w1c (0)
/-- RSE.FLGi.SAT [0:0] W1C, R150. -/
def R.RSE_FLG_SAT (i : Nat) : Fld := fld (0xF134 + 0x80 * i) 0 1 .w1c (0)
/-! ### SE (page 0x10) -/
/-- SE.ENTk.EN [31:31] ST, R209. -/
def R.SE_ENT_EN (q k : Nat) : Fld := fld (0x10040 + 0x1000 * q + 0x4 * k) 31 1 .st (0)
/-- SE.ENTk.LVL [30:30] ST, R209. -/
def R.SE_ENT_LVL (q k : Nat) : Fld := fld (0x10040 + 0x1000 * q + 0x4 * k) 30 1 .st (0)
/-- SE.ENTk.TRG [29:28] ST, R209. -/
def R.SE_ENT_TRG (q k : Nat) : Fld := fld (0x10040 + 0x1000 * q + 0x4 * k) 28 2 .st (0)
/-- SE.ENTk.OFS [27:14] ST, R209. -/
def R.SE_ENT_OFS (q k : Nat) : Fld := fld (0x10040 + 0x1000 * q + 0x4 * k) 14 14 .st (0)
/-- SE.ENTk.DONEEV [13:13] ST, R209. -/
def R.SE_ENT_DONEEV (q k : Nat) : Fld := fld (0x10040 + 0x1000 * q + 0x4 * k) 13 1 .st (0)
/-- SE.ENTk.ADDR [12:0] ST, R209. -/
def R.SE_ENT_ADDR (q k : Nat) : Fld := fld (0x10040 + 0x1000 * q + 0x4 * k) 0 13 .st (0)
/-- SE.CMD.STOP [8:8] W1A, R209. -/
def R.SE_CMD_STOP (q : Nat) : Fld := fld (0x10050 + 0x1000 * q) 8 1 .w1a (0)
/-- SE.CMD.START [3:0] W1A, R209. -/
def R.SE_CMD_START (q : Nat) : Fld := fld (0x10050 + 0x1000 * q) 0 4 .w1a (0)
/-- SE.RSTA.PC [28:16] RO, R209. -/
def R.SE_RSTA_PC (q : Nat) : Fld := fld (0x10054 + 0x1000 * q) 16 13 .ro (0)
/-- SE.RSTA.PEND [15:12] RO, R209. -/
def R.SE_RSTA_PEND (q : Nat) : Fld := fld (0x10054 + 0x1000 * q) 12 4 .ro (0)
/-- SE.RSTA.LVL1ACT [11:11] RO, R209. -/
def R.SE_RSTA_LVL1ACT (q : Nat) : Fld := fld (0x10054 + 0x1000 * q) 11 1 .ro (0)
/-- SE.RSTA.LVL0ACT [10:10] RO, R209. -/
def R.SE_RSTA_LVL0ACT (q : Nat) : Fld := fld (0x10054 + 0x1000 * q) 10 1 .ro (0)
/-- SE.RSTA.RPT [9:9] RO, R209. -/
def R.SE_RSTA_RPT (q : Nat) : Fld := fld (0x10054 + 0x1000 * q) 9 1 .ro (0)
/-- SE.RSTA.IOW [8:8] RO, R209. -/
def R.SE_RSTA_IOW (q : Nat) : Fld := fld (0x10054 + 0x1000 * q) 8 1 .ro (0)
/-- SE.TRAP.LVL [20:20] RO, R209. -/
def R.SE_TRAP_LVL (q : Nat) : Fld := fld (0x10058 + 0x1000 * q) 20 1 .ro (0)
/-- SE.TRAP.CAUSE [19:16] RO, R209. -/
def R.SE_TRAP_CAUSE (q : Nat) : Fld := fld (0x10058 + 0x1000 * q) 16 4 .ro (0)
/-- SE.TRAP.PC [12:0] RO, R209. -/
def R.SE_TRAP_PC (q : Nat) : Fld := fld (0x10058 + 0x1000 * q) 0 13 .ro (0)
/-- SE.CYC.CYC [31:0] RO, R209. -/
def R.SE_CYC_CYC (q : Nat) : Fld := fld (0x1005C + 0x1000 * q) 0 32 .ro (0)
/-- SE.MAXC.MAXC [31:0] RO, R209. -/
def R.SE_MAXC_MAXC (q : Nat) : Fld := fld (0x10060 + 0x1000 * q) 0 32 .ro (0)
/-- SE.SKIPC.EVE [31:16] RO, R209. -/
def R.SE_SKIPC_EVE (q : Nat) : Fld := fld (0x10064 + 0x1000 * q) 16 16 .ro (0)
/-- SE.SKIPC.BUSY [15:0] RO, R209. -/
def R.SE_SKIPC_BUSY (q : Nat) : Fld := fld (0x10064 + 0x1000 * q) 0 16 .ro (0)
/-- SE.IOB.WIN [1:0] RW, R209. -/
def R.SE_IOB_WIN (q : Nat) : Fld := fld (0x10068 + 0x1000 * q) 0 2 .rw (0)
/-- SE.ECC.CEC [31:16] RO, R209. -/
def R.SE_ECC_CEC (q : Nat) : Fld := fld (0x1006C + 0x1000 * q) 16 16 .ro (0)
/-- SE.ECC.MEM [15:14] RO, R209. -/
def R.SE_ECC_MEM (q : Nat) : Fld := fld (0x1006C + 0x1000 * q) 14 2 .ro (0)
/-- SE.ECC.ADDR [13:0] RO, R209. -/
def R.SE_ECC_ADDR (q : Nat) : Fld := fld (0x1006C + 0x1000 * q) 0 14 .ro (0)
/-- SE.CLR.CCLR [0:0] W1A, R209. -/
def R.SE_CLR_CCLR (q : Nat) : Fld := fld (0x10070 + 0x1000 * q) 0 1 .w1a (0)
/-! ### PWM (page 0x14) -/
/-- PWM.KNOM.VNOM [15:0] ST, R151. -/
def R.PWM_KNOM_VNOM : Fld := fld (0x14200) 0 16 .st (22000)
/-- PWM.KWGT.AGE [31:16] ST, R151. -/
def R.PWM_KWGT_AGE : Fld := fld (0x14204) 16 16 .st (0)
/-- PWM.KWGT.STICK [15:0] ST, R151. -/
def R.PWM_KWGT_STICK : Fld := fld (0x14204) 0 16 .st (0)
/-- PWM.KCH.KEY [23:0] RO, R151. -/
def R.PWM_KCH_KEY : Fld := fld (0x14208) 0 24 .ro (0)
/-- PWM.KDIS.KEY [23:0] RO, R151. -/
def R.PWM_KDIS_KEY : Fld := fld (0x1420C) 0 24 .ro (0)
/-- PWM.IDEC.NEXT [7:6] RO, R151. -/
def R.PWM_IDEC_NEXT : Fld := fld (0x14210) 6 2 .ro (0)
/-- PWM.IDEC.TRIMP [5:5] RO, R151. -/
def R.PWM_IDEC_TRIMP : Fld := fld (0x14210) 5 1 .ro (0)
/-- PWM.IDEC.ROW [3:0] RO, R151. -/
def R.PWM_IDEC_ROW : Fld := fld (0x14210) 0 4 .ro (0)
/-- PWM.ITOFF.TOFF [19:0] RO, R151. -/
def R.PWM_ITOFF_TOFF : Fld := fld (0x14214) 0 20 .ro (0)
/-- PWM.IRES.RESID [15:0] RO, R151. -/
def R.PWM_IRES_RESID : Fld := fld (0x14218) 0 16 .ro (0)
/-- PWM.ICMD.REJOIN [1:1] W1A, R151. -/
def R.PWM_ICMD_REJOIN : Fld := fld (0x1421C) 1 1 .w1a (0)
/-- PWM.ICMD.LEAVE [0:0] W1A, R151. -/
def R.PWM_ICMD_LEAVE : Fld := fld (0x1421C) 0 1 .w1a (0)
/-- PWM.SCFG.BYPGF [3:3] ST, R266. -/
def R.PWM_SCFG_BYPGF : Fld := fld (0x14040) 3 1 .st (1)
/-- PWM.SCFG.DTC [2:2] ST, R266. -/
def R.PWM_SCFG_DTC : Fld := fld (0x14040) 2 1 .st (0)
/-- PWM.SCFG.FB [1:1] DO, R266. -/
def R.PWM_SCFG_FB : Fld := fld (0x14040) 1 1 .do (0)
/-- PWM.SCFG.MODE [0:0] DO, R266. -/
def R.PWM_SCFG_MODE : Fld := fld (0x14040) 0 1 .do (1)
/-- PWM.DT.MINP [29:16] ST, R266. -/
def R.PWM_DT_MINP : Fld := fld (0x14044) 16 14 .st (150)
/-- PWM.DT.DT [13:0] ST, R266. -/
def R.PWM_DT_DT : Fld := fld (0x14044) 0 14 .st (50)
/-- PWM.SWD.IDB [31:24] ST, R266. -/
def R.PWM_SWD_IDB : Fld := fld (0x14048) 24 8 .st (20)
/-- PWM.SWD.TDON [23:12] ST, R266. -/
def R.PWM_SWD_TDON : Fld := fld (0x14048) 12 12 .st (0)
/-- PWM.SWD.TDOFF [11:0] ST, R266. -/
def R.PWM_SWD_TDOFF : Fld := fld (0x14048) 0 12 .st (0)
/-- PWM.GSTA.APPL [15:14] RO, R266. -/
def R.PWM_GSTA_APPL : Fld := fld (0x1404C) 14 2 .ro (3)
/-- PWM.GSTA.PERR [13:13] W1C, R266. -/
def R.PWM_GSTA_PERR : Fld := fld (0x1404C) 13 1 .w1c (0)
/-- PWM.GSTA.CLRREF [12:12] W1C, R266. -/
def R.PWM_GSTA_CLRREF : Fld := fld (0x1404C) 12 1 .w1c (0)
/-- PWM.GSTA.FLTIN [11:8] RO, R266. -/
def R.PWM_GSTA_FLTIN : Fld := fld (0x1404C) 8 4 .ro (0)
/-- PWM.GSTA.DTACT [6:6] RO, R266. -/
def R.PWM_GSTA_DTACT : Fld := fld (0x1404C) 6 1 .ro (0)
/-- PWM.GSTA.FRZ [5:5] RO, R266. -/
def R.PWM_GSTA_FRZ : Fld := fld (0x1404C) 5 1 .ro (0)
/-- PWM.GSTA.HIZ [4:4] RO, R266. -/
def R.PWM_GSTA_HIZ : Fld := fld (0x1404C) 4 1 .ro (1)
/-- PWM.GSTA.GOUT [3:0] RO, R266. -/
def R.PWM_GSTA_GOUT : Fld := fld (0x1404C) 0 4 .ro (0)
/-- PWM.FCFG.FILT [11:8] DO, R266. -/
def R.PWM_FCFG_FILT : Fld := fld (0x14050) 8 4 .do (0)
/-- PWM.FCFG.POL [7:4] DO, R266. -/
def R.PWM_FCFG_POL : Fld := fld (0x14050) 4 4 .do (0)
/-- PWM.FCFG.EN [3:0] DO, R266. -/
def R.PWM_FCFG_EN : Fld := fld (0x14050) 0 4 .do (15)
/-- PWM.BYP.AUXPOL [29:29] DO, R266. -/
def R.PWM_BYP_AUXPOL : Fld := fld (0x14054) 29 1 .do (0)
/-- PWM.BYP.ICH [28:24] DO, R266. -/
def R.PWM_BYP_ICH : Fld := fld (0x14054) 24 5 .do (16)
/-- PWM.BYP.OCH [20:16] DO, R266. -/
def R.PWM_BYP_OCH : Fld := fld (0x14054) 16 5 .do (16)
/-- PWM.BYP.SRC [12:8] RO, R266. -/
def R.PWM_BYP_SRC : Fld := fld (0x14054) 8 5 .ro (0)
/-- PWM.BYP.CLRREF [4:4] W1C, R266. -/
def R.PWM_BYP_CLRREF : Fld := fld (0x14054) 4 1 .w1c (0)
/-- PWM.BYP.CLR [3:3] W1A, R266. -/
def R.PWM_BYP_CLR : Fld := fld (0x14054) 3 1 .w1a (0)
/-- PWM.BYP.SET [2:2] W1A, R266. -/
def R.PWM_BYP_SET : Fld := fld (0x14054) 2 1 .w1a (0)
/-- PWM.BYP.AUX [1:1] RO, R266. -/
def R.PWM_BYP_AUX : Fld := fld (0x14054) 1 1 .ro (0)
/-- PWM.BYP.REQ [0:0] RO, R266. -/
def R.PWM_BYP_REQ : Fld := fld (0x14054) 0 1 .ro (0)
/-- PWM.SCNT.SUPP [31:16] RO, R266. -/
def R.PWM_SCNT_SUPP : Fld := fld (0x14058) 16 16 .ro (0)
/-- PWM.SCNT.MPV [15:0] RO, R266. -/
def R.PWM_SCNT_MPV : Fld := fld (0x14058) 0 16 .ro (0)
/-- PWM.CCFG.COMPB [7:7] ST, R266. -/
def R.PWM_CCFG_COMPB : Fld := fld (0x14060) 7 1 .st (0)
/-- PWM.CCFG.COMPA [6:6] ST, R266. -/
def R.PWM_CCFG_COMPA : Fld := fld (0x14060) 6 1 .st (0)
/-- PWM.CCFG.CENTER [5:5] ST, R266. -/
def R.PWM_CCFG_CENTER : Fld := fld (0x14060) 5 1 .st (0)
/-- PWM.CCFG.SYNC [4:4] ST, R266. -/
def R.PWM_CCFG_SYNC : Fld := fld (0x14060) 4 1 .st (0)
/-- PWM.CCFG.OEN [3:0] ST, R266. -/
def R.PWM_CCFG_OEN : Fld := fld (0x14060) 0 4 .st (0)
/-- PWM.CPER.CPER [31:0] ST, R266. -/
def R.PWM_CPER_CPER : Fld := fld (0x14064) 0 32 .st (40000)
/-- PWM.CCMPn.CMP [31:0] ST, R266. -/
def R.PWM_CCMP_CMP (n : Nat) : Fld := fld (0x14068 + 0x4 * n) 0 32 .st (0)
/-- PWM.CCNT.CNT [31:0] RO, R266. -/
def R.PWM_CCNT_CNT : Fld := fld (0x14078) 0 32 .ro (0)
/-- PWM.CMD.CCLR [0:0] W1A, R266. -/
def R.PWM_CMD_CCLR : Fld := fld (0x1407C) 0 1 .w1a (0)
/-! ### ADC (page 0x15) -/
/-- ADC.CFG.OTINT [31:16] ST, R267. -/
def R.ADC_CFG_OTINT : Fld := fld (0x15040) 16 16 .st (1000)
/-- ADC.CFG.STRIN1 [14:12] ST, R267. -/
def R.ADC_CFG_STRIN1 : Fld := fld (0x15040) 12 3 .st (0)
/-- ADC.CFG.STRIN0 [10:8] ST, R267. -/
def R.ADC_CFG_STRIN0 : Fld := fld (0x15040) 8 3 .st (0)
/-- ADC.CFG.OTRK [2:2] ST, R267. -/
def R.ADC_CFG_OTRK : Fld := fld (0x15040) 2 1 .st (0)
/-- ADC.CFG.LP [1:1] ST, R267. -/
def R.ADC_CFG_LP : Fld := fld (0x15040) 1 1 .st (0)
/-- ADC.CFG.STREN [0:0] ST, R267. -/
def R.ADC_CFG_STREN : Fld := fld (0x15040) 0 1 .st (0)
/-- ADC.CMD.CCLR [1:1] W1A, R267. -/
def R.ADC_CMD_CCLR : Fld := fld (0x15044) 1 1 .w1a (0)
/-- ADC.CMD.CAL [0:0] W1A, R267. -/
def R.ADC_CMD_CAL : Fld := fld (0x15044) 0 1 .w1a (0)
/-- ADC.CSTA.PERR [3:3] W1C, R267. -/
def R.ADC_CSTA_PERR : Fld := fld (0x15048) 3 1 .w1c (0)
/-- ADC.CSTA.CALREF [2:2] W1C, R267. -/
def R.ADC_CSTA_CALREF : Fld := fld (0x15048) 2 1 .w1c (0)
/-- ADC.CSTA.CALOK [1:1] RO, R267. -/
def R.ADC_CSTA_CALOK : Fld := fld (0x15048) 1 1 .ro (0)
/-- ADC.CSTA.CALBUSY [0:0] RO, R267. -/
def R.ADC_CSTA_CALBUSY : Fld := fld (0x15048) 0 1 .ro (0)
/-- ADC.CALG.G1 [31:16] DO, R267. -/
def R.ADC_CALG_G1 : Fld := fld (0x1504C) 16 16 .do (32768)
/-- ADC.CALG.G0 [15:0] DO, R267. -/
def R.ADC_CALG_G0 : Fld := fld (0x1504C) 0 16 .do (32768)
/-- ADC.CALO.O1 [31:16] DO, R267. -/
def R.ADC_CALO_O1 : Fld := fld (0x15050) 16 16 .do (0)
/-- ADC.CALO.O0 [15:0] DO, R267. -/
def R.ADC_CALO_O0 : Fld := fld (0x15050) 0 16 .do (0)
/-- ADC.VSCL.SCALE [16:0] ST, R267. -/
def R.ADC_VSCL_SCALE : Fld := fld (0x15054) 0 17 .st (32768)
/-- ADC.OW.OWi [31:0] RW, R267. -/
def R.ADC_OW_OWi : Fld := fld (0x15058) 0 32 .rw (0)
/-- ADC.SLOTA.TSW [31:16] RW, R267. -/
def R.ADC_SLOTA_TSW : Fld := fld (0x1505C) 16 16 .rw (0)
/-- ADC.SLOTA.VAUX [15:0] RW, R267. -/
def R.ADC_SLOTA_VAUX : Fld := fld (0x1505C) 0 16 .rw (0)
/-- ADC.SLOTB.TCAP [15:0] RW, R267. -/
def R.ADC_SLOTB_TCAP : Fld := fld (0x15060) 0 16 .rw (0)
/-- ADC.SCNT.OTW [31:16] RO, R267. -/
def R.ADC_SCNT_OTW : Fld := fld (0x15064) 16 16 .ro (0)
/-- ADC.SCNT.SKIP [15:0] RO, R267. -/
def R.ADC_SCNT_SKIP : Fld := fld (0x15064) 0 16 .ro (0)
/-- ADC.STRK.VALID1 [49:49] RO, R267. -/
def R.ADC_STRK_VALID1 : Fld := fld (0x15068) 49 1 .ro (0)
/-- ADC.STRK.VALID0 [48:48] RO, R267. -/
def R.ADC_STRK_VALID0 : Fld := fld (0x15068) 48 1 .ro (0)
/-- ADC.STRK.TICK [47:32] RO, R267. -/
def R.ADC_STRK_TICK : Fld := fld (0x15068) 32 16 .ro (0)
/-- ADC.STRK.CODE1 [31:16] RO, R267. -/
def R.ADC_STRK_CODE1 : Fld := fld (0x15068) 16 16 .ro (0)
/-- ADC.STRK.CODE0 [15:0] RO, R267. -/
def R.ADC_STRK_CODE0 : Fld := fld (0x15068) 0 16 .ro (0)
/-- ADC.LIMk.HI [31:16] ST, R267. -/
def R.ADC_LIM_HI (k : Nat) : Fld := fld (0x15080 + 0x8 * k) 16 16 .st (65535)
/-- ADC.LIMk.LO [15:0] ST, R267. -/
def R.ADC_LIM_LO (k : Nat) : Fld := fld (0x15080 + 0x8 * k) 0 16 .st (0)
/-- ADC.LIMCFGk.PERS [19:16] ST, R267. -/
def R.ADC_LIMCFG_PERS (k : Nat) : Fld := fld (0x15084 + 0x8 * k) 16 4 .st (0)
/-- ADC.LIMCFGk.ACT [15:14] ST, R267. -/
def R.ADC_LIMCFG_ACT (k : Nat) : Fld := fld (0x15084 + 0x8 * k) 14 2 .st (0)
/-- ADC.LIMCFGk.CONV [12:12] ST, R267. -/
def R.ADC_LIMCFG_CONV (k : Nat) : Fld := fld (0x15084 + 0x8 * k) 12 1 .st (0)
/-- ADC.LIMCFGk.INPUT [10:8] ST, R267. -/
def R.ADC_LIMCFG_INPUT (k : Nat) : Fld := fld (0x15084 + 0x8 * k) 8 3 .st (0)
/-- ADC.LIMCFGk.EN [0:0] ST, R267. -/
def R.ADC_LIMCFG_EN (k : Nat) : Fld := fld (0x15084 + 0x8 * k) 0 1 .st (0)
/-- ADC.SEQc_e.EN [31:31] ST, R267. -/
def R.ADC_SEQ_EN (c e : Nat) : Fld := fld (0x15100 + 0x40 * c + 0x4 * e) 31 1 .st (0)
/-- ADC.SEQc_e.INPUT [26:24] ST, R267. -/
def R.ADC_SEQ_INPUT (c e : Nat) : Fld := fld (0x15100 + 0x40 * c + 0x4 * e) 24 3 .st (0)
/-- ADC.SEQc_e.AVG [22:20] ST, R267. -/
def R.ADC_SEQ_AVG (c e : Nat) : Fld := fld (0x15100 + 0x40 * c + 0x4 * e) 20 3 .st (0)
/-- ADC.SEQc_e.OFS [13:0] ST, R267. -/
def R.ADC_SEQ_OFS (c e : Nat) : Fld := fld (0x15100 + 0x40 * c + 0x4 * e) 0 14 .st (0)
/-- ADC.RESc_e.SKIP [17:17] RO, R267. -/
def R.ADC_RES_SKIP (c e : Nat) : Fld := fld (0x15200 + 0x40 * c + 0x4 * e) 17 1 .ro (0)
/-- ADC.RESc_e.VALID [16:16] RO, R267. -/
def R.ADC_RES_VALID (c e : Nat) : Fld := fld (0x15200 + 0x40 * c + 0x4 * e) 16 1 .ro (0)
/-- ADC.RESc_e.CODE [15:0] RO, R267. -/
def R.ADC_RES_CODE (c e : Nat) : Fld := fld (0x15200 + 0x40 * c + 0x4 * e) 0 16 .ro (0)
/-! ### FIO (page 0x16) -/
/-- FIO.GCFG.AUTORS [0:0] RW, R378. -/
def R.FIO_GCFG_AUTORS : Fld := fld (0x16040) 0 1 .rw (0)
/-- FIO.OUT.OUT [15:0] RW, R378. -/
def R.FIO_OUT_OUT : Fld := fld (0x16044) 0 16 .rw (0)
/-- FIO.OSET.OUT [15:0] W1A, R378. -/
def R.FIO_OSET_OUT : Fld := fld (0x16048) 0 16 .w1a (0)
/-- FIO.OCLR.OUT [15:0] W1A, R378. -/
def R.FIO_OCLR_OUT : Fld := fld (0x1604C) 0 16 .w1a (0)
/-- FIO.IN.VALID [31:31] RO, R378. -/
def R.FIO_IN_VALID : Fld := fld (0x16050) 31 1 .ro (0)
/-- FIO.IN.LVL [15:0] RO, R378. -/
def R.FIO_IN_LVL : Fld := fld (0x16050) 0 16 .ro (0)
/-- FIO.RB.VALID [31:31] RO, R378. -/
def R.FIO_RB_VALID : Fld := fld (0x16054) 31 1 .ro (0)
/-- FIO.RB.LVL [15:0] RO, R378. -/
def R.FIO_RB_LVL : Fld := fld (0x16054) 0 16 .ro (0)
/-- FIO.DTCFG.DTINT [31:16] RW, R378. -/
def R.FIO_DTCFG_DTINT : Fld := fld (0x16058) 16 16 .rw (0)
/-- FIO.DTCFG.DTLEN [8:0] RW, R378. -/
def R.FIO_DTCFG_DTLEN : Fld := fld (0x16058) 0 9 .rw (100)
/-- FIO.DTCNT.ABAND [31:16] RO, R378. -/
def R.FIO_DTCNT_ABAND : Fld := fld (0x1605C) 16 16 .ro (0)
/-- FIO.DTCNT.PASS [15:0] RO, R378. -/
def R.FIO_DTCNT_PASS : Fld := fld (0x1605C) 0 16 .ro (0)
/-- FIO.VFLD.VLOW [17:17] RO, R378. -/
def R.FIO_VFLD_VLOW : Fld := fld (0x16060) 17 1 .ro (0)
/-- FIO.VFLD.VWARN [16:16] RO, R378. -/
def R.FIO_VFLD_VWARN : Fld := fld (0x16060) 16 1 .ro (0)
/-- FIO.VFLD.VOLT [15:0] RO, R378. -/
def R.FIO_VFLD_VOLT : Fld := fld (0x16060) 0 16 .ro (0)
/-- FIO.BYPD.HD [19:16] RW, R378. -/
def R.FIO_BYPD_HD : Fld := fld (0x16064) 16 4 .rw (15)
/-- FIO.BYPD.PI [15:0] RW, R378. -/
def R.FIO_BYPD_PI : Fld := fld (0x16064) 0 16 .rw (200)
/-- FIO.CMD.CCLR [3:3] W1A, R378. -/
def R.FIO_CMD_CCLR : Fld := fld (0x16068) 3 1 .w1a (0)
/-- FIO.CMD.GCLR1 [2:2] W1A, R378. -/
def R.FIO_CMD_GCLR1 : Fld := fld (0x16068) 2 1 .w1a (0)
/-- FIO.CMD.GCLR0 [1:1] W1A, R378. -/
def R.FIO_CMD_GCLR0 : Fld := fld (0x16068) 1 1 .w1a (0)
/-- FIO.CMD.RESTART [0:0] W1A, R378. -/
def R.FIO_CMD_RESTART : Fld := fld (0x16068) 0 1 .w1a (0)
/-- FIO.LINK.FDRC [31:16] RO, R378. -/
def R.FIO_LINK_FDRC : Fld := fld (0x1606C) 16 16 .ro (0)
/-- FIO.LINK.CRCE [15:0] RO, R378. -/
def R.FIO_LINK_CRCE : Fld := fld (0x1606C) 0 16 .ro (0)
/-- FIO.CFGn.AUTO [19:19] RW, R378. -/
def R.FIO_CFG_AUTO (n : Nat) : Fld := fld (0x16100 + 0x4 * n) 19 1 .rw (0)
/-- FIO.CFGn.FAILST [18:18] RW, R378. -/
def R.FIO_CFG_FAILST (n : Nat) : Fld := fld (0x16100 + 0x4 * n) 18 1 .rw (0)
/-- FIO.CFGn.DTEN [17:17] RW, R378. -/
def R.FIO_CFG_DTEN (n : Nat) : Fld := fld (0x16100 + 0x4 * n) 17 1 .rw (0)
/-- FIO.CFGn.FILT [15:8] RW, R378. -/
def R.FIO_CFG_FILT (n : Nat) : Fld := fld (0x16100 + 0x4 * n) 8 8 .rw (10)
/-- FIO.CFGn.MODE [1:0] RW, R378. -/
def R.FIO_CFG_MODE (n : Nat) : Fld := fld (0x16100 + 0x4 * n) 0 2 .rw (0)
/-- FIO.CSTAn.PARTNER [12:8] RO, R378. -/
def R.FIO_CSTA_PARTNER (n : Nat) : Fld := fld (0x16140 + 0x4 * n) 8 5 .ro (0)
/-- FIO.CSTAn.HELD [7:7] RO, R378. -/
def R.FIO_CSTA_HELD (n : Nat) : Fld := fld (0x16140 + 0x4 * n) 7 1 .ro (0)
/-- FIO.CSTAn.ILIM [6:6] RO, R378. -/
def R.FIO_CSTA_ILIM (n : Nat) : Fld := fld (0x16140 + 0x4 * n) 6 1 .ro (0)
/-- FIO.CSTAn.OT [5:5] W1C, R378. -/
def R.FIO_CSTA_OT (n : Nat) : Fld := fld (0x16140 + 0x4 * n) 5 1 .w1c (0)
/-- FIO.CSTAn.TIE [4:4] W1C, R378. -/
def R.FIO_CSTA_TIE (n : Nat) : Fld := fld (0x16140 + 0x4 * n) 4 1 .w1c (0)
/-- FIO.CSTAn.SHV [3:3] W1C, R378. -/
def R.FIO_CSTA_SHV (n : Nat) : Fld := fld (0x16140 + 0x4 * n) 3 1 .w1c (0)
/-! ### SAF (page 0x17) -/
/-- SAF.DIP.AGREE [16:16] RO, R380. -/
def R.SAF_DIP_AGREE : Fld := fld (0x17040) 16 1 .ro (0)
/-- SAF.DIP.DIPB [15:8] RO, R380. -/
def R.SAF_DIP_DIPB : Fld := fld (0x17040) 8 8 .ro (0)
/-- SAF.DIP.DIPA [7:0] RO, R380. -/
def R.SAF_DIP_DIPA : Fld := fld (0x17040) 0 8 .ro (0)
/-- SAF.STA.FUNC [22:20] RO, R380. -/
def R.SAF_STA_FUNC : Fld := fld (0x17044) 20 3 .ro (0)
/-- SAF.STA.SOP [17:16] RO, R380. -/
def R.SAF_STA_SOP : Fld := fld (0x17044) 16 2 .ro (0)
/-- SAF.STA.STATEB [6:4] RO, R380. -/
def R.SAF_STA_STATEB : Fld := fld (0x17044) 4 3 .ro (0)
/-- SAF.STA.STATEA [2:0] RO, R380. -/
def R.SAF_STA_STATEA : Fld := fld (0x17044) 0 3 .ro (0)
/-- SAF.SIN.DEM [23:20] RO, R380. -/
def R.SAF_SIN_DEM : Fld := fld (0x17048) 20 4 .ro (0)
/-- SAF.SIN.DISC [19:16] RO, R380. -/
def R.SAF_SIN_DISC : Fld := fld (0x17048) 16 4 .ro (0)
/-- SAF.SIN.SIB [15:8] RO, R380. -/
def R.SAF_SIN_SIB : Fld := fld (0x17048) 8 8 .ro (0)
/-- SAF.SIN.SIA [7:0] RO, R380. -/
def R.SAF_SIN_SIA : Fld := fld (0x17048) 0 8 .ro (0)
/-- SAF.SA.SA1 [31:16] RO, R380. -/
def R.SAF_SA_SA1 : Fld := fld (0x1704C) 16 16 .ro (0)
/-- SAF.SA.SA0 [15:0] RO, R380. -/
def R.SAF_SA_SA0 : Fld := fld (0x1704C) 0 16 .ro (0)
/-- SAF.MOT.SPDB [31:16] RO, R380. -/
def R.SAF_MOT_SPDB : Fld := fld (0x17050) 16 16 .ro (0)
/-- SAF.MOT.SPDA [15:0] RO, R380. -/
def R.SAF_MOT_SPDA : Fld := fld (0x17050) 0 16 .ro (0)
/-- SAF.TDIS.REMB [31:16] RO, R380. -/
def R.SAF_TDIS_REMB : Fld := fld (0x17054) 16 16 .ro (0)
/-- SAF.TDIS.REMA [15:0] RO, R380. -/
def R.SAF_TDIS_REMA : Fld := fld (0x17054) 0 16 .ro (0)
/-- SAF.CAUSE.CB [15:8] RO, R380. -/
def R.SAF_CAUSE_CB : Fld := fld (0x17058) 8 8 .ro (0)
/-- SAF.CAUSE.CA [7:0] RO, R380. -/
def R.SAF_CAUSE_CA : Fld := fld (0x17058) 0 8 .ro (0)
/-- SAF.AGE.FRESH [16:16] RO, R380. -/
def R.SAF_AGE_FRESH : Fld := fld (0x1705C) 16 1 .ro (0)
/-- SAF.AGE.UPD [15:0] RO, R380. -/
def R.SAF_AGE_UPD : Fld := fld (0x1705C) 0 16 .ro (0)
/-! ### ENC (page 0x18) -/
/-- ENC.CMD.CCLR [0:0] W1A, R379. -/
def R.ENC_CMD_CCLR : Fld := fld (0x18040) 0 1 .w1a (0)
/-- ENC.CFGn.EN [31:31] RW, R379. -/
def R.ENC_CFG_EN (n : Nat) : Fld := fld (0x18100 + 0x20 * n) 31 1 .rw (0)
/-- ENC.CFGn.MODE [17:16] RW, R379. -/
def R.ENC_CFG_MODE (n : Nat) : Fld := fld (0x18100 + 0x20 * n) 16 2 .rw (0)
/-- ENC.CFGn.WIN [9:0] RW, R379. -/
def R.ENC_CFG_WIN (n : Nat) : Fld := fld (0x18100 + 0x20 * n) 0 10 .rw (10)
/-- ENC.POSn.VAL [31:0] RO, R379. -/
def R.ENC_POS_VAL (n : Nat) : Fld := fld (0x18104 + 0x20 * n) 0 32 .ro (0)
/-- ENC.SPDn.VAL [31:0] RO, R379. -/
def R.ENC_SPD_VAL (n : Nat) : Fld := fld (0x18108 + 0x20 * n) 0 32 .ro (0)
/-- ENC.WSEQn.VALID [16:16] RO, R379. -/
def R.ENC_WSEQ_VALID (n : Nat) : Fld := fld (0x1810C + 0x20 * n) 16 1 .ro (0)
/-- ENC.WSEQn.SEQ [15:0] RO, R379. -/
def R.ENC_WSEQ_SEQ (n : Nat) : Fld := fld (0x1810C + 0x20 * n) 0 16 .ro (0)
/-- ENC.ZCNTn.Z [15:0] RO, R379. -/
def R.ENC_ZCNT_Z (n : Nat) : Fld := fld (0x18110 + 0x20 * n) 0 16 .ro (0)
/-- ENC.WSTAn.WFC [31:16] RO, R379. -/
def R.ENC_WSTA_WFC (n : Nat) : Fld := fld (0x18114 + 0x20 * n) 16 16 .ro (0)
/-- ENC.WSTAn.WIRE [2:0] RO, R379. -/
def R.ENC_WSTA_WIRE (n : Nat) : Fld := fld (0x18114 + 0x20 * n) 0 3 .ro (0)
/-! ### ETH (page 0x19) -/
/-- ETH.TSCOR.TXC [31:16] DO, R291. -/
def R.ETH_TSCOR_TXC (q : Nat) : Fld := fld (0x19100 + 0x1000 * q) 16 16 .do (0)
/-- ETH.TSCOR.RXC [15:0] DO, R291. -/
def R.ETH_TSCOR_RXC (q : Nat) : Fld := fld (0x19100 + 0x1000 * q) 0 16 .do (0)
/-- ETH.TSCFG.LATE [15:8] RW, R291. -/
def R.ETH_TSCFG_LATE (q : Nat) : Fld := fld (0x19104 + 0x1000 * q) 8 8 .rw (10)
/-- ETH.TSCFG.TSALL [0:0] RW, R291. -/
def R.ETH_TSCFG_TSALL (q : Nat) : Fld := fld (0x19104 + 0x1000 * q) 0 1 .rw (0)
/-- ETH.TXTSS.TAG [63:48] RO, R291. -/
def R.ETH_TXTSS_TAG (q : Nat) : Fld := fld (0x19108 + 0x1000 * q) 48 16 .ro (0)
/-- ETH.TXTSS.SEC [47:0] RO, R291. -/
def R.ETH_TXTSS_SEC (q : Nat) : Fld := fld (0x19108 + 0x1000 * q) 0 48 .ro (0)
/-- ETH.TXTSN.NS [31:0] RO, R291. -/
def R.ETH_TXTSN_NS (q : Nat) : Fld := fld (0x19110 + 0x1000 * q) 0 32 .ro (0)
/-- ETH.TXTSF.VALID [31:31] RO, R291. -/
def R.ETH_TXTSF_VALID (q : Nat) : Fld := fld (0x19114 + 0x1000 * q) 31 1 .ro (0)
/-- ETH.TXTSF.COUNT [12:8] RO, R291. -/
def R.ETH_TXTSF_COUNT (q : Nat) : Fld := fld (0x19114 + 0x1000 * q) 8 5 .ro (0)
/-- ETH.TXTSF.SUB [7:0] RO, R291. -/
def R.ETH_TXTSF_SUB (q : Nat) : Fld := fld (0x19114 + 0x1000 * q) 0 8 .ro (0)
/-- ETH.TLCNT.LATE [31:16] RO, R291. -/
def R.ETH_TLCNT_LATE (q : Nat) : Fld := fld (0x19118 + 0x1000 * q) 16 16 .ro (0)
/-- ETH.TLCNT.DROP [15:0] RO, R291. -/
def R.ETH_TLCNT_DROP (q : Nat) : Fld := fld (0x19118 + 0x1000 * q) 0 16 .ro (0)
/-- ETH.TSCNT.TXOVF [31:16] RO, R291. -/
def R.ETH_TSCNT_TXOVF (q : Nat) : Fld := fld (0x1911C + 0x1000 * q) 16 16 .ro (0)
/-- ETH.TSCNT.INSR [15:0] RO, R291. -/
def R.ETH_TSCNT_INSR (q : Nat) : Fld := fld (0x1911C + 0x1000 * q) 0 16 .ro (0)
/-- ETH.TLHEAD.TSEC [63:32] RO, R291. -/
def R.ETH_TLHEAD_TSEC (q : Nat) : Fld := fld (0x19120 + 0x1000 * q) 32 32 .ro (0)
/-- ETH.TLHEAD.TNS [31:0] RO, R291. -/
def R.ETH_TLHEAD_TNS (q : Nat) : Fld := fld (0x19120 + 0x1000 * q) 0 32 .ro (0)
/-- ETH.MCFG.PROM [1:1] DO, R436. -/
def R.ETH_MCFG_PROM (q : Nat) : Fld := fld (0x19040 + 0x1000 * q) 1 1 .do (0)
/-- ETH.MCFG.IF [0:0] DO, R436. -/
def R.ETH_MCFG_IF (q : Nat) : Fld := fld (0x19040 + 0x1000 * q) 0 1 .do (0)
/-- ETH.MACL.ADDR [31:0] DO, R436. -/
def R.ETH_MACL_ADDR (q : Nat) : Fld := fld (0x19044 + 0x1000 * q) 0 32 .do (0)
/-- ETH.MACH.ADDR [15:0] DO, R436. -/
def R.ETH_MACH_ADDR (q : Nat) : Fld := fld (0x19048 + 0x1000 * q) 0 16 .do (0)
/-- ETH.TXRB.BASE [35:5] DO, R436. -/
def R.ETH_TXRB_BASE (q : Nat) : Fld := fld (0x19050 + 0x1000 * q) 5 31 .do (0)
/-- ETH.TXRL.LEN [15:0] DO, R436. -/
def R.ETH_TXRL_LEN (q : Nat) : Fld := fld (0x19058 + 0x1000 * q) 0 16 .do (64)
/-- ETH.TXTL.TAIL [15:0] RW, R436. -/
def R.ETH_TXTL_TAIL (q : Nat) : Fld := fld (0x1905C + 0x1000 * q) 0 16 .rw (0)
/-- ETH.TXHD.HEAD [15:0] RO, R436. -/
def R.ETH_TXHD_HEAD (q : Nat) : Fld := fld (0x19060 + 0x1000 * q) 0 16 .ro (0)
/-- ETH.RXRB.BASE [35:5] DO, R436. -/
def R.ETH_RXRB_BASE (q : Nat) : Fld := fld (0x19068 + 0x1000 * q) 5 31 .do (0)
/-- ETH.RXRL.LEN [15:0] DO, R436. -/
def R.ETH_RXRL_LEN (q : Nat) : Fld := fld (0x19070 + 0x1000 * q) 0 16 .do (64)
/-- ETH.RXTL.TAIL [15:0] RW, R436. -/
def R.ETH_RXTL_TAIL (q : Nat) : Fld := fld (0x19074 + 0x1000 * q) 0 16 .rw (0)
/-- ETH.RXHD.HEAD [15:0] RO, R436. -/
def R.ETH_RXHD_HEAD (q : Nat) : Fld := fld (0x19078 + 0x1000 * q) 0 16 .ro (0)
/-- ETH.LSTA.DROPR [1:1] W1C, R436. -/
def R.ETH_LSTA_DROPR (q : Nat) : Fld := fld (0x1907C + 0x1000 * q) 1 1 .w1c (0)
/-- ETH.LSTA.LINK [0:0] RO, R436. -/
def R.ETH_LSTA_LINK (q : Nat) : Fld := fld (0x1907C + 0x1000 * q) 0 1 .ro (0)
/-! ### AZL (page 0x20) -/
/-- AZL.LCTL.PRECALLOW [3:3] DO, R84. -/
def R.AZL_LCTL_PRECALLOW (q : Nat) : Fld := fld (0x20040 + 0x1000 * q) 3 1 .do (1)
/-- AZL.LCTL.PRECREQ [2:2] DO, R84. -/
def R.AZL_LCTL_PRECREQ (q : Nat) : Fld := fld (0x20040 + 0x1000 * q) 2 1 .do (1)
/-- AZL.LCTL.AUTO [1:1] RW, R84. -/
def R.AZL_LCTL_AUTO (q : Nat) : Fld := fld (0x20040 + 0x1000 * q) 1 1 .rw (1)
/-- AZL.LCTL.TXOFF [0:0] RW, R84. -/
def R.AZL_LCTL_TXOFF (q : Nat) : Fld := fld (0x20040 + 0x1000 * q) 0 1 .rw (0)
/-- AZL.TXEQI.POST [20:16] DO, R84. -/
def R.AZL_TXEQI_POST (q : Nat) : Fld := fld (0x20044 + 0x1000 * q) 16 5 .do (6)
/-- AZL.TXEQI.MAIN [12:8] DO, R84. -/
def R.AZL_TXEQI_MAIN (q : Nat) : Fld := fld (0x20044 + 0x1000 * q) 8 5 .do (24)
/-- AZL.TXEQI.PRE [4:0] DO, R84. -/
def R.AZL_TXEQI_PRE (q : Nat) : Fld := fld (0x20044 + 0x1000 * q) 0 5 .do (2)
/-- AZL.TXEQ.POST [20:16] RO, R84. -/
def R.AZL_TXEQ_POST (q : Nat) : Fld := fld (0x20048 + 0x1000 * q) 16 5 .ro (6)
/-- AZL.TXEQ.MAIN [12:8] RO, R84. -/
def R.AZL_TXEQ_MAIN (q : Nat) : Fld := fld (0x20048 + 0x1000 * q) 8 5 .ro (24)
/-- AZL.TXEQ.PRE [4:0] RO, R84. -/
def R.AZL_TXEQ_PRE (q : Nat) : Fld := fld (0x20048 + 0x1000 * q) 0 5 .ro (2)
/-- AZL.LOSCFG.LOSDLY [15:8] RW, R84. -/
def R.AZL_LOSCFG_LOSDLY (q : Nat) : Fld := fld (0x2004C + 0x1000 * q) 8 8 .rw (5)
/-- AZL.LOSCFG.LOSHY [5:4] RW, R84. -/
def R.AZL_LOSCFG_LOSHY (q : Nat) : Fld := fld (0x2004C + 0x1000 * q) 4 2 .rw (1)
/-- AZL.LOSCFG.LOSTH [2:0] RW, R84. -/
def R.AZL_LOSCFG_LOSTH (q : Nat) : Fld := fld (0x2004C + 0x1000 * q) 0 3 .rw (2)
/-- AZL.LOLCFG.SHTH [20:16] RW, R84. -/
def R.AZL_LOLCFG_SHTH (q : Nat) : Fld := fld (0x20050 + 0x1000 * q) 16 5 .rw (16)
/-- AZL.LOLCFG.PPMTH [9:0] RW, R84. -/
def R.AZL_LOLCFG_PPMTH (q : Nat) : Fld := fld (0x20050 + 0x1000 * q) 0 10 .rw (300)
/-- AZL.TRCFG.ADMIT [31:16] RW, R84. -/
def R.AZL_TRCFG_ADMIT (q : Nat) : Fld := fld (0x20054 + 0x1000 * q) 16 16 .rw (1000)
/-- AZL.TRCFG.RETRY [15:8] RW, R84. -/
def R.AZL_TRCFG_RETRY (q : Nat) : Fld := fld (0x20054 + 0x1000 * q) 8 8 .rw (10)
/-- AZL.TRCFG.TRTMO [7:0] RW, R84. -/
def R.AZL_TRCFG_TRTMO (q : Nat) : Fld := fld (0x20054 + 0x1000 * q) 0 8 .rw (20)
/-- AZL.LSTAT.PROLE [16:15] RO, R84. -/
def R.AZL_LSTAT_PROLE (q : Nat) : Fld := fld (0x20058 + 0x1000 * q) 15 2 .ro (0)
/-- AZL.LSTAT.PLANE [14:10] RO, R84. -/
def R.AZL_LSTAT_PLANE (q : Nat) : Fld := fld (0x20058 + 0x1000 * q) 10 5 .ro (0)
/-- AZL.LSTAT.INSVC [9:9] RO, R84. -/
def R.AZL_LSTAT_INSVC (q : Nat) : Fld := fld (0x20058 + 0x1000 * q) 9 1 .ro (0)
/-- AZL.LSTAT.REMFLT [8:8] RO, R84. -/
def R.AZL_LSTAT_REMFLT (q : Nat) : Fld := fld (0x20058 + 0x1000 * q) 8 1 .ro (0)
/-- AZL.LSTAT.TXPREC [7:7] RO, R84. -/
def R.AZL_LSTAT_TXPREC (q : Nat) : Fld := fld (0x20058 + 0x1000 * q) 7 1 .ro (0)
/-- AZL.LSTAT.RXPREC [6:6] RO, R84. -/
def R.AZL_LSTAT_RXPREC (q : Nat) : Fld := fld (0x20058 + 0x1000 * q) 6 1 .ro (0)
/-- AZL.LSTAT.BLKLK [5:5] RO, R84. -/
def R.AZL_LSTAT_BLKLK (q : Nat) : Fld := fld (0x20058 + 0x1000 * q) 5 1 .ro (0)
/-- AZL.LSTAT.CDRLK [4:4] RO, R84. -/
def R.AZL_LSTAT_CDRLK (q : Nat) : Fld := fld (0x20058 + 0x1000 * q) 4 1 .ro (0)
/-- AZL.LSTAT.LOS [3:3] RO, R84. -/
def R.AZL_LSTAT_LOS (q : Nat) : Fld := fld (0x20058 + 0x1000 * q) 3 1 .ro (0)
/-- AZL.LSTAT.STATE [2:0] RO, R84. -/
def R.AZL_LSTAT_STATE (q : Nat) : Fld := fld (0x20058 + 0x1000 * q) 0 3 .ro (0)
/-- AZL.CNT.LOSC [31:16] RO, R84. -/
def R.AZL_CNT_LOSC (q : Nat) : Fld := fld (0x20060 + 0x1000 * q) 16 16 .ro (0)
/-- AZL.CNT.LOLC [15:0] RO, R84. -/
def R.AZL_CNT_LOLC (q : Nat) : Fld := fld (0x20060 + 0x1000 * q) 0 16 .ro (0)
/-- AZL.LEAP.DEL [31:16] RO, R84. -/
def R.AZL_LEAP_DEL (q : Nat) : Fld := fld (0x20064 + 0x1000 * q) 16 16 .ro (0)
/-- AZL.LEAP.INS [15:0] RO, R84. -/
def R.AZL_LEAP_INS (q : Nat) : Fld := fld (0x20064 + 0x1000 * q) 0 16 .ro (0)
/-- AZL.SHERR.SHERR [31:0] RO, R84. -/
def R.AZL_SHERR_SHERR (q : Nat) : Fld := fld (0x20068 + 0x1000 * q) 0 32 .ro (0)
/-- AZL.ABTC.EBC [31:16] RO, R84. -/
def R.AZL_ABTC_EBC (q : Nat) : Fld := fld (0x2006C + 0x1000 * q) 16 16 .ro (0)
/-- AZL.ABTC.ABT [15:0] RO, R84. -/
def R.AZL_ABTC_ABT (q : Nat) : Fld := fld (0x2006C + 0x1000 * q) 0 16 .ro (0)
/-- AZL.PPM.PPM [15:0] RO, R84. -/
def R.AZL_PPM_PPM (q : Nat) : Fld := fld (0x20070 + 0x1000 * q) 0 16 .ro (0)
/-- AZL.CMD.CCLR [1:1] W1A, R84. -/
def R.AZL_CMD_CCLR (q : Nat) : Fld := fld (0x20074 + 0x1000 * q) 1 1 .w1a (0)
/-- AZL.CMD.RETRAIN [0:0] W1A, R84. -/
def R.AZL_CMD_RETRAIN (q : Nat) : Fld := fld (0x20074 + 0x1000 * q) 0 1 .w1a (0)
/-! ### AZF (page 0x34) -/
/-- AZF.POOLCFG.MCAP [30:16] DO, R123. -/
def R.AZF_POOLCFG_MCAP : Fld := fld (0x34040) 16 15 .do (4096)
/-- AZF.POOLCFG.CRES [14:0] DO, R123. -/
def R.AZF_POOLCFG_CRES : Fld := fld (0x34040) 0 15 .do (4096)
/-- AZF.POOLSTA.MINFREE [30:16] RO, R123. -/
def R.AZF_POOLSTA_MINFREE : Fld := fld (0x34044) 16 15 .ro (16384)
/-- AZF.POOLSTA.FREE [14:0] RO, R123. -/
def R.AZF_POOLSTA_FREE : Fld := fld (0x34044) 0 15 .ro (16384)
/-- AZF.DROP.MBX [31:16] RO, R123. -/
def R.AZF_DROP_MBX : Fld := fld (0x34048) 16 16 .ro (0)
/-- AZF.DROP.TLM [15:0] RO, R123. -/
def R.AZF_DROP_TLM : Fld := fld (0x34048) 0 16 .ro (0)
/-- AZF.DROPC.TRUNC [31:16] RO, R123. -/
def R.AZF_DROPC_TRUNC : Fld := fld (0x3404C) 16 16 .ro (0)
/-- AZF.DROPC.CTL [15:0] RO, R123. -/
def R.AZF_DROPC_CTL : Fld := fld (0x3404C) 0 16 .ro (0)
/-- AZF.RXERR.SLOT [31:16] RO, R123. -/
def R.AZF_RXERR_SLOT : Fld := fld (0x34050) 16 16 .ro (0)
/-- AZF.RXERR.FCRC [15:0] RO, R123. -/
def R.AZF_RXERR_FCRC : Fld := fld (0x34050) 0 16 .ro (0)
/-- AZF.TAGERR.UNK [31:16] RO, R123. -/
def R.AZF_TAGERR_UNK : Fld := fld (0x34054) 16 16 .ro (0)
/-- AZF.TAGERR.STALE [15:0] RO, R123. -/
def R.AZF_TAGERR_STALE : Fld := fld (0x34054) 0 16 .ro (0)
/-- AZF.TSTA.TVALID [21:21] RO, R123. -/
def R.AZF_TSTA_TVALID : Fld := fld (0x34058) 21 1 .ro (0)
/-- AZF.TSTA.TLANE [20:16] RO, R123. -/
def R.AZF_TSTA_TLANE : Fld := fld (0x34058) 16 5 .ro (0)
/-- AZF.TSTA.OUTL [15:8] RO, R123. -/
def R.AZF_TSTA_OUTL : Fld := fld (0x34058) 8 8 .ro (0)
/-- AZF.TSTA.DEPTH [7:0] RO, R123. -/
def R.AZF_TSTA_DEPTH : Fld := fld (0x34058) 0 8 .ro (0)
/-- AZF.TERR.TERR [31:0] RO, R123. -/
def R.AZF_TERR_TERR : Fld := fld (0x3405C) 0 32 .ro (0)
/-- AZF.SPLIT.SVALID [7:7] RO, R123. -/
def R.AZF_SPLIT_SVALID : Fld := fld (0x34060) 7 1 .ro (0)
/-- AZF.SPLIT.SPLIT [6:0] RO, R123. -/
def R.AZF_SPLIT_SPLIT : Fld := fld (0x34060) 0 7 .ro (0)
/-- AZF.RINGSTA.RSr [31:0] RO, R123. -/
def R.AZF_RINGSTA_RSr : Fld := fld (0x34064) 0 32 .ro (0)
/-- AZF.ENUM.ROUND [31:16] RO, R123. -/
def R.AZF_ENUM_ROUND : Fld := fld (0x34068) 16 16 .ro (0)
/-- AZF.ENUM.RMASK [15:0] RW, R123. -/
def R.AZF_ENUM_RMASK : Fld := fld (0x34068) 0 16 .rw (65535)
/-- AZF.CMD.CCLR [1:1] W1A, R123. -/
def R.AZF_CMD_CCLR : Fld := fld (0x3406C) 1 1 .w1a (0)
/-- AZF.CMD.ENUMGO [0:0] W1A, R123. -/
def R.AZF_CMD_ENUMGO : Fld := fld (0x3406C) 0 1 .w1a (0)
/-- AZF.MBX.MRETX [31:16] RO, R123. -/
def R.AZF_MBX_MRETX : Fld := fld (0x34070) 16 16 .ro (0)
/-- AZF.MBX.MFAIL [15:0] RO, R123. -/
def R.AZF_MBX_MFAIL : Fld := fld (0x34070) 0 16 .ro (0)
/-- AZF.FRESHC.OLD [15:0] RO, R123. -/
def R.AZF_FRESHC_OLD : Fld := fld (0x34074) 0 16 .ro (0)
/-- AZF.LDLYn.ASYM [31:24] RW, R123. -/
def R.AZF_LDLY_ASYM (n : Nat) : Fld := fld (0x34100 + 0x4 * n) 24 8 .rw (0)
/-- AZF.LDLYn.LD [23:0] RO, R123. -/
def R.AZF_LDLY_LD (n : Nat) : Fld := fld (0x34100 + 0x4 * n) 0 24 .ro (0)

/-! ### FLT bits by name -/
/-- PWR.FLT.RAIL (R424), bit 1. -/
def Flt.PWR_RAIL : Nat := 1
/-- PWR.FLT.VINX (R424), bit 0. -/
def Flt.PWR_VINX : Nat := 0
/-- ALM.FLT.PREF (R351), bit 3. -/
def Flt.ALM_PREF : Nat := 3
/-- ALM.FLT.TLIM (R351), bit 2. -/
def Flt.ALM_TLIM : Nat := 2
/-- ALM.FLT.FULL (R351), bit 1. -/
def Flt.ALM_FULL : Nat := 1
/-- ALM.FLT.WFAIL (R351), bit 0. -/
def Flt.ALM_WFAIL : Nat := 0
/-- SEC.FLT.TRNG (R402), bit 5. -/
def Flt.SEC_TRNG : Nat := 5
/-- SEC.FLT.RESV (R402), bit 4. -/
def Flt.SEC_RESV : Nat := 4
/-- SEC.FLT.SEAL (R402), bit 3. -/
def Flt.SEC_SEAL : Nat := 3
/-- SEC.FLT.OREF (R402), bit 2. -/
def Flt.SEC_OREF : Nat := 2
/-- SEC.FLT.VFAIL (R402), bit 1. -/
def Flt.SEC_VFAIL : Nat := 1
/-- SEC.FLT.BOOTF (R402), bit 0. -/
def Flt.SEC_BOOTF : Nat := 0
/-- TBS.FLT.FSAT (R290), bit 2. -/
def Flt.TBS_FSAT : Nat := 2
/-- TBS.FLT.HTMO (R290), bit 1. -/
def Flt.TBS_HTMO : Nat := 1
/-- TBS.FLT.JREF (R290), bit 0. -/
def Flt.TBS_JREF : Nat := 0
/-- MEMC.FLT.UE (R435), bit 1. -/
def Flt.MEMC_UE : Nat := 1
/-- MEMC.FLT.CE (R435), bit 0. -/
def Flt.MEMC_CE : Nat := 0
/-- RED.FLT.DUAL (R330), bit 3. -/
def Flt.RED_DUAL : Nat := 3
/-- RED.FLT.MMIS (R330), bit 2. -/
def Flt.RED_MMIS : Nat := 2
/-- RED.FLT.MLOST (R330), bit 1. -/
def Flt.RED_MLOST : Nat := 1
/-- RED.FLT.TKO (R330), bit 0. -/
def Flt.RED_TKO : Nat := 0
/-- ACQ.FLT.MTMO (R316), bit 3. -/
def Flt.ACQ_MTMO : Nat := 3
/-- ACQ.FLT.MASKV (R316), bit 2. -/
def Flt.ACQ_MASKV : Nat := 2
/-- ACQ.FLT.MISS (R316), bit 1. -/
def Flt.ACQ_MISS : Nat := 1
/-- ACQ.FLT.OVF (R316), bit 0. -/
def Flt.ACQ_OVF : Nat := 0
/-- SE.FLT.SIGD (R209), bit 4. -/
def Flt.SE_SIGD : Nat := 4
/-- SE.FLT.CE (R209), bit 3. -/
def Flt.SE_CE : Nat := 3
/-- SE.FLT.BUSY (R209), bit 2. -/
def Flt.SE_BUSY : Nat := 2
/-- SE.FLT.EVE (R209), bit 1. -/
def Flt.SE_EVE : Nat := 1
/-- SE.FLT.TRAP (R209), bit 0. -/
def Flt.SE_TRAP : Nat := 0
/-- PWM.FLT.SUPP (R266), bit 5. -/
def Flt.PWM_SUPP : Nat := 5
/-- PWM.FLT.MPV (R266), bit 4. -/
def Flt.PWM_MPV : Nat := 4
/-- PWM.FLT.GF (R266), bit 0. -/
def Flt.PWM_GF : Nat := 0
/-- ADC.FLT.SMISS (R267), bit 3. -/
def Flt.ADC_SMISS : Nat := 3
/-- ADC.FLT.SEQ (R267), bit 2. -/
def Flt.ADC_SEQ : Nat := 2
/-- ADC.FLT.LIM (R267), bit 1. -/
def Flt.ADC_LIM : Nat := 1
/-- ADC.FLT.CALF (R267), bit 0. -/
def Flt.ADC_CALF : Nat := 0
/-- FIO.FLT.ROLEC (R378), bit 7. -/
def Flt.FIO_ROLEC : Nat := 7
/-- FIO.FLT.LINK (R378), bit 6. -/
def Flt.FIO_LINK : Nat := 6
/-- FIO.FLT.FDRST (R378), bit 5. -/
def Flt.FIO_FDRST : Nat := 5
/-- FIO.FLT.VWARN (R378), bit 4. -/
def Flt.FIO_VWARN : Nat := 4
/-- FIO.FLT.VLOW (R378), bit 3. -/
def Flt.FIO_VLOW : Nat := 3
/-- FIO.FLT.GRP (R378), bit 2. -/
def Flt.FIO_GRP : Nat := 2
/-- FIO.FLT.CHF (R378), bit 1. -/
def Flt.FIO_CHF : Nat := 1
/-- FIO.FLT.BYPCFG (R378), bit 0. -/
def Flt.FIO_BYPCFG : Nat := 0
/-- SAF.FLT.DIPCHG (R380), bit 4. -/
def Flt.SAF_DIPCHG : Nat := 4
/-- SAF.FLT.FAULT (R380), bit 3. -/
def Flt.SAF_FAULT : Nat := 3
/-- SAF.FLT.XDIS (R380), bit 2. -/
def Flt.SAF_XDIS : Nat := 2
/-- SAF.FLT.DISC (R380), bit 1. -/
def Flt.SAF_DISC : Nat := 1
/-- SAF.FLT.REACT (R380), bit 0. -/
def Flt.SAF_REACT : Nat := 0
/-- ENC.FLT.WF (R379), bit 0. -/
def Flt.ENC_WF : Nat := 0
/-- AZL.FLT.TRRX (R84), bit 7. -/
def Flt.AZL_TRRX : Nat := 7
/-- AZL.FLT.CODE (R84), bit 6. -/
def Flt.AZL_CODE : Nat := 6
/-- AZL.FLT.ABT (R84), bit 5. -/
def Flt.AZL_ABT : Nat := 5
/-- AZL.FLT.EB (R84), bit 4. -/
def Flt.AZL_EB : Nat := 4
/-- AZL.FLT.TRF (R84), bit 3. -/
def Flt.AZL_TRF : Nat := 3
/-- AZL.FLT.RF (R84), bit 2. -/
def Flt.AZL_RF : Nat := 2
/-- AZL.FLT.LOL (R84), bit 1. -/
def Flt.AZL_LOL : Nat := 1
/-- AZL.FLT.LOS (R84), bit 0. -/
def Flt.AZL_LOS : Nat := 0

end Sys2Proof.Machine
end

