-- ==== Sys2Proof/Machine/RegTable.lean ====
section
/-! DEFINITION. The register map read by address: which fields stand in the word at an offset of a
page (R426, R428 and the field tables of the chapters). -/

namespace Sys2Proof.Machine

/-- The block fields of the word at page offset `o` of SYS (a 64-bit register at its low offset). -/
def fieldsSYS (o : Nat) : List Fld :=
  if o = 0x40 then [R.SYS_STRAP_BAD, R.SYS_STRAP_PAIR, R.SYS_STRAP_SIDE, R.SYS_STRAP_ROLE] else
  if o = 0x44 then [R.SYS_NODEID_SRC, R.SYS_NODEID_VALID, R.SYS_NODEID_ID] else
  []

/-- The block fields of the word at page offset `o` of CLK (a 64-bit register at its low offset). -/
def fieldsCLK (o : Nat) : List Fld :=
  if o = 0x40 then [R.CLK_STA_FIELDOK, R.CLK_STA_ACTLK, R.CLK_STA_TIMELK, R.CLK_STA_MEMLK, R.CLK_STA_SIGLK, R.CLK_STA_CORELK, R.CLK_STA_REFOK] else
  if o = 0x44 then [R.CLK_LANELK_LK] else
  if o = 0x48 then [R.CLK_LLCNT_CNT] else
  if o = 0x4C then [R.CLK_CMD_CCLR] else
  []

/-- The block fields of the word at page offset `o` of PWR (a 64-bit register at its low offset). -/
def fieldsPWR (o : Nat) : List Fld :=
  if o = 0x40 then [R.PWR_RSTC_WIPER, R.PWR_RSTC_CLKF, R.PWR_RSTC_THSD, R.PWR_RSTC_OVSD, R.PWR_RSTC_BROWN, R.PWR_RSTC_CAUSE] else
  if o = 0x44 then [R.PWR_SWRST_GO, R.PWR_SWRST_ARM] else
  if o = 0x48 then [R.PWR_VIN_VMIN, R.PWR_VIN_VIN] else
  if o = 0x4C then [R.PWR_RAIL_OK] else
  if o = 0x50 then [R.PWR_CMD_CCLR] else
  []

/-- The block fields of the word at page offset `o` of FCU (a 64-bit register at its low offset). -/
def fieldsFCU (o : Nat) : List Fld :=
  if 0x40 ≤ o ∧ o < 0x50 ∧ (o - 0x40) % 0x4 = 0 then [R.FCU_STK_STK ((o - 0x40) / 0x4)] else
  if 0x50 ≤ o ∧ o < 0x60 ∧ (o - 0x50) % 0x4 = 0 then [R.FCU_SEV_SEV ((o - 0x50) / 0x4)] else
  if o = 0x60 then [R.FCU_TIME_TIME] else
  if o = 0x68 then [R.FCU_CMD_LCLR, R.FCU_CMD_UNL, R.FCU_CMD_SRC] else
  if o = 0x6C then [R.FCU_GSTA_NSEV, R.FCU_GSTA_LATG, R.FCU_GSTA_SEVG] else
  if o = 0x70 then [R.FCU_LOGWR_UNREAD, R.FCU_LOGWR_IDX] else
  if o = 0x74 then [R.FCU_LOGRD_IDX] else
  if o = 0x7C then [R.FCU_LOGIDX_IDX] else
  if o = 0x78 then [R.FCU_LOST_LOST] else
  if 0x80 ≤ o ∧ o < 0x90 ∧ (o - 0x80) % 0x4 = 0 then [R.FCU_LOGDATA_WORD ((o - 0x80) / 0x4)] else
  if 0x100 ≤ o ∧ o < 0x500 ∧ (o - 0x100) % 0x8 = 0 then [R.FCU_SCFG_EN ((o - 0x100) / 0x8), R.FCU_SCFG_GATE ((o - 0x100) / 0x8), R.FCU_SCFG_REACT ((o - 0x100) / 0x8), R.FCU_SCFG_NM1 ((o - 0x100) / 0x8), R.FCU_SCFG_W ((o - 0x100) / 0x8)] else
  if 0x104 ≤ o ∧ o < 0x504 ∧ (o - 0x104) % 0x8 = 0 then [R.FCU_SQCFG_RCAP ((o - 0x104) / 0x8), R.FCU_SQCFG_Q ((o - 0x104) / 0x8)] else
  if 0x500 ≤ o ∧ o < 0x700 ∧ (o - 0x500) % 0x4 = 0 then [R.FCU_SST_RCNT ((o - 0x500) / 0x4), R.FCU_SST_STATE ((o - 0x500) / 0x4)] else
  []

/-- Page offset `o` of FCU is the low word of a 64-bit register (R10). -/
def wideFCU (o : Nat) : Bool := decide (o = 0x60)

/-- The block fields of the word at page offset `o` of ALM (a 64-bit register at its low offset). -/
def fieldsALM (o : Nat) : List Fld :=
  if o = 0x40 then [R.ALM_STA_EPOCH, R.ALM_STA_FULL, R.ALM_STA_BUSY, R.ALM_STA_WIDX] else
  if o = 0x44 then [R.ALM_POH_POH] else
  if o = 0x48 then [R.ALM_PDM_SIG, R.ALM_PDM_CORE] else
  if o = 0x4C then [R.ALM_TDIE_TLIM, R.ALM_TDIE_TDIE] else
  if o = 0x50 then [R.ALM_KEST0_ESR, R.ALM_KEST0_CEST] else
  if o = 0x54 then [R.ALM_KEST1_TCYC, R.ALM_KEST1_VDRIFT] else
  if o = 0x58 then [R.ALM_GB_DREF, R.ALM_GB_GBS, R.ALM_GB_GBC] else
  if o = 0x5C then [R.ALM_PLAN_DREF, R.ALM_PLAN_GBS, R.ALM_PLAN_GBC] else
  if o = 0x60 then [R.ALM_GBMIN_GBSMIN, R.ALM_GBMIN_GBCMIN] else
  if o = 0x64 then [R.ALM_CMD_EPCLOSE, R.ALM_CMD_EPOPEN] else
  if o = 0x68 then [R.ALM_WCNT_WFC] else
  if o = 0x6C then [R.ALM_RIDX_WORD, R.ALM_RIDX_ENTRY] else
  if o = 0x70 then [R.ALM_RDATA_DATA] else
  []

/-- The block fields of the word at page offset `o` of SEC (a 64-bit register at its low offset). -/
def fieldsSEC (o : Nat) : List Fld :=
  if o = 0x40 then [R.SEC_STA_OERR, R.SEC_STA_BUSY, R.SEC_STA_IDVALID, R.SEC_STA_NEXTRDY, R.SEC_STA_SIGRDY, R.SEC_STA_DBGOPEN, R.SEC_STA_LCS, R.SEC_STA_OSLOT, R.SEC_STA_VSLOT, R.SEC_STA_BSTAGE] else
  if o = 0x44 then [R.SEC_CMD_SVNCOMMIT, R.SEC_CMD_MLOCK, R.SEC_CMD_EXTEND, R.SEC_CMD_ATTEST, R.SEC_CMD_SIGN, R.SEC_CMD_VERIFY, R.SEC_CMD_ORDER, R.SEC_CMD_NONCE] else
  if o = 0x48 then [R.SEC_OPARG_SVNK, R.SEC_OPARG_MIDX] else
  if o = 0x50 then [R.SEC_MADDR_ADDR] else
  if o = 0x58 then [R.SEC_MLEN_LEN] else
  if o = 0x5C then [R.SEC_RES_OLEN, R.SEC_RES_OK] else
  if o = 0x60 then [R.SEC_IDX_VAL] else
  if o = 0x68 then [R.SEC_RESV_VAL] else
  if o = 0x70 then [R.SEC_SVN_OWNER, R.SEC_SVN_VENDOR] else
  if o = 0x74 then [R.SEC_SIGC_SIGC] else
  if o = 0x78 then [R.SEC_SKIP_SKIP] else
  if 0x80 ≤ o ∧ o < 0xA0 ∧ (o - 0x80) % 0x4 = 0 then [R.SEC_NONCE_WORD ((o - 0x80) / 0x4)] else
  if 0x100 ≤ o ∧ o < 0x180 ∧ (o - 0x100) % 0x20 < 0x20 ∧ (o - 0x100) % 0x20 % 0x4 = 0 then [R.SEC_MEAS_WORD ((o - 0x100) / 0x20) ((o - 0x100) % 0x20 / 0x4)] else
  if 0x180 ≤ o ∧ o < 0x1C4 ∧ (o - 0x180) % 0x4 = 0 then [R.SEC_IDPK_WORD ((o - 0x180) / 0x4)] else
  if o = 0x1C8 then [R.SEC_SERIAL_SERIAL] else
  if o = 0x1D0 then [R.SEC_DBG_SCOPE] else
  if 0x400 ≤ o ∧ o < 0x1000 ∧ (o - 0x400) % 0x4 = 0 then [R.SEC_BUF_WORD ((o - 0x400) / 0x4)] else
  []

/-- Page offset `o` of SEC is the low word of a 64-bit register (R10). -/
def wideSEC (o : Nat) : Bool := decide (o = 0x50 ∨ o = 0x60 ∨ o = 0x68 ∨ o = 0x1C8)

/-- The block fields of the word at page offset `o` of TBS (a 64-bit register at its low offset). -/
def fieldsTBS (o : Nat) : List Fld :=
  if o = 0x40 then [R.TBS_CFG_JUMPLIM, R.TBS_CFG_HOLDTMO, R.TBS_CFG_AUTOACC, R.TBS_CFG_SRC] else
  if o = 0x44 then [R.TBS_GAIN_GI, R.TBS_GAIN_GP] else
  if o = 0x48 then [R.TBS_FMAX_FMAX] else
  if o = 0x4C then [R.TBS_STA_CMDREF, R.TBS_STA_UHOLD, R.TBS_STA_STATE] else
  if o = 0x50 then [R.TBS_FADJ_VAL] else
  if o = 0x54 then [R.TBS_FINT_VAL] else
  if o = 0x58 then [R.TBS_OFSIN_OFS] else
  if o = 0x60 then [R.TBS_PEND_PEND] else
  if o = 0x68 then [R.TBS_MON_MON] else
  if o = 0x6C then [R.TBS_CMD_CCLR, R.TBS_CMD_RESUME, R.TBS_CMD_ACCEPT, R.TBS_CMD_SNAP] else
  if o = 0x70 then [R.TBS_SNAPS_SEC] else
  if o = 0x80 then [R.TBS_STRKS_SEC] else
  if o = 0x78 then [R.TBS_SNAPN_NS] else
  if o = 0x88 then [R.TBS_STRKN_NS] else
  if o = 0x7C then [R.TBS_SNAPF_TICK, R.TBS_SNAPF_SUB] else
  if o = 0x8C then [R.TBS_STRKF_TICK, R.TBS_STRKF_SUB] else
  if o = 0x90 then [R.TBS_CNT_REFC, R.TBS_CNT_STEPC] else
  []

/-- Page offset `o` of TBS is the low word of a 64-bit register (R10). -/
def wideTBS (o : Nat) : Bool := decide (o = 0x58 ∨ o = 0x60 ∨ o = 0x70 ∨ o = 0x80)

/-- The block fields of the word at page offset `o` of TCK (a 64-bit register at its low offset). -/
def fieldsTCK (o : Nat) : List Fld :=
  if o = 0x40 then [R.TCK_PER_PER] else
  if o = 0x44 then [R.TCK_MINP_MINP] else
  if o = 0x48 then [R.TCK_CDL_CDL] else
  if o = 0x4C then [R.TCK_CPER_MM1] else
  if o = 0x50 then [R.TCK_HOLD_HCNT, R.TCK_HOLD_HOLDLIM] else
  if o = 0x54 then [R.TCK_RPT_WIN1, R.TCK_RPT_CONS1, R.TCK_RPT_WIN0, R.TCK_RPT_CONS0] else
  if o = 0x58 then [R.TCK_LAST_CMDAT, R.TCK_LAST_HDONE] else
  if o = 0x60 then [R.TCK_NUM_NUM] else
  if o = 0x68 then [R.TCK_DRNC_TLM, R.TCK_DRNC_CTL] else
  if o = 0x6C then [R.TCK_CLR_RCLR, R.TCK_CLR_DCLR] else
  if o = 0x70 then [R.TCK_STAT_CSTATE, R.TCK_STAT_ALGN, R.TCK_STAT_TPCHG, R.TCK_STAT_PERR, R.TCK_STAT_LOCK] else
  if o = 0x74 then [R.TCK_PNEW_PNEW] else
  []

/-- Page offset `o` of TCK is the low word of a 64-bit register (R10). -/
def wideTCK (o : Nat) : Bool := decide (o = 0x60)

/-- The block fields of the word at page offset `o` of DSX (a 64-bit register at its low offset). -/
def fieldsDSX (o : Nat) : List Fld :=
  if o = 0x40 then [R.DSX_CRUN_RUNNING, R.DSX_CRUN_START] else
  if o = 0x44 then [R.DSX_CBOOT_ADDR] else
  if o = 0x48 then [R.DSX_POST_NUM, R.DSX_POST_ARG] else
  if o = 0x4C then [R.DSX_CANCEL_GO, R.DSX_CANCEL_SRC] else
  if o = 0x50 then [R.DSX_POOL_MINFREE, R.DSX_POOL_FREE] else
  if o = 0x54 then [R.DSX_DROP_POOL] else
  if o = 0x58 then [R.DSX_CNCL_CANC, R.DSX_CNCL_SAME] else
  if o = 0x5C then [R.DSX_DRN_DRN] else
  if o = 0x60 then [R.DSX_WDG_LIMIT] else
  if o = 0x64 then [R.DSX_WFLG_WDG] else
  if o = 0x68 then [R.DSX_CMD_CCLR] else
  if 0x80 ≤ o ∧ o < 0xA0 ∧ (o - 0x80) % 0x4 = 0 then [R.DSX_CST_HELD ((o - 0x80) / 0x4), R.DSX_CST_SLOTV ((o - 0x80) / 0x4), R.DSX_CST_PRIO ((o - 0x80) / 0x4), R.DSX_CST_DOM ((o - 0x80) / 0x4), R.DSX_CST_SRC ((o - 0x80) / 0x4)] else
  if 0xC0 ≤ o ∧ o < 0x100 ∧ (o - 0xC0) % 0x8 = 0 then [R.DSX_SLOT_DESC ((o - 0xC0) / 0x8)] else
  if 0x100 ≤ o ∧ o < 0x180 ∧ (o - 0x100) % 0x8 = 0 then [R.DSX_TMRCFG_EN ((o - 0x100) / 0x8), R.DSX_TMRCFG_PER ((o - 0x100) / 0x8), R.DSX_TMRCFG_INTV ((o - 0x100) / 0x8)] else
  if 0x104 ≤ o ∧ o < 0x184 ∧ (o - 0x104) % 0x8 = 0 then [R.DSX_TMRCNT_CNT ((o - 0x104) / 0x8)] else
  if 0x400 ≤ o ∧ o < 0x800 ∧ (o - 0x400) % 0x4 = 0 then [R.DSX_SRC_EN ((o - 0x400) / 0x4), R.DSX_SRC_UNORD ((o - 0x400) / 0x4), R.DSX_SRC_COAL ((o - 0x400) / 0x4), R.DSX_SRC_DROPF ((o - 0x400) / 0x4), R.DSX_SRC_PRIO ((o - 0x400) / 0x4), R.DSX_SRC_DOM ((o - 0x400) / 0x4), R.DSX_SRC_CMASK ((o - 0x400) / 0x4)] else
  []

/-- Page offset `o` of DSX is the low word of a 64-bit register (R10). -/
def wideDSX (o : Nat) : Bool := decide ((0xC0 ≤ o ∧ o < 0x100 ∧ (o - 0xC0) % 0x8 = 0))

/-- The block fields of the word at page offset `o` of PMU (a 64-bit register at its low offset). -/
def fieldsPMU (o : Nat) : List Fld :=
  if 0x100 ≤ o ∧ o < 0x500 ∧ (o - 0x100) % 0x80 < 0x18 ∧ (o - 0x100) % 0x80 % 0x4 = 0 then [R.PMU_EVSEL_OVIE ((o - 0x100) / 0x80) ((o - 0x100) % 0x80 / 0x4), R.PMU_EVSEL_MMODE ((o - 0x100) / 0x80) ((o - 0x100) % 0x80 / 0x4), R.PMU_EVSEL_UMODE ((o - 0x100) / 0x80) ((o - 0x100) % 0x80 / 0x4), R.PMU_EVSEL_EVT ((o - 0x100) / 0x80) ((o - 0x100) % 0x80 / 0x4)] else
  if 0x118 ≤ o ∧ o < 0x518 ∧ (o - 0x118) % 0x80 = 0 then [R.PMU_PCTL_FZOV ((o - 0x118) / 0x80), R.PMU_PCTL_FRZ ((o - 0x118) / 0x80)] else
  if 0x11C ≤ o ∧ o < 0x51C ∧ (o - 0x11C) % 0x80 = 0 then [R.PMU_OVF_PSBFULL ((o - 0x11C) / 0x80), R.PMU_OVF_PSBTH ((o - 0x11C) / 0x80), R.PMU_OVF_OV ((o - 0x11C) / 0x80)] else
  if 0x120 ≤ o ∧ o < 0x520 ∧ (o - 0x120) % 0x80 < 0x30 ∧ (o - 0x120) % 0x80 % 0x8 = 0 then [R.PMU_CNT_CNT ((o - 0x120) / 0x80) ((o - 0x120) % 0x80 / 0x8)] else
  if 0x150 ≤ o ∧ o < 0x550 ∧ (o - 0x150) % 0x80 = 0 then [R.PMU_USEREN_EN ((o - 0x150) / 0x80)] else
  if 0x154 ≤ o ∧ o < 0x554 ∧ (o - 0x154) % 0x80 = 0 then [R.PMU_PSBCFG_EN ((o - 0x154) / 0x80), R.PMU_PSBCFG_IE ((o - 0x154) / 0x80), R.PMU_PSBCFG_CLASS ((o - 0x154) / 0x80), R.PMU_PSBCFG_DITHER ((o - 0x154) / 0x80), R.PMU_PSBCFG_PERIOD ((o - 0x154) / 0x80)] else
  if 0x158 ≤ o ∧ o < 0x558 ∧ (o - 0x158) % 0x80 = 0 then [R.PMU_PSBTHR_THR ((o - 0x158) / 0x80)] else
  if 0x15C ≤ o ∧ o < 0x55C ∧ (o - 0x15C) % 0x80 = 0 then [R.PMU_PSBSTA_SEQ ((o - 0x15C) / 0x80), R.PMU_PSBSTA_COUNT ((o - 0x15C) / 0x80)] else
  if 0x164 ≤ o ∧ o < 0x564 ∧ (o - 0x164) % 0x80 < 0x10 ∧ (o - 0x164) % 0x80 % 0x4 = 0 then [R.PMU_PSBRD_WORD ((o - 0x164) / 0x80) ((o - 0x164) % 0x80 / 0x4)] else
  if 0x160 ≤ o ∧ o < 0x560 ∧ (o - 0x160) % 0x80 = 0 then [R.PMU_PSBLOST_LOST ((o - 0x160) / 0x80)] else
  []

/-- Page offset `o` of PMU is the low word of a 64-bit register (R10). -/
def widePMU (o : Nat) : Bool := decide ((0x120 ≤ o ∧ o < 0x520 ∧ (o - 0x120) % 0x80 < 0x30 ∧ (o - 0x120) % 0x80 % 0x8 = 0))

/-- The block fields of the word at page offset `o` of MEMC (a 64-bit register at its low offset). -/
def fieldsMEMC (o : Nat) : List Fld :=
  if o = 0x40 then [R.MEMC_STA_SCRB, R.MEMC_STA_RATE] else
  if o = 0x44 then [R.MEMC_SCRB_PASS] else
  if o = 0x48 then [R.MEMC_CEC_CEC] else
  if o = 0x50 then [R.MEMC_UEA_ADDR] else
  []

/-- Page offset `o` of MEMC is the low word of a 64-bit register (R10). -/
def wideMEMC (o : Nat) : Bool := decide (o = 0x50)

/-- The block fields of the word at page offset `o` of RED (a 64-bit register at its low offset). -/
def fieldsRED (o : Nat) : List Fld :=
  if o = 0x40 then [R.RED_CFG_RVH, R.RED_CFG_SILN, R.RED_CFG_HBN, R.RED_CFG_READYN, R.RED_CFG_PRIM] else
  if o = 0x44 then [R.RED_STA_REASON, R.RED_STA_CMDREF, R.RED_STA_COLD, R.RED_STA_PPRES, R.RED_STA_PREADY, R.RED_STA_READY, R.RED_STA_STATE] else
  if o = 0x48 then [R.RED_CMD_CCLR, R.RED_CMD_YIELD] else
  if o = 0x4C then [R.RED_HB_HB] else
  if o = 0x50 then [R.RED_MODE_MODE] else
  if o = 0x54 then [R.RED_PMODE_MODE] else
  if o = 0x58 then [R.RED_MSELC_CH] else
  if o = 0x5C then [R.RED_MSELP_ARMS, R.RED_MSELP_PGN] else
  if o = 0x60 then [R.RED_MOFS_OFS] else
  if o = 0x64 then [R.RED_EPOCH_EPOCH] else
  if o = 0x68 then [R.RED_CNT_MLOSTC, R.RED_CNT_TKOC] else
  if o = 0x6C then [R.RED_TKO_TICK] else
  if o = 0x70 then [R.RED_MLEN_SEGS, R.RED_MLEN_BYTES] else
  if o = 0x74 then [R.RED_RVCNT_CNT] else
  []

/-- The block fields of the word at page offset `o` of ACQ (a 64-bit register at its low offset). -/
def fieldsACQ (o : Nat) : List Fld :=
  if o = 0x40 then [R.ACQ_CFG_SOFS, R.ACQ_CFG_RETRIG, R.ACQ_CFG_STOPV, R.ACQ_CFG_SDM1] else
  if o = 0x44 then [R.ACQ_WIN_POST, R.ACQ_WIN_PRE] else
  if o = 0x48 then [R.ACQ_MAXP_MAXPOST] else
  if o = 0x4C then [R.ACQ_HBASE_BASE] else
  if o = 0x58 then [R.ACQ_RBASE_BASE] else
  if o = 0x50 then [R.ACQ_HDEP_HDEP] else
  if o = 0x54 then [R.ACQ_HSIZE_SIZE] else
  if o = 0x5C then [R.ACQ_RSIZE_SIZE] else
  if o = 0x60 then [R.ACQ_WRPTR_PTR] else
  if o = 0x64 then [R.ACQ_RDPTR_PTR] else
  if o = 0x68 then [R.ACQ_CMD_CCLR, R.ACQ_CMD_STOP, R.ACQ_CMD_FORCE, R.ACQ_CMD_ARM] else
  if o = 0x6C then [R.ACQ_STA_CFGERR, R.ACQ_STA_CMDREF, R.ACQ_STA_SCAUSE, R.ACQ_STA_STATE] else
  if o = 0x70 then [R.ACQ_RSEQ_VAL] else
  if o = 0x74 then [R.ACQ_DEAD_VAL] else
  if o = 0x78 then [R.ACQ_CNT_MISSED, R.ACQ_CNT_OVFC] else
  if o = 0x7C then [R.ACQ_MEAS_EN, R.ACQ_MEAS_ENG, R.ACQ_MEAS_CH, R.ACQ_MEAS_MWM1] else
  if o = 0x80 then [R.ACQ_MADR_YADDR, R.ACQ_MADR_XADDR] else
  if o = 0x84 then [R.ACQ_MLVL_VAL] else
  if o = 0x88 then [R.ACQ_MTMO_VAL] else
  if 0x100 ≤ o ∧ o < 0x300 ∧ (o - 0x100) % 0x8 = 0 then [R.ACQ_CHSRC_EN ((o - 0x100) / 0x8), R.ACQ_CHSRC_SGN ((o - 0x100) / 0x8), R.ACQ_CHSRC_TYPE ((o - 0x100) / 0x8), R.ACQ_CHSRC_SEL ((o - 0x100) / 0x8)] else
  if 0x104 ≤ o ∧ o < 0x304 ∧ (o - 0x104) % 0x8 = 0 then [R.ACQ_CHMOD_CO ((o - 0x104) / 0x8), R.ACQ_CHMOD_DB ((o - 0x104) / 0x8)] else
  if 0x300 ≤ o ∧ o < 0x700 ∧ (o - 0x300) % 0x10 = 0 then [R.ACQ_TCFG_EN ((o - 0x300) / 0x10), R.ACQ_TCFG_TYPE ((o - 0x300) / 0x10), R.ACQ_TCFG_CH ((o - 0x300) / 0x10)] else
  if 0x304 ≤ o ∧ o < 0x704 ∧ (o - 0x304) % 0x10 = 0 then [R.ACQ_LVL_LVL ((o - 0x304) / 0x10)] else
  if 0x308 ≤ o ∧ o < 0x708 ∧ (o - 0x308) % 0x10 = 0 then [R.ACQ_LVL2_LVL2 ((o - 0x308) / 0x10)] else
  if 0x30C ≤ o ∧ o < 0x70C ∧ (o - 0x30C) % 0x10 = 0 then [R.ACQ_HYS_HYS ((o - 0x30C) / 0x10)] else
  if 0x800 ≤ o ∧ o < 0x900 ∧ (o - 0x800) % 0x40 = 0 then [R.ACQ_MCFG_EN ((o - 0x800) / 0x40), R.ACQ_MCFG_CH ((o - 0x800) / 0x40), R.ACQ_MCFG_REF ((o - 0x800) / 0x40)] else
  if 0x804 ≤ o ∧ o < 0x904 ∧ (o - 0x804) % 0x40 = 0 then [R.ACQ_DLO_LO ((o - 0x804) / 0x40)] else
  if 0x808 ≤ o ∧ o < 0x908 ∧ (o - 0x808) % 0x40 = 0 then [R.ACQ_DHI_HI ((o - 0x808) / 0x40)] else
  if 0x810 ≤ o ∧ o < 0x910 ∧ (o - 0x810) % 0x40 < 0x30 ∧ (o - 0x810) % 0x40 % 0xC = 0 then [R.ACQ_SLEN_LEN ((o - 0x810) / 0x40) ((o - 0x810) % 0x40 / 0xC)] else
  if 0x814 ≤ o ∧ o < 0x914 ∧ (o - 0x814) % 0x40 < 0x30 ∧ (o - 0x814) % 0x40 % 0xC = 0 then [R.ACQ_SLO_LO ((o - 0x814) / 0x40) ((o - 0x814) % 0x40 / 0xC)] else
  if 0x818 ≤ o ∧ o < 0x918 ∧ (o - 0x818) % 0x40 < 0x30 ∧ (o - 0x818) % 0x40 % 0xC = 0 then [R.ACQ_SHI_HI ((o - 0x818) / 0x40) ((o - 0x818) % 0x40 / 0xC)] else
  []

/-- The block fields of the word at page offset `o` of PGN (a 64-bit register at its low offset). -/
def fieldsPGN (o : Nat) : List Fld :=
  if o = 0x40 then [R.PGN_CMD_PRESET] else
  if o = 0x44 then [R.PGN_FLG_PERR] else
  if 0x100 ≤ o ∧ o < 0x500 ∧ (o - 0x100) % 0x40 = 0 then [R.PGN_TGT_TGT ((o - 0x100) / 0x40)] else
  if 0x108 ≤ o ∧ o < 0x508 ∧ (o - 0x108) % 0x40 = 0 then [R.PGN_VMAX_VMAX ((o - 0x108) / 0x40)] else
  if 0x110 ≤ o ∧ o < 0x510 ∧ (o - 0x110) % 0x40 = 0 then [R.PGN_AMAX_AMAX ((o - 0x110) / 0x40)] else
  if 0x118 ≤ o ∧ o < 0x518 ∧ (o - 0x118) % 0x40 = 0 then [R.PGN_JMAX_JMAX ((o - 0x118) / 0x40)] else
  if 0x120 ≤ o ∧ o < 0x520 ∧ (o - 0x120) % 0x40 = 0 then [R.PGN_P_P ((o - 0x120) / 0x40)] else
  if 0x128 ≤ o ∧ o < 0x528 ∧ (o - 0x128) % 0x40 = 0 then [R.PGN_V_V ((o - 0x128) / 0x40)] else
  if 0x130 ≤ o ∧ o < 0x530 ∧ (o - 0x130) % 0x40 = 0 then [R.PGN_A_A ((o - 0x130) / 0x40)] else
  if 0x138 ≤ o ∧ o < 0x538 ∧ (o - 0x138) % 0x40 = 0 then [R.PGN_PCFG_EN ((o - 0x138) / 0x40), R.PGN_PCFG_PHASE ((o - 0x138) / 0x40), R.PGN_PCFG_DM1 ((o - 0x138) / 0x40)] else
  if 0x13C ≤ o ∧ o < 0x53C ∧ (o - 0x13C) % 0x40 = 0 then [R.PGN_PSTA_OVS ((o - 0x13C) / 0x40), R.PGN_PSTA_VOL ((o - 0x13C) / 0x40), R.PGN_PSTA_AOL ((o - 0x13C) / 0x40), R.PGN_PSTA_MOVING ((o - 0x13C) / 0x40), R.PGN_PSTA_AT ((o - 0x13C) / 0x40)] else
  []

/-- Page offset `o` of PGN is the low word of a 64-bit register (R10). -/
def widePGN (o : Nat) : Bool := decide ((0x100 ≤ o ∧ o < 0x500 ∧ (o - 0x100) % 0x40 = 0) ∨ (0x108 ≤ o ∧ o < 0x508 ∧ (o - 0x108) % 0x40 = 0) ∨ (0x110 ≤ o ∧ o < 0x510 ∧ (o - 0x110) % 0x40 = 0) ∨ (0x118 ≤ o ∧ o < 0x518 ∧ (o - 0x118) % 0x40 = 0) ∨ (0x120 ≤ o ∧ o < 0x520 ∧ (o - 0x120) % 0x40 = 0) ∨ (0x128 ≤ o ∧ o < 0x528 ∧ (o - 0x128) % 0x40 = 0) ∨ (0x130 ≤ o ∧ o < 0x530 ∧ (o - 0x130) % 0x40 = 0))

/-- The block fields of the word at page offset `o` of CLE (a 64-bit register at its low offset). -/
def fieldsCLE (o : Nat) : List Fld :=
  if o = 0x40 then [R.CLE_FLG_XFERR, R.CLE_FLG_PTRERR, R.CLE_FLG_PERR] else
  if o = 0x44 then [R.CLE_SKIPC_SKIP, R.CLE_SKIPC_MIXC] else
  if o = 0x48 then [R.CLE_CMD_CCLR, R.CLE_CMD_RUN, R.CLE_CMD_CHAN] else
  if o = 0x4C then [R.CLE_COASTF_COAST] else
  if 0x200 ≤ o ∧ o < 0x400 ∧ (o - 0x200) % 0x10 = 0 then [R.CLE_IDIM_NY ((o - 0x200) / 0x10), R.CLE_IDIM_NR ((o - 0x200) / 0x10), R.CLE_IDIM_NU ((o - 0x200) / 0x10), R.CLE_IDIM_NX ((o - 0x200) / 0x10)] else
  if 0x204 ≤ o ∧ o < 0x404 ∧ (o - 0x204) % 0x10 = 0 then [R.CLE_ICFG_COASTACT ((o - 0x204) / 0x10), R.CLE_ICFG_SHX ((o - 0x204) / 0x10), R.CLE_ICFG_SHU ((o - 0x204) / 0x10), R.CLE_ICFG_SHE ((o - 0x204) / 0x10)] else
  if 0x208 ≤ o ∧ o < 0x408 ∧ (o - 0x208) % 0x10 = 0 then [R.CLE_IFR_FRZWIN ((o - 0x208) / 0x10), R.CLE_IFR_FRZN ((o - 0x208) / 0x10), R.CLE_IFR_COASTLIM ((o - 0x208) / 0x10)] else
  if 0x20C ≤ o ∧ o < 0x40C ∧ (o - 0x20C) % 0x10 = 0 then [R.CLE_IST_WCNT ((o - 0x20C) / 0x10), R.CLE_IST_COAST ((o - 0x20C) / 0x10), R.CLE_IST_LOST ((o - 0x20C) / 0x10), R.CLE_IST_FROZ ((o - 0x20C) / 0x10), R.CLE_IST_MIXL ((o - 0x20C) / 0x10), R.CLE_IST_USAT ((o - 0x20C) / 0x10)] else
  if 0x400 ≤ o ∧ o < 0x600 ∧ (o - 0x400) % 0x10 = 0 then [R.CLE_CCFG_EN ((o - 0x400) / 0x10), R.CLE_CCFG_XFER ((o - 0x400) / 0x10), R.CLE_CCFG_TRG ((o - 0x400) / 0x10), R.CLE_CCFG_DM1 ((o - 0x400) / 0x10), R.CLE_CCFG_PHASE ((o - 0x400) / 0x10), R.CLE_CCFG_ARM ((o - 0x400) / 0x10), R.CLE_CCFG_SRCCH ((o - 0x400) / 0x10), R.CLE_CCFG_OFS ((o - 0x400) / 0x10)] else
  if 0x404 ≤ o ∧ o < 0x604 ∧ (o - 0x404) % 0x10 = 0 then [R.CLE_CINST_INST ((o - 0x404) / 0x10)] else
  if 0x408 ≤ o ∧ o < 0x608 ∧ (o - 0x408) % 0x10 = 0 then [R.CLE_CST_OSEQ ((o - 0x408) / 0x10), R.CLE_CST_TSTART ((o - 0x408) / 0x10)] else
  if 0x40C ≤ o ∧ o < 0x60C ∧ (o - 0x40C) % 0x10 = 0 then [R.CLE_CFLG_LATE ((o - 0x40C) / 0x10), R.CLE_CFLG_BUSY ((o - 0x40C) / 0x10), R.CLE_CFLG_MIX ((o - 0x40C) / 0x10), R.CLE_CFLG_SAT ((o - 0x40C) / 0x10)] else
  if 0x800 ≤ o ∧ o < 0xC00 ∧ (o - 0x800) % 0x4 = 0 then [R.CLE_OUT_U ((o - 0x800) / 0x4)] else
  if 0xC00 ≤ o ∧ o < 0x1000 ∧ (o - 0xC00) % 0x8 = 0 then [R.CLE_MEAS_SEQ ((o - 0xC00) / 0x8), R.CLE_MEAS_VAL ((o - 0xC00) / 0x8)] else
  []

/-- Page offset `o` of CLE is the low word of a 64-bit register (R10). -/
def wideCLE (o : Nat) : Bool := decide ((0xC00 ≤ o ∧ o < 0x1000 ∧ (o - 0xC00) % 0x8 = 0))

/-- The block fields of the word at page offset `o` of RSE (a 64-bit register at its low offset). -/
def fieldsRSE (o : Nat) : List Fld :=
  if o = 0x40 then [R.RSE_TADDR_INDEX] else
  if o = 0x44 then [R.RSE_TDATA_LOSTCNT, R.RSE_TDATA_LEFT, R.RSE_TDATA_UNREACH, R.RSE_TDATA_HELD, R.RSE_TDATA_CAND, R.RSE_TDATA_TRIMP, R.RSE_TDATA_EST, R.RSE_TDATA_FB, R.RSE_TDATA_PRES] else
  if o = 0x48 then [R.RSE_CMD_RHOCLR1, R.RSE_CMD_RHOCLR0, R.RSE_CMD_TCLR] else
  if 0x100 ≤ o ∧ o < 0x200 ∧ (o - 0x100) % 0x80 = 0 then [R.RSE_CFG_RHOMAX ((o - 0x100) / 0x80), R.RSE_CFG_IARMSEL ((o - 0x100) / 0x80), R.RSE_CFG_VREFSEL ((o - 0x100) / 0x80), R.RSE_CFG_ECOMP ((o - 0x100) / 0x80), R.RSE_CFG_TRIMEN ((o - 0x100) / 0x80), R.RSE_CFG_EN ((o - 0x100) / 0x80)] else
  if 0x104 ≤ o ∧ o < 0x204 ∧ (o - 0x104) % 0x80 = 0 then [R.RSE_TRIM_IDB ((o - 0x104) / 0x80), R.RSE_TRIM_PMIN ((o - 0x104) / 0x80)] else
  if 0x108 ≤ o ∧ o < 0x208 ∧ (o - 0x108) % 0x80 = 0 then [R.RSE_LOST_LOSTLIM ((o - 0x108) / 0x80)] else
  if 0x10C ≤ o ∧ o < 0x20C ∧ (o - 0x10C) % 0x80 = 0 then [R.RSE_RHO_RHO ((o - 0x10C) / 0x80)] else
  if 0x110 ≤ o ∧ o < 0x210 ∧ (o - 0x110) % 0x80 = 0 then [R.RSE_THR_KSEL ((o - 0x110) / 0x80), R.RSE_THR_TRV ((o - 0x110) / 0x80), R.RSE_THR_THR ((o - 0x110) / 0x80)] else
  if 0x114 ≤ o ∧ o < 0x214 ∧ (o - 0x114) % 0x80 = 0 then [R.RSE_IDS_TRIM ((o - 0x114) / 0x80), R.RSE_IDS_TIE ((o - 0x114) / 0x80)] else
  if 0x118 ≤ o ∧ o < 0x218 ∧ (o - 0x118) % 0x80 = 0 then [R.RSE_TOFF_TOFF ((o - 0x118) / 0x80)] else
  if 0x11C ≤ o ∧ o < 0x21C ∧ (o - 0x11C) % 0x80 = 0 then [R.RSE_LEV_NINS ((o - 0x11C) / 0x80), R.RSE_LEV_LEVEL ((o - 0x11C) / 0x80)] else
  if 0x120 ≤ o ∧ o < 0x220 ∧ (o - 0x120) % 0x80 = 0 then [R.RSE_CNT_NHELD ((o - 0x120) / 0x80), R.RSE_CNT_NCAND ((o - 0x120) / 0x80)] else
  if 0x124 ≤ o ∧ o < 0x224 ∧ (o - 0x124) % 0x80 = 0 then [R.RSE_ERR_NMISS ((o - 0x124) / 0x80), R.RSE_ERR_EPS ((o - 0x124) / 0x80)] else
  if 0x128 ≤ o ∧ o < 0x228 ∧ (o - 0x128) % 0x80 = 0 then [R.RSE_NUM_NPRIME ((o - 0x128) / 0x80)] else
  if 0x12C ≤ o ∧ o < 0x22C ∧ (o - 0x12C) % 0x80 = 0 then [R.RSE_RHOLD_RINGS ((o - 0x12C) / 0x80)] else
  if 0x130 ≤ o ∧ o < 0x230 ∧ (o - 0x130) % 0x80 = 0 then [R.RSE_STCNT_SATC ((o - 0x130) / 0x80), R.RSE_STCNT_RHC ((o - 0x130) / 0x80)] else
  if 0x134 ≤ o ∧ o < 0x234 ∧ (o - 0x134) % 0x80 = 0 then [R.RSE_FLG_LEAVE ((o - 0x134) / 0x80), R.RSE_FLG_EPS ((o - 0x134) / 0x80), R.RSE_FLG_RHOLD ((o - 0x134) / 0x80), R.RSE_FLG_SAT ((o - 0x134) / 0x80)] else
  []

/-- The block fields of the word at page offset `o` of SE (a 64-bit register at its low offset). -/
def fieldsSE (q o : Nat) : List Fld :=
  if 0x40 ≤ o ∧ o < 0x50 ∧ (o - 0x40) % 0x4 = 0 then [R.SE_ENT_EN q ((o - 0x40) / 0x4), R.SE_ENT_LVL q ((o - 0x40) / 0x4), R.SE_ENT_TRG q ((o - 0x40) / 0x4), R.SE_ENT_OFS q ((o - 0x40) / 0x4), R.SE_ENT_DONEEV q ((o - 0x40) / 0x4), R.SE_ENT_ADDR q ((o - 0x40) / 0x4)] else
  if o = 0x50 then [R.SE_CMD_STOP q, R.SE_CMD_START q] else
  if o = 0x54 then [R.SE_RSTA_PC q, R.SE_RSTA_PEND q, R.SE_RSTA_LVL1ACT q, R.SE_RSTA_LVL0ACT q, R.SE_RSTA_RPT q, R.SE_RSTA_IOW q] else
  if o = 0x58 then [R.SE_TRAP_LVL q, R.SE_TRAP_CAUSE q, R.SE_TRAP_PC q] else
  if o = 0x5C then [R.SE_CYC_CYC q] else
  if o = 0x60 then [R.SE_MAXC_MAXC q] else
  if o = 0x64 then [R.SE_SKIPC_EVE q, R.SE_SKIPC_BUSY q] else
  if o = 0x68 then [R.SE_IOB_WIN q] else
  if o = 0x6C then [R.SE_ECC_CEC q, R.SE_ECC_MEM q, R.SE_ECC_ADDR q] else
  if o = 0x70 then [R.SE_CLR_CCLR q] else
  []

/-- The block fields of the word at page offset `o` of PWM (a 64-bit register at its low offset). -/
def fieldsPWM (o : Nat) : List Fld :=
  if o = 0x200 then [R.PWM_KNOM_VNOM] else
  if o = 0x204 then [R.PWM_KWGT_AGE, R.PWM_KWGT_STICK] else
  if o = 0x208 then [R.PWM_KCH_KEY] else
  if o = 0x20C then [R.PWM_KDIS_KEY] else
  if o = 0x210 then [R.PWM_IDEC_NEXT, R.PWM_IDEC_TRIMP, R.PWM_IDEC_ROW] else
  if o = 0x214 then [R.PWM_ITOFF_TOFF] else
  if o = 0x218 then [R.PWM_IRES_RESID] else
  if o = 0x21C then [R.PWM_ICMD_REJOIN, R.PWM_ICMD_LEAVE] else
  if o = 0x40 then [R.PWM_SCFG_BYPGF, R.PWM_SCFG_DTC, R.PWM_SCFG_FB, R.PWM_SCFG_MODE] else
  if o = 0x44 then [R.PWM_DT_MINP, R.PWM_DT_DT] else
  if o = 0x48 then [R.PWM_SWD_IDB, R.PWM_SWD_TDON, R.PWM_SWD_TDOFF] else
  if o = 0x4C then [R.PWM_GSTA_APPL, R.PWM_GSTA_PERR, R.PWM_GSTA_CLRREF, R.PWM_GSTA_FLTIN, R.PWM_GSTA_DTACT, R.PWM_GSTA_FRZ, R.PWM_GSTA_HIZ, R.PWM_GSTA_GOUT] else
  if o = 0x50 then [R.PWM_FCFG_FILT, R.PWM_FCFG_POL, R.PWM_FCFG_EN] else
  if o = 0x54 then [R.PWM_BYP_AUXPOL, R.PWM_BYP_ICH, R.PWM_BYP_OCH, R.PWM_BYP_SRC, R.PWM_BYP_CLRREF, R.PWM_BYP_CLR, R.PWM_BYP_SET, R.PWM_BYP_AUX, R.PWM_BYP_REQ] else
  if o = 0x58 then [R.PWM_SCNT_SUPP, R.PWM_SCNT_MPV] else
  if o = 0x60 then [R.PWM_CCFG_COMPB, R.PWM_CCFG_COMPA, R.PWM_CCFG_CENTER, R.PWM_CCFG_SYNC, R.PWM_CCFG_OEN] else
  if o = 0x64 then [R.PWM_CPER_CPER] else
  if 0x68 ≤ o ∧ o < 0x78 ∧ (o - 0x68) % 0x4 = 0 then [R.PWM_CCMP_CMP ((o - 0x68) / 0x4)] else
  if o = 0x78 then [R.PWM_CCNT_CNT] else
  if o = 0x7C then [R.PWM_CMD_CCLR] else
  []

/-- The block fields of the word at page offset `o` of ADC (a 64-bit register at its low offset). -/
def fieldsADC (o : Nat) : List Fld :=
  if o = 0x40 then [R.ADC_CFG_OTINT, R.ADC_CFG_STRIN1, R.ADC_CFG_STRIN0, R.ADC_CFG_OTRK, R.ADC_CFG_LP, R.ADC_CFG_STREN] else
  if o = 0x44 then [R.ADC_CMD_CCLR, R.ADC_CMD_CAL] else
  if o = 0x48 then [R.ADC_CSTA_PERR, R.ADC_CSTA_CALREF, R.ADC_CSTA_CALOK, R.ADC_CSTA_CALBUSY] else
  if o = 0x4C then [R.ADC_CALG_G1, R.ADC_CALG_G0] else
  if o = 0x50 then [R.ADC_CALO_O1, R.ADC_CALO_O0] else
  if o = 0x54 then [R.ADC_VSCL_SCALE] else
  if o = 0x58 then [R.ADC_OW_OWi] else
  if o = 0x5C then [R.ADC_SLOTA_TSW, R.ADC_SLOTA_VAUX] else
  if o = 0x60 then [R.ADC_SLOTB_TCAP] else
  if o = 0x64 then [R.ADC_SCNT_OTW, R.ADC_SCNT_SKIP] else
  if o = 0x68 then [R.ADC_STRK_VALID1, R.ADC_STRK_VALID0, R.ADC_STRK_TICK, R.ADC_STRK_CODE1, R.ADC_STRK_CODE0] else
  if 0x80 ≤ o ∧ o < 0xA0 ∧ (o - 0x80) % 0x8 = 0 then [R.ADC_LIM_HI ((o - 0x80) / 0x8), R.ADC_LIM_LO ((o - 0x80) / 0x8)] else
  if 0x84 ≤ o ∧ o < 0xA4 ∧ (o - 0x84) % 0x8 = 0 then [R.ADC_LIMCFG_PERS ((o - 0x84) / 0x8), R.ADC_LIMCFG_ACT ((o - 0x84) / 0x8), R.ADC_LIMCFG_CONV ((o - 0x84) / 0x8), R.ADC_LIMCFG_INPUT ((o - 0x84) / 0x8), R.ADC_LIMCFG_EN ((o - 0x84) / 0x8)] else
  if 0x100 ≤ o ∧ o < 0x180 ∧ (o - 0x100) % 0x40 < 0x40 ∧ (o - 0x100) % 0x40 % 0x4 = 0 then [R.ADC_SEQ_EN ((o - 0x100) / 0x40) ((o - 0x100) % 0x40 / 0x4), R.ADC_SEQ_INPUT ((o - 0x100) / 0x40) ((o - 0x100) % 0x40 / 0x4), R.ADC_SEQ_AVG ((o - 0x100) / 0x40) ((o - 0x100) % 0x40 / 0x4), R.ADC_SEQ_OFS ((o - 0x100) / 0x40) ((o - 0x100) % 0x40 / 0x4)] else
  if 0x200 ≤ o ∧ o < 0x280 ∧ (o - 0x200) % 0x40 < 0x40 ∧ (o - 0x200) % 0x40 % 0x4 = 0 then [R.ADC_RES_SKIP ((o - 0x200) / 0x40) ((o - 0x200) % 0x40 / 0x4), R.ADC_RES_VALID ((o - 0x200) / 0x40) ((o - 0x200) % 0x40 / 0x4), R.ADC_RES_CODE ((o - 0x200) / 0x40) ((o - 0x200) % 0x40 / 0x4)] else
  []

/-- Page offset `o` of ADC is the low word of a 64-bit register (R10). -/
def wideADC (o : Nat) : Bool := decide (o = 0x68)

/-- The block fields of the word at page offset `o` of FIO (a 64-bit register at its low offset). -/
def fieldsFIO (o : Nat) : List Fld :=
  if o = 0x40 then [R.FIO_GCFG_AUTORS] else
  if o = 0x44 then [R.FIO_OUT_OUT] else
  if o = 0x48 then [R.FIO_OSET_OUT] else
  if o = 0x4C then [R.FIO_OCLR_OUT] else
  if o = 0x50 then [R.FIO_IN_VALID, R.FIO_IN_LVL] else
  if o = 0x54 then [R.FIO_RB_VALID, R.FIO_RB_LVL] else
  if o = 0x58 then [R.FIO_DTCFG_DTINT, R.FIO_DTCFG_DTLEN] else
  if o = 0x5C then [R.FIO_DTCNT_ABAND, R.FIO_DTCNT_PASS] else
  if o = 0x60 then [R.FIO_VFLD_VLOW, R.FIO_VFLD_VWARN, R.FIO_VFLD_VOLT] else
  if o = 0x64 then [R.FIO_BYPD_HD, R.FIO_BYPD_PI] else
  if o = 0x68 then [R.FIO_CMD_CCLR, R.FIO_CMD_GCLR1, R.FIO_CMD_GCLR0, R.FIO_CMD_RESTART] else
  if o = 0x6C then [R.FIO_LINK_FDRC, R.FIO_LINK_CRCE] else
  if 0x100 ≤ o ∧ o < 0x140 ∧ (o - 0x100) % 0x4 = 0 then [R.FIO_CFG_AUTO ((o - 0x100) / 0x4), R.FIO_CFG_FAILST ((o - 0x100) / 0x4), R.FIO_CFG_DTEN ((o - 0x100) / 0x4), R.FIO_CFG_FILT ((o - 0x100) / 0x4), R.FIO_CFG_MODE ((o - 0x100) / 0x4)] else
  if 0x140 ≤ o ∧ o < 0x180 ∧ (o - 0x140) % 0x4 = 0 then [R.FIO_CSTA_PARTNER ((o - 0x140) / 0x4), R.FIO_CSTA_HELD ((o - 0x140) / 0x4), R.FIO_CSTA_ILIM ((o - 0x140) / 0x4), R.FIO_CSTA_OT ((o - 0x140) / 0x4), R.FIO_CSTA_TIE ((o - 0x140) / 0x4), R.FIO_CSTA_SHV ((o - 0x140) / 0x4)] else
  []

/-- The block fields of the word at page offset `o` of SAF (a 64-bit register at its low offset). -/
def fieldsSAF (o : Nat) : List Fld :=
  if o = 0x40 then [R.SAF_DIP_AGREE, R.SAF_DIP_DIPB, R.SAF_DIP_DIPA] else
  if o = 0x44 then [R.SAF_STA_FUNC, R.SAF_STA_SOP, R.SAF_STA_STATEB, R.SAF_STA_STATEA] else
  if o = 0x48 then [R.SAF_SIN_DEM, R.SAF_SIN_DISC, R.SAF_SIN_SIB, R.SAF_SIN_SIA] else
  if o = 0x4C then [R.SAF_SA_SA1, R.SAF_SA_SA0] else
  if o = 0x50 then [R.SAF_MOT_SPDB, R.SAF_MOT_SPDA] else
  if o = 0x54 then [R.SAF_TDIS_REMB, R.SAF_TDIS_REMA] else
  if o = 0x58 then [R.SAF_CAUSE_CB, R.SAF_CAUSE_CA] else
  if o = 0x5C then [R.SAF_AGE_FRESH, R.SAF_AGE_UPD] else
  []

/-- The block fields of the word at page offset `o` of ENC (a 64-bit register at its low offset). -/
def fieldsENC (o : Nat) : List Fld :=
  if o = 0x40 then [R.ENC_CMD_CCLR] else
  if 0x100 ≤ o ∧ o < 0x180 ∧ (o - 0x100) % 0x20 = 0 then [R.ENC_CFG_EN ((o - 0x100) / 0x20), R.ENC_CFG_MODE ((o - 0x100) / 0x20), R.ENC_CFG_WIN ((o - 0x100) / 0x20)] else
  if 0x104 ≤ o ∧ o < 0x184 ∧ (o - 0x104) % 0x20 = 0 then [R.ENC_POS_VAL ((o - 0x104) / 0x20)] else
  if 0x108 ≤ o ∧ o < 0x188 ∧ (o - 0x108) % 0x20 = 0 then [R.ENC_SPD_VAL ((o - 0x108) / 0x20)] else
  if 0x10C ≤ o ∧ o < 0x18C ∧ (o - 0x10C) % 0x20 = 0 then [R.ENC_WSEQ_VALID ((o - 0x10C) / 0x20), R.ENC_WSEQ_SEQ ((o - 0x10C) / 0x20)] else
  if 0x110 ≤ o ∧ o < 0x190 ∧ (o - 0x110) % 0x20 = 0 then [R.ENC_ZCNT_Z ((o - 0x110) / 0x20)] else
  if 0x114 ≤ o ∧ o < 0x194 ∧ (o - 0x114) % 0x20 = 0 then [R.ENC_WSTA_WFC ((o - 0x114) / 0x20), R.ENC_WSTA_WIRE ((o - 0x114) / 0x20)] else
  []

/-- The block fields of the word at page offset `o` of ETH (a 64-bit register at its low offset). -/
def fieldsETH (q o : Nat) : List Fld :=
  if o = 0x100 then [R.ETH_TSCOR_TXC q, R.ETH_TSCOR_RXC q] else
  if o = 0x104 then [R.ETH_TSCFG_LATE q, R.ETH_TSCFG_TSALL q] else
  if o = 0x108 then [R.ETH_TXTSS_TAG q, R.ETH_TXTSS_SEC q] else
  if o = 0x110 then [R.ETH_TXTSN_NS q] else
  if o = 0x114 then [R.ETH_TXTSF_VALID q, R.ETH_TXTSF_COUNT q, R.ETH_TXTSF_SUB q] else
  if o = 0x118 then [R.ETH_TLCNT_LATE q, R.ETH_TLCNT_DROP q] else
  if o = 0x11C then [R.ETH_TSCNT_TXOVF q, R.ETH_TSCNT_INSR q] else
  if o = 0x120 then [R.ETH_TLHEAD_TSEC q, R.ETH_TLHEAD_TNS q] else
  if o = 0x40 then [R.ETH_MCFG_PROM q, R.ETH_MCFG_IF q] else
  if o = 0x44 then [R.ETH_MACL_ADDR q] else
  if o = 0x48 then [R.ETH_MACH_ADDR q] else
  if o = 0x50 then [R.ETH_TXRB_BASE q] else
  if o = 0x58 then [R.ETH_TXRL_LEN q] else
  if o = 0x5C then [R.ETH_TXTL_TAIL q] else
  if o = 0x60 then [R.ETH_TXHD_HEAD q] else
  if o = 0x68 then [R.ETH_RXRB_BASE q] else
  if o = 0x70 then [R.ETH_RXRL_LEN q] else
  if o = 0x74 then [R.ETH_RXTL_TAIL q] else
  if o = 0x78 then [R.ETH_RXHD_HEAD q] else
  if o = 0x7C then [R.ETH_LSTA_DROPR q, R.ETH_LSTA_LINK q] else
  []

/-- Page offset `o` of ETH is the low word of a 64-bit register (R10). -/
def wideETH (o : Nat) : Bool := decide (o = 0x108 ∨ o = 0x120 ∨ o = 0x50 ∨ o = 0x68)

/-- The block fields of the word at page offset `o` of AZL (a 64-bit register at its low offset). -/
def fieldsAZL (q o : Nat) : List Fld :=
  if o = 0x40 then [R.AZL_LCTL_PRECALLOW q, R.AZL_LCTL_PRECREQ q, R.AZL_LCTL_AUTO q, R.AZL_LCTL_TXOFF q] else
  if o = 0x44 then [R.AZL_TXEQI_POST q, R.AZL_TXEQI_MAIN q, R.AZL_TXEQI_PRE q] else
  if o = 0x48 then [R.AZL_TXEQ_POST q, R.AZL_TXEQ_MAIN q, R.AZL_TXEQ_PRE q] else
  if o = 0x4C then [R.AZL_LOSCFG_LOSDLY q, R.AZL_LOSCFG_LOSHY q, R.AZL_LOSCFG_LOSTH q] else
  if o = 0x50 then [R.AZL_LOLCFG_SHTH q, R.AZL_LOLCFG_PPMTH q] else
  if o = 0x54 then [R.AZL_TRCFG_ADMIT q, R.AZL_TRCFG_RETRY q, R.AZL_TRCFG_TRTMO q] else
  if o = 0x58 then [R.AZL_LSTAT_PROLE q, R.AZL_LSTAT_PLANE q, R.AZL_LSTAT_INSVC q, R.AZL_LSTAT_REMFLT q, R.AZL_LSTAT_TXPREC q, R.AZL_LSTAT_RXPREC q, R.AZL_LSTAT_BLKLK q, R.AZL_LSTAT_CDRLK q, R.AZL_LSTAT_LOS q, R.AZL_LSTAT_STATE q] else
  if o = 0x60 then [R.AZL_CNT_LOSC q, R.AZL_CNT_LOLC q] else
  if o = 0x64 then [R.AZL_LEAP_DEL q, R.AZL_LEAP_INS q] else
  if o = 0x68 then [R.AZL_SHERR_SHERR q] else
  if o = 0x6C then [R.AZL_ABTC_EBC q, R.AZL_ABTC_ABT q] else
  if o = 0x70 then [R.AZL_PPM_PPM q] else
  if o = 0x74 then [R.AZL_CMD_CCLR q, R.AZL_CMD_RETRAIN q] else
  []

/-- The block fields of the word at page offset `o` of AZF (a 64-bit register at its low offset). -/
def fieldsAZF (o : Nat) : List Fld :=
  if o = 0x40 then [R.AZF_POOLCFG_MCAP, R.AZF_POOLCFG_CRES] else
  if o = 0x44 then [R.AZF_POOLSTA_MINFREE, R.AZF_POOLSTA_FREE] else
  if o = 0x48 then [R.AZF_DROP_MBX, R.AZF_DROP_TLM] else
  if o = 0x4C then [R.AZF_DROPC_TRUNC, R.AZF_DROPC_CTL] else
  if o = 0x50 then [R.AZF_RXERR_SLOT, R.AZF_RXERR_FCRC] else
  if o = 0x54 then [R.AZF_TAGERR_UNK, R.AZF_TAGERR_STALE] else
  if o = 0x58 then [R.AZF_TSTA_TVALID, R.AZF_TSTA_TLANE, R.AZF_TSTA_OUTL, R.AZF_TSTA_DEPTH] else
  if o = 0x5C then [R.AZF_TERR_TERR] else
  if o = 0x60 then [R.AZF_SPLIT_SVALID, R.AZF_SPLIT_SPLIT] else
  if o = 0x64 then [R.AZF_RINGSTA_RSr] else
  if o = 0x68 then [R.AZF_ENUM_ROUND, R.AZF_ENUM_RMASK] else
  if o = 0x6C then [R.AZF_CMD_CCLR, R.AZF_CMD_ENUMGO] else
  if o = 0x70 then [R.AZF_MBX_MRETX, R.AZF_MBX_MFAIL] else
  if o = 0x74 then [R.AZF_FRESHC_OLD] else
  if 0x100 ≤ o ∧ o < 0x150 ∧ (o - 0x100) % 0x4 = 0 then [R.AZF_LDLY_ASYM ((o - 0x100) / 0x4), R.AZF_LDLY_LD ((o - 0x100) / 0x4)] else
  []

/-- The block fields of page `p` at page offset `o` (R426 and the chapters it names). -/
def blockFields (p o : Nat) : List Fld :=
  if p = 0 then fieldsSYS o else
  if p = 1 then fieldsCLK o else
  if p = 2 then fieldsPWR o else
  if p = 3 then fieldsFCU o else
  if p = 4 then fieldsALM o else
  if p = 5 then fieldsSEC o else
  if p = 6 then fieldsTBS o else
  if p = 7 then fieldsTCK o else
  if p = 8 then fieldsDSX o else
  if p = 9 then fieldsPMU o else
  if p = 10 then fieldsMEMC o else
  if p = 11 then fieldsRED o else
  if p = 12 then fieldsACQ o else
  if p = 13 then fieldsPGN o else
  if p = 14 then fieldsCLE o else
  if p = 15 then fieldsRSE o else
  if 16 ≤ p ∧ p < 20 then fieldsSE (p - 16) o else
  if p = 20 then fieldsPWM o else
  if p = 21 then fieldsADC o else
  if p = 22 then fieldsFIO o else
  if p = 23 then fieldsSAF o else
  if p = 24 then fieldsENC o else
  if 25 ≤ p ∧ p < 27 then fieldsETH (p - 25) o else
  if 32 ≤ p ∧ p < 52 then fieldsAZL (p - 32) o else
  if p = 52 then fieldsAZF o else
  []

/-- Page offset `o` of page `p` is the low word of a 64-bit register. -/
def isWideLow (p o : Nat) : Bool :=
  if p = 0 then false else
  if p = 1 then false else
  if p = 2 then false else
  if p = 3 then wideFCU o else
  if p = 4 then false else
  if p = 5 then wideSEC o else
  if p = 6 then wideTBS o else
  if p = 7 then wideTCK o else
  if p = 8 then wideDSX o else
  if p = 9 then widePMU o else
  if p = 10 then wideMEMC o else
  if p = 11 then false else
  if p = 12 then false else
  if p = 13 then widePGN o else
  if p = 14 then wideCLE o else
  if p = 15 then false else
  if 16 ≤ p ∧ p < 20 then false else
  if p = 20 then false else
  if p = 21 then wideADC o else
  if p = 22 then false else
  if p = 23 then false else
  if p = 24 then false else
  if 25 ≤ p ∧ p < 27 then wideETH o else
  if 32 ≤ p ∧ p < 52 then false else
  if p = 52 then false else
  false

/-- The header fields at page offset `o` of page `p` (R428). -/
def headerFields (p o : Nat) : List Fld :=
  if o = 4 then [R.EN p, R.MODE p]
  else if o = 8 then [R.SRB p, R.WERR p]
  else if o = 0xC then [R.LATE p, R.PEND p]
  else if o = 0x10 then [R.FLT p]
  else if o = 0x14 then [R.FEN p]
  else if o = 0x18 then [R.FCT p]
  else if o = 0x1C then [R.SEQ p]
  else []

/-- Every field of the word at page offset `o` of page `p`. -/
def wordFields (p o : Nat) : List Fld :=
  if o < 0x40 then headerFields p o else blockFields p o

end Sys2Proof.Machine
end

