-- ==== Sys2Proof/Machine/Bits.lean ====
section
/-! DEFINITION. Bit fields, two's complement, saturation and byte order on plain numbers, and the
sparse lists the state is made of. Everything the chapters compute with is built from these. -/

namespace Sys2Proof.Machine

/-- The `w` bits of `v` from bit `lo` on. -/
def bitsOf (v lo w : Nat) : Nat := v / 2 ^ lo % 2 ^ w

/-- Bit `n` of `v`. -/
def bitOf (v n : Nat) : Bool := decide (v / 2 ^ n % 2 = 1)

/-- A Boolean as a bit. -/
def b2n (b : Bool) : Nat := if b then 1 else 0

/-- `v` with bit `n` set. -/
def setBitN (v n : Nat) : Nat := if bitOf v n then v else v + 2 ^ n

/-- The bits set in the low `n` bits of a number. -/
def bitCount (v : Nat) : Nat → Nat
  | 0 => 0
  | n + 1 => b2n (bitOf v n) + bitCount v n

/-- `v` with bit `n` cleared. -/
def clrBitN (v n : Nat) : Nat := if bitOf v n then v - 2 ^ n else v

/-- The bits of `v` that are 0 in `m`. -/
def andNot (v m : Nat) : Nat := v - Nat.land v m

/-- The value of the low `w` bits of `v` read as two's complement. -/
def toSigned (w v : Nat) : Int :=
  let u := v % 2 ^ w
  if u < 2 ^ (w - 1) then (u : Int) else (u : Int) - (2 ^ w : Nat)

/-- The low `w` bits of the two's complement form of `i`. -/
def ofSigned (w : Nat) (i : Int) : Nat := (i % (2 ^ w : Nat)).toNat

/-- `i` limited to the signed range of `w` bits. -/
def satSigned (w : Nat) (i : Int) : Int :=
  if i < -(2 ^ (w - 1) : Nat) then -(2 ^ (w - 1) : Nat)
  else if i > (2 ^ (w - 1) : Nat) - 1 then (2 ^ (w - 1) : Nat) - 1
  else i

/-- `n` limited to the unsigned range of `w` bits. -/
def satNat (w n : Nat) : Nat := min n (2 ^ w - 1)

/-- `i` limited to the unsigned range of `w` bits. -/
def satUns (w : Nat) (i : Int) : Nat := satNat w i.toNat

/-- `i / 2^k` rounded to the nearest integer, a tie away from minus infinity (half added, floor). -/
def roundShift (i : Int) (k : Nat) : Int :=
  if k = 0 then i else (i + (2 ^ (k - 1) : Nat)) / (2 ^ k : Nat)

/-- `v / 2^n` rounded to the nearest integer, a tie to the even one (RHE of R156). -/
def rhe (v : Int) (n : Nat) : Int :=
  if n = 0 then v
  else
    let m : Int := (2 ^ n : Nat)
    let q := v / m
    let t := v % m
    let h : Int := (2 ^ (n - 1) : Nat)
    if t > h ∨ (t = h ∧ q % 2 = 1) then q + 1 else q

/-- `a / b` rounded to the nearest integer, a tie away from zero; `b` is positive. -/
def divNear (a b : Int) : Int :=
  if a ≥ 0 then (2 * a + b) / (2 * b) else -((2 * -a + b) / (2 * b))

/-- The signed difference of two counts of `w` bits (R90, R91). -/
def diffSigned (w a b : Nat) : Int := toSigned w (a + 2 ^ w - b % 2 ^ w)

/-! ### Bytes -/

/-- The `n` bytes of `v`, most significant first (R4). -/
def bytesBE : Nat → Nat → List Byte
  | 0, _ => []
  | n + 1, v => BitVec.ofNat 8 (v / 2 ^ (8 * n)) :: bytesBE n v

/-- The `n` bytes of `v`, least significant first. -/
def bytesLE : Nat → Nat → List Byte
  | 0, _ => []
  | n + 1, v => BitVec.ofNat 8 v :: bytesLE n (v / 256)

/-- The number that bytes spell, most significant first. -/
def natBE (l : List Byte) : Nat := l.foldl (fun a b => a * 256 + b.toNat) 0

/-- The number that bytes spell, least significant first. -/
def natLE (l : List Byte) : Nat := l.foldr (fun b a => a * 256 + b.toNat) 0

/-- The `n` bytes of `l` from byte `i` on. -/
def slice (l : List Byte) (i n : Nat) : List Byte := (l.drop i).take n

/-- Bytes `i` to `i + n - 1` of `l` as a number, most significant first. -/
def fieldBE (l : List Byte) (i n : Nat) : Nat := natBE (slice l i n)

/-- `l` with the bytes of `b` written from byte `i` on. -/
def overlay (l : List Byte) (i : Nat) (b : List Byte) : List Byte :=
  l.take i ++ b ++ l.drop (i + b.length)

/-- `n` bytes 0. -/
def zeros (n : Nat) : List Byte := List.replicate n 0

/-- `l` with bytes 0 appended up to `n` bytes. -/
def padTo (n : Nat) (l : List Byte) : List Byte := l ++ zeros (n - l.length)

/-! ### Sparse lists from a number to a value, with rising keys -/

/-- The value listed at `k`, `d` where none is. -/
def alGet {α : Type} (l : List (Nat × α)) (k : Nat) (d : α) : α :=
  match l with
  | [] => d
  | (a, v) :: t => if a = k then v else alGet t k d

/-- The list with the value `v` at `k`. -/
def alPut {α : Type} (l : List (Nat × α)) (k : Nat) (v : α) : List (Nat × α) :=
  match l with
  | [] => [(k, v)]
  | (a, w) :: t =>
    if k < a then (k, v) :: (a, w) :: t
    else if k = a then (k, v) :: t
    else (a, w) :: alPut t k v

/-- The list with nothing at `k`. -/
def alDel {α : Type} (l : List (Nat × α)) (k : Nat) : List (Nat × α) :=
  l.filter (fun p => p.1 != k)

/-- Whether a value is listed at `k`. -/
def alHas {α : Type} (l : List (Nat × α)) (k : Nat) : Bool := l.any (fun p => p.1 == k)

/-- The list with nothing at keys from `lo` up to but not including `hi`. -/
def alDropRange {α : Type} (l : List (Nat × α)) (lo hi : Nat) : List (Nat × α) :=
  l.filter (fun p => decide (p.1 < lo ∨ hi ≤ p.1))

/-- Element `i` of a list, `d` beyond its end. -/
def nth {α : Type} (l : List α) (i : Nat) (d : α) : α :=
  match l, i with
  | [], _ => d
  | a :: _, 0 => a
  | _ :: t, i + 1 => nth t i d

/-- The list with element `i` replaced; a shorter list is filled up with `d` first. -/
def setNth {α : Type} (l : List α) (i : Nat) (v d : α) : List α :=
  match l, i with
  | [], 0 => [v]
  | [], i + 1 => d :: setNth [] i v d
  | _ :: t, 0 => v :: t
  | a :: t, i + 1 => a :: setNth t i v d

/-- `f` applied at 0, 1, … `n - 1` in turn. -/
def forUpTo {α : Type} (n : Nat) (f : Nat → α → α) (a : α) : α :=
  (List.range n).foldl (fun x i => f i x) a

/-- `f` applied for each element of a list in turn. -/
def forEach {α β : Type} (l : List β) (f : β → α → α) (a : α) : α :=
  l.foldl (fun x b => f b x) a

end Sys2Proof.Machine
end

