-- ==== Sys2Proof/Machine/Mem.lean ====
section
/-! DEFINITION. Memory as a list of address and byte pairs in one canonical form: addresses strictly
rising, and no entry equal to what an unlisted address reads as, `d`. The memories of the address map
(R213, R427) read 0 where nothing is listed, as the reset wipe leaves them (R399); the flash reads
0xFF where nothing has been programmed. -/

namespace Sys2Proof.Machine

/-- Every address of the list is above `a`. -/
def Memory.above (a : Nat) (m : List Host.Cell) : Bool := m.all (fun c => decide (a < c.1))

/-- The canonical form of a memory whose unlisted addresses read `d`. -/
def Memory.wf (d : Byte) : List Host.Cell → Bool
  | [] => true
  | c :: t => decide (c.2 ≠ d) && Memory.above c.1 t && Memory.wf d t

/-- The byte at address `a`. DESIGN CHOICE (log 4). -/
def Memory.read (d : Byte) (m : List Host.Cell) (a : Nat) : Byte :=
  match m with
  | [] => d
  | c :: t => if c.1 = a then c.2 else if a < c.1 then d else Memory.read d t a

/-- `m` with `b` at address `a`, in canonical form. -/
def Memory.write (d : Byte) (m : List Host.Cell) (a : Nat) (b : Byte) : List Host.Cell :=
  match m with
  | [] => if b = d then [] else [(a, b)]
  | c :: t =>
    if a < c.1 then (if b = d then c :: t else (a, b) :: c :: t)
    else if a = c.1 then (if b = d then t else (a, b) :: t)
    else c :: Memory.write d t a b

/-- The `n` bytes from address `a` on. -/
def Memory.readBytes (d : Byte) (m : List Host.Cell) (a : Nat) : Nat → List Byte
  | 0 => []
  | n + 1 => Memory.read d m a :: Memory.readBytes d m (a + 1) n

/-- `m` with the bytes `l` from address `a` on. -/
def Memory.writeBytes (d : Byte) (m : List Host.Cell) (a : Nat) : List Byte → List Host.Cell
  | [] => m
  | b :: t => Memory.writeBytes d (Memory.write d m a b) (a + 1) t

/-- The 32-bit little-endian word at address `a` (R3). -/
def Memory.read32 (d : Byte) (m : List Host.Cell) (a : Nat) : Nat :=
  natLE (Memory.readBytes d m a 4)

/-- `m` with the 32-bit word `v` at address `a`. -/
def Memory.write32 (d : Byte) (m : List Host.Cell) (a v : Nat) : List Host.Cell :=
  Memory.writeBytes d m a (bytesLE 4 v)

/-- `m` with every address from `lo` up to but not including `hi` unlisted. -/
def Memory.clear (m : List Host.Cell) (lo hi : Nat) : List Host.Cell :=
  m.filter (fun c => decide (c.1 < lo ∨ hi ≤ c.1))

end Sys2Proof.Machine
end

