-- ==== Sys2Proof/Machine/State.lean ====
section
/-! DEFINITION. The state of the module as plain data: every register field in one sparse list, the
staged values and shadows of the register side, the memories, and a record for each block that has
state of its own behind its registers. -/

namespace Sys2Proof.Machine

/-- Why the module stops with a fault. No rule of the spec stops the module: no meaning raises one. -/
inductive Fault where
  /-- Raised by nothing: kept so that the type of reasons is not empty. Safe. -/
  | none
  deriving DecidableEq, Repr

/-- Why a command has no meaning in the model. -/
inductive Refusal where
  /-- The command has no meaning in the model yet. Safe: the model stops. -/
  | notModelled (mnemonic : String)
  deriving DecidableEq, Repr

/-- The module as a whole (R409, R399): held in reset, the reset wipe running, or running. -/
inductive Phase where
  | held | wiping | run
  deriving DecidableEq, Repr

/-- The latched role (R13, R15). -/
inductive Role where
  | none | conductor | sect | cell
  deriving DecidableEq, Repr

/-- The response of the last register access: whether it was a bus error, and the data read. -/
structure Resp where
  err : Bool
  data : W32
  deriving DecidableEq, Repr

/-- The supply and reset side that no register shows (R403, R409, R410, R421). -/
structure PwrState where
  /-- VIN in 1/256 V. -/
  vin : Nat
  /-- VIN has been above 8.5 V since the module last lost all power. -/
  seen : Bool
  /-- VIN suffices: it has risen above 8.5 V and not fallen below 8.0 V since. -/
  up : Bool
  /-- Held by overvoltage until VIN falls below 19.0 V. -/
  ovHold : Bool
  /-- Held by die temperature until the die is below 100 degrees. -/
  thHold : Bool
  /-- Held by a clock failure until the clocks are good (R408). -/
  ckHold : Bool
  /-- A software reset has been armed (R424), and one waits for the drain instant (R410). -/
  armed : Bool
  /-- FCU.TIME in ns of the last ARM. -/
  armAt : Nat
  /-- A software reset waits for the drain instant (R410). -/
  swPend : Bool
  /-- The strap levels at the pins. -/
  pins : Straps
  deriving DecidableEq, Repr

/-- What the FCU keeps of one source behind FCU.SSTn (R335). -/
structure FcuSrc where
  /-- FCU.TIME instants of the last N events, newest first. -/
  times : List Nat
  /-- FCU.TIME instants of the recoveries within 24 h. -/
  recs : List Nat
  /-- FCU.TIME instant of the last event received while EN was 1. -/
  last : Nat
  /-- The quiet period taken at that event, in microseconds. -/
  quiet : Nat
  deriving DecidableEq, Repr

/-- A fault log entry as its four words (R340). -/
structure LogEntry where
  w0 : Nat
  w1 : Nat
  w2 : Nat
  w3 : Nat
  deriving DecidableEq, Repr

/-- The FCU behind its registers. -/
structure FcuState where
  /-- Nanoseconds since the last power-on reset or nRESET; FCU.TIME counts its microseconds. -/
  timeNs : Nat
  /-- What it keeps of each source (R335). -/
  srcs : List (Nat × FcuSrc)
  /-- The fault log by index (R340). -/
  log : List (Nat × LogEntry)
  /-- The time in ns of a Restart reaction whose reset has not come yet. -/
  restartAt : Option Nat
  /-- Sources that have reacted since the last sample of the acquisition (R299). -/
  reacted : List Nat
  deriving DecidableEq, Repr

/-- A descriptor (R218) with its issue number and the CMASK it was issued under. -/
structure Desc where
  id : Nat
  tick : Nat
  src : Nat
  dom : Nat
  prio : Nat
  unord : Bool
  arg : Nat
  cmask : Nat
  deriving DecidableEq, Repr

/-- What core c holds: the descriptor, since when, and whether the watchdog has fired for it. -/
structure Held where
  d : Desc
  since : Nat
  fired : Bool
  deriving DecidableEq, Repr

/-- The dispatcher behind its registers. -/
structure DsxState where
  /-- Descriptors queued, in issue order. -/
  queue : List Desc
  /-- The slot of each core. -/
  slots : List (Option Desc)
  /-- What each core holds (R223). -/
  held : List (Option Held)
  /-- The issue number of the next descriptor (R220). -/
  nextId : Nat
  /-- Nanoseconds until the expiry of each running timer, by timer number. -/
  timers : List (Nat × Nat)
  deriving DecidableEq, Repr

/-- One record of the precise sampling buffer and its sequence number (R232). -/
structure PsbEntry where
  r : PsbRec
  seq : Nat
  deriving DecidableEq, Repr

/-- A control core: its integer registers, its mode, the machine registers of the privileged architecture, the PMP entries (R210,
R212), and the sampling state of its performance monitor (R232). -/
structure CoreState where
  /-- It has started since the last module reset (R216). -/
  on : Bool
  /-- x0 to x31 (R210); x0 reads 0. -/
  x : List (BitVec 64)
  /-- U mode (R210). -/
  user : Bool
  /-- The program counter. -/
  pc : BitVec 64
  /-- mepc, mcause, mtval, mtvec and mscratch (R210). -/
  mepc : BitVec 64
  mcause : BitVec 64
  mtval : BitVec 64
  mtvec : BitVec 64
  mscratch : BitVec 64
  /-- mstatus.MIE, mstatus.MPIE and mstatus.MPP (true: M). -/
  mie : Bool
  mpie : Bool
  mpp : Bool
  /-- mstatus.MPRV and mstatus.TW. -/
  mprv : Bool
  tw : Bool
  /-- mie.MEIE and mie.PMUOV. -/
  meie : Bool
  povie : Bool
  /-- PMP configuration bytes and addresses. -/
  pmpcfg : List (BitVec 8)
  pmpaddr : List (BitVec 64)
  /-- mcounteren.CY and mcounteren.IR (R229). -/
  cy : Bool
  ir : Bool
  /-- mcycle and minstret as last read, written or counted (R210). -/
  mcycle : BitVec 64
  minstret : BitVec 64
  /-- What its last load, atomic operation or CSR read returned. -/
  rd : BitVec 64
  /-- The address and size that its last load-reserved reserved. -/
  resv : Option (Nat × Nat)
  /-- The memory written since its last FENCE.I, as addresses and lengths: its instruction cache may be stale there. -/
  stale : List (Nat × Nat)
  /-- Instructions that no command describes may have run since `pc`, and since `minstret`, were last known. -/
  pcOpen : Bool
  retOpen : Bool
  /-- The precise sampling buffer, the number of its next record, and the shift register of the dither (R232). -/
  psb : List PsbEntry
  psbSeq : Nat
  lfsr : Nat
  /-- Length of the running sampling interval. -/
  interval : Nat
  deriving DecidableEq, Repr

/-- What a frame put on a lane is: the lane and the bytes. -/
structure Sent where
  lane : Nat
  f : Frame
  deriving DecidableEq, Repr

/-- The tick generator behind its registers (R34 to R36, R50, R118). -/
structure TckState where
  /-- TPCD: ticks until the announced TP applies; 0 without an announcement. -/
  tpLeft : Nat
  /-- The move of the next Strike or local tick instant in 1/256 ns, and the part of a nanosecond carried, in 2^-40 ns. -/
  move : Int
  frac : Nat
  /-- System time counted since the last Strike without its steps, in 2^-40 ns, up to the start of the TIME cycle (R271). -/
  sys : Int
  /-- Ticks since each Repeat of the last 1,000 ticks, by arm. -/
  repeats : List (List Nat)
  /-- Consecutive Repeats, by arm, and whether each condition of R50 holds: consecutive, window. -/
  cons : List Nat
  consHeld : List Bool
  winHeld : List Bool
  /-- Pages whose commit applies at the next Strike, and at the one after it (R57). -/
  due : List Nat
  later : List Nat
  /-- A Strike has been generated since the reset of the page (R36). -/
  struck : Bool
  deriving DecidableEq, Repr
/-- A frame that a transmitter sends. Times are FCU.TIME in units of 10 ps, of which a block lasts 256 (R60, R69, R122). -/
structure TxNow where
  f : Frame
  /-- CLASS of R85. -/
  cls : Nat
  /-- The first bit of the Start block, and the end of the last block. -/
  start : Nat
  stop : Nat
  /-- The lane from which it is relayed cut-through. -/
  src : Option Nat
  /-- The cell appends its slot to it (R95). -/
  appends : Bool
  /-- The lane before it: the end of the last block put on the line and of the last frame, whether that one had a slot
  appended, the scrambler's history and the last level index. -/
  lineEnd : Nat
  before : Nat
  two : Bool
  scr : Nat
  last : Nat
  deriving DecidableEq, Repr

/-- A lane behind its registers (R62, R66, R75 to R82, R440). -/
structure LaneState where
  /-- Nanoseconds of FCU.TIME at entry to TRAIN, DOWN or FAULT. -/
  since : Nat
  /-- DOWN was entered through RETRAIN. -/
  byRetrain : Bool
  /-- A frequency window has been measured since WAKE; windows in a row within PPMTH - 50 ppm. -/
  measured : Bool
  good : Nat
  /-- What the far end's Train blocks have shown: RRDY, PRECREQ, PRECACK and COUNTDOWN. -/
  farRrdy : Bool
  farPrecReq : Bool
  farPrecAck : Bool
  farCount : Nat
  /-- This transmitter's status of each tap and the request each reports on (R77). -/
  stPre : Nat
  stMain : Nat
  stPost : Nat
  rqPre : Nat
  rqMain : Nat
  rqPost : Nat
  /-- Whole ticks in UP, and whether the tick under way began in UP (R440). -/
  whole : Nat
  began : Bool
  /-- This receiver's requests to the far transmitter, whether it asks for PRESET, its RRDY, and the COUNTDOWN of the last
  Train block sent (R76 to R78). -/
  rqFarPre : Nat
  rqFarMain : Nat
  rqFarPost : Nat
  askPreset : Bool
  rrdy : Bool
  count : Nat
  /-- The received Leap blocks in a row with RF = 1 since the lane entered its state, at most 4 (R75). -/
  rfRun : Nat
  /-- The ages in blocks, below 64, of the invalid sync headers received in block lock (R81). -/
  badHdr : List Nat
  /-- The frame under way at the transmitter, and the end of the last frame sent. -/
  tx : Option TxNow
  txStop : Nat
  /-- The last frame sent had a slot appended, so that two Leap blocks follow it (R95). -/
  txTwo : Bool
  /-- The transmitter's scrambler: the last 58 scrambled bits, the newest in bit 0 (R66); and the last level index sent
  (R62). -/
  scr : Nat
  last : Nat
  /-- The level indices of the last blocks put on the line, in order (R61, R62), and the end of the last of them. -/
  line : List Nat
  lineEnd : Nat
  /-- The receiver's last 58 payload bits as received, the newest in bit 0 (R66), and its last level index (R62). -/
  rxScr : Nat
  rxLast : Nat
  deriving DecidableEq, Repr
/-- A frame stored in the Frame Pool: waiting at lane `lane`, and the buffers that hold it (R120, R122). -/
structure Queued where
  lane : Nat
  f : Frame
  /-- CLASS of R85: 0 control, 1 timing, 2 mailbox, 3 telemetry. -/
  cls : Nat
  /-- The buffers of the Frame Pool that hold it (R120). -/
  bufs : List Nat
  /-- A frame of this node's own; the cell has appended its slot to it (R95); and FCU.TIME in units of 10 ps when it came to
  the pool, and from when on it is whole, so that its transmission can end. -/
  own : Bool
  app : Bool
  came : Nat
  whole : Nat
  /-- A relayed frame that was refused a buffer partway: the instant of the refusal, which brings its Abort (R121). -/
  cut : Option Nat
  deriving DecidableEq, Repr

/-- The link-delay measurement of a lane (R116). -/
structure LinkMeas where
  /-- Tick instants since the lane entered service. -/
  svc : Nat
  /-- PSEQ of the last Probe. -/
  pseq : Nat
  /-- PSEQ and t1 of the Probe awaiting its reply. -/
  asked : Option (Nat × Nat)
  /-- The last accepted measurements, newest first, at most 8; how many were accepted in all; and the
  consecutive rejections. -/
  acc : List Int
  count : Nat
  rej : Nat
  deriving DecidableEq, Repr

/-- The Timing frame chosen in a tick (R117). -/
structure TimingPick where
  lane : Nat
  depth : Nat
  e : Int
  tnum : Nat
  tper : Nat
  tpnew : Nat
  tpcd : Nat
  hold : Bool
  sec : Nat
  ns : Nat
  sub : Nat
  deriving DecidableEq, Repr

/-- The counts of R118 and the last sixteen values of e, newest first. -/
structure AlignState where
  good : Nat
  outl : Nat
  noBand : Nat
  last : List Int
  deriving DecidableEq, Repr

/-- One Enum reply as a Section or Conductor keeps it (R108). -/
structure EnumReply where
  hop : Nat
  node : Nat
  rev : Bool
  fb : Bool
  rcv : Bool
  serial : Nat
  deriving DecidableEq, Repr

/-- An enumeration round of one ring or chain at its end (R109, R111). -/
structure EnumRun where
  round : Nat
  /-- Tick instants since Enum was sent. -/
  age : Nat
  /-- The replies received. -/
  replies : List EnumReply
  /-- HOPS of the partner's Enum received through the ring. -/
  partner : Option Nat
  /-- The partner's finding: intact, reply count. -/
  finding : Option (Bool × Nat)
  /-- The finding has been told to the partner. -/
  told : Bool
  /-- The round has been decided. -/
  decided : Bool
  deriving DecidableEq, Repr

/-- The Enum a cell or a Section received from one end in the last round (R109). -/
structure EnumSeen where
  h : Nat
  n : Nat
  pair : Nat
  ring : Nat
  round : Nat
  rev : Bool
  /-- The position an accepted Assign of this end gave. -/
  pos : Option Nat
  deriving DecidableEq, Repr

/-- A message a Section sends to a cell in segments (R104). -/
structure SegTx where
  dst : Nat
  seq : Nat
  data : List Byte
  /-- The next segment to send, and the segments acknowledged. -/
  next : Nat
  acked : Nat
  /-- Ticks since the acknowledged segment last advanced. -/
  stall : Nat
  /-- Resends so far. -/
  resends : Nat
  deriving DecidableEq, Repr

/-- A message a cell receives in segments (R104). -/
structure SegRx where
  seq : Nat
  got : Nat
  data : List Byte
  done : Bool
  deriving DecidableEq, Repr

/-- A Mailbox message sent and not yet acknowledged (R105). -/
structure MboxOut where
  dst : Nat
  lane : Nat
  seq : Nat
  data : List Byte
  /-- Ticks since it was last sent. -/
  age : Nat
  /-- Resends so far. -/
  resends : Nat
  deriving DecidableEq, Repr

/-- The last FRESH of a producer and the consecutive discards as old (R91). -/
structure FreshSt where
  last : Nat
  olds : Nat
  deriving DecidableEq, Repr

/-- A trajectory of one arm (R45, R106), and whether its loss has been raised (R46). -/
structure Traj where
  k0 : Nat
  m : Nat
  q : List (Int × Int)
  raised : Bool
  deriving DecidableEq, Repr

/-- What the firmware base reports of an enumeration; the spec names no register for it (R24, R33, R110). -/
inductive AzfReport where
  /-- This Conductor or Section is refused. -/
  | refused
  /-- This cell is reversed. -/
  | reversed
  /-- This cell's NodeID is withdrawn. -/
  | withdrawn
  /-- The sub-module at a position, 64 x ring + position, has another serial. -/
  | exchanged (i serial : Nat)
  deriving DecidableEq, Repr

/-- The frame unit behind its registers. -/
structure AzfState where
  queue : List Queued
  /-- Frames and messages kept in the Frame Pool for the firmware until the drain. -/
  kept : List Queued
  /-- DOWN transitions of each lane, saturating at 255 (R92). -/
  laneEvents : List Nat
  /-- This tick: own slot sent; a Harvest Start has reached the node; a valid Down or Repeat frame is
  complete; a valid Timing frame is complete. -/
  slotSent : Bool
  harvSeen : Bool
  cmdSeen : Bool
  timSeen : Bool
  /-- This tick: a valid Down or Repeat frame is complete, whoever it is for (R102). -/
  copySeen : Bool
  /-- The link-delay measurement of each lane (R116). -/
  links : List LinkMeas
  /-- The Timing frame chosen in this tick (R117). -/
  pick : Option TimingPick
  /-- HOLDOVER of the last chosen frame, which the node's own Timing frames carry. -/
  holdover : Bool
  /-- The alignment counts of R118. -/
  align : AlignState
  /-- TNUM to take at the next Strike. -/
  tnum : Option Nat
  /-- Ring length of the Assign that confirmed the cell. -/
  ringN : Nat
  /-- The recovery NodeID (R386). -/
  recNode : Option Nat
  /-- Enumeration rounds by ring or chain (R109). -/
  enums : List (Nat × EnumRun)
  /-- The Enum last received by end A, and by end B (R109). -/
  seenA : Option EnumSeen
  seenB : Option EnumSeen
  /-- What refuses this Conductor or Section, as bits (R33, R111): 0 the Assign of END A, 1 that of END B, 2 its own NodeID
  met as a source. -/
  refBy : Nat
  /-- Confirmed cells of the pair by 64 x ring + position, and the serials recorded for them. -/
  conf : List Nat
  serials : List (Nat × Nat)
  /-- Messages this node sends to cells in segments, and the one it receives (R104). -/
  segTx : List SegTx
  segRx : Option SegRx
  /-- MSEQ of the last message sent. -/
  mseq : Nat
  /-- Mailbox messages sent and not yet acknowledged (R105). -/
  outbox : List MboxOut
  /-- Upward messages to acknowledge, the oldest first: node and MSEQ. -/
  acks : List (Nat × Nat)
  /-- The FRESH state of each producer (R91). -/
  fresh : List (Nat × FreshSt)
  /-- FRESH last sent, by arm. -/
  freshTx : List Nat
  /-- SPLIT of the last Down frame sent on each ring (R101). -/
  splits : List (Nat × Nat)
  /-- Trajectories in use and received but not yet in use, by arm. -/
  trajs : List (Nat × Traj)
  trajNew : List (Nat × Traj)
  /-- Instants of this tick's Decide begin and command launch, in ns (TCK.LAST). -/
  hdone : Nat
  cmdat : Nat
  /-- Reports of enumerations, newest first. -/
  reports : List AzfReport
  /-- The partner's ring lanes out of service as it last told, and this member's as it last told. -/
  partnerOut : List Nat
  toldOut : List Nat
  deriving DecidableEq, Repr
/-- The valid command of a tick at a cell (R40, R49). -/
inductive CellCmd where
  | none | down | repeat
  deriving DecidableEq, Repr

/-- The insertion logic of a cell behind its registers (R124 to R135). -/
structure CellState where
  /-- VCAP of the Strike, UQ13.3 V, and whether the sample was valid (R256, R258). -/
  vcap : Nat
  vcapOk : Bool
  /-- The flag ins of R125. -/
  ins : Bool
  /-- The valid command of this tick. -/
  cmd : CellCmd
  /-- A Leave, or a Rejoin, received and not yet applied at a Strike (R52, R53). -/
  leavePend : Bool
  rejoinPend : Bool
  /-- The last tick brought no valid command: the slot's MISS. -/
  miss : Bool
  /-- The trim pulse planned for the next tick: direction negative, offset and IARM in mA. -/
  planNeg : Bool
  planToff : Nat
  planIarm : Int
  /-- The trim pulse of this tick: named, edge still to come, inserted, direction and IARM. -/
  trim : Bool
  trimDue : Bool
  trimNeg : Bool
  trimIarm : Int
  /-- The residue of the trim edge issued in this tick (R243). -/
  trimRes : Option Int
  /-- The residue of the last tick's trim pulse, for the slot: whether there was one. -/
  trimd : Bool
  /-- The slot's SWCNT: switching transitions, wrapping. -/
  swcnt : Nat
  /-- The cell has been found reversed (R24). -/
  reversed : Bool
  /-- The state applied at the Strike as the slot reports it, and the RESID of the slot. -/
  insNow : Nat
  residNow : Nat
  /-- Row and state that the tick's Down frame decides where no row above 5 does; 4 stands for Hold. -/
  decRow : Nat
  decNext : Nat
  /-- What the slot takes from the registers, as it stood at instant 400 of this tick (R265, R343). -/
  aux : Option (List Nat)
  /-- A recovery cell acknowledges once more in the next tick (R386). -/
  recAck : Bool
  deriving DecidableEq, Repr
/-- What a tick's accepted slot, slot copy or key extract says of a cell (R96, R97, R127). -/
structure CellIn where
  /-- It is a full slot, not a key extract. -/
  full : Bool
  kst : Nat
  ins : Nat
  cstate : Nat
  kch : Nat
  kdis : Nat
  vcap : Nat
  resid : Int
  trimd : Bool
  miss : Bool
  bypassed : Bool
  /-- The slot as received. -/
  bytes : List Byte
  deriving DecidableEq, Repr

/-- An entry of the cell table (R150), with what the accounting keeps beside RSE.TDATA. -/
structure CellEnt where
  pres : Bool
  fb : Bool
  /-- Accounted state: +1, -1 or 0. -/
  est : Int
  cand : Bool
  held : Bool
  unreach : Bool
  left : Bool
  lost : Nat
  /-- Ticks of unreachability; consecutive accepted slots that reported BYPASSED. -/
  away : Nat
  byp : Nat
  /-- Permanently bypassed: BYPASSED has been reported for 1,000 of them, and the cell has not rejoined since (R145). -/
  gone : Bool
  /-- A Leave has been sent and the cell has not been seen in another state than Orphan since. -/
  leaveSent : Bool
  /-- The Down frame that completes the Leave has been launched in this tick. -/
  leaveDone : Bool
  /-- A slot has shown another state than Orphan after the Leave, so it is due again. -/
  leaveAgain : Bool
  /-- CSTATE, L0DN and L1DN of the last accepted slot or slot copy. -/
  cstate : Nat
  l0dn : Bool
  l1dn : Bool
  deriving DecidableEq, Repr

/-- What a Report counts (R107). -/
structure ArmRep where
  nins : Int
  vsum : Nat
  vmin : Nat
  vmax : Nat
  ncand : Nat
  nlost : Nat
  nhold : Nat
  norph : Nat
  nbyp : Nat
  deriving DecidableEq, Repr

/-- The command of an arm (R129, R131). -/
structure ArmCmd where
  ksel : Nat
  trv : Bool
  thr : Nat
  tie : Nat
  trim : Nat
  toff : Nat
  level : Int
  nins : Int
  iarm : Int
  /-- Rings held under R139, and the exception list of each ring. -/
  rhold : List Nat
  names : List (Nat × List Nat)
  /-- The accounted states after the command, by cell index; the residue after step 3 of R136. -/
  after : List (Nat × Int)
  rho3 : Int
  /-- The counts of the Report (R107). -/
  rep : ArmRep
  /-- The candidates, by cell index; and what THR, IDS, TOFF and LEV read before (R146). -/
  cands : List Nat
  prior : List Nat
  deriving DecidableEq, Repr

/-- An RSE instance behind its registers. -/
structure RseInst where
  rho : Int
  /-- RHOCLR is wanted at the next Decide. -/
  clr : Bool
  /-- KSEL of the last command. -/
  ksel : Nat
  /-- Sum and number of the VCAP of the last Vmean formed. -/
  vmean : Option (Nat × Nat)
  /-- Trim directions of the command in force, the one before, and so on; the trim cell of the command in
  force and of the command of this tick. -/
  dirs : List Int
  trimNow : Nat
  trimNext : Nat
  /-- LEVEL + h of the command in force and of this tick's command. -/
  expNow : Option Int
  expNext : Option Int
  cmd : Option ArmCmd
  /-- The trim direction of this tick's command. -/
  dirNext : Int
  deriving DecidableEq, Repr

/-- The rank-select engine and the Section's accounting (R127 to R150). -/
structure RseState where
  /-- What the arm unit keeps of each cell, by cell index. -/
  cells : List (Nat × CellEnt)
  /-- Accepted this tick, by cell index; cells whose slots were rejected as duplicates; slot copies of this
  tick and of the last. -/
  acc : List (Nat × CellIn)
  dup : List Nat
  copies : List (Nat × CellIn)
  prev : List (Nat × CellIn)
  /-- What the arm keeps of its commands, by arm (R127, R130). -/
  inst : List RseInst
  /-- Bit masks of arms: Decide permitted in this tick (R38), begun, level count done, command launched as
  Down frames, as Repeat frames. -/
  allowed : Nat
  begun : Nat
  counted : Nat
  downs : Nat
  reps : Nat
  /-- The command was observed at the standby in this tick, by arm. -/
  seen : Nat
  deriving DecidableEq, Repr
/-- What an instance keeps of one measured input (R169, R170): the freshness of its SEQ, the reference value and the
frozen count. -/
structure CleIn where
  seq : FreshSt
  ref : Int
  cnt : Nat
  deriving DecidableEq, Repr

/-- A queued evaluation: its channel, whether its trigger is a Decide begin, and its trigger instant. -/
structure CleReq where
  ch : Nat
  decide : Bool
  ns : Nat
  deriving DecidableEq, Repr

/-- A write to the instance under evaluation (R161, R165): how far the evaluation had read, as its phase (0 before the
first read, 4 after the last) and the entries of that phase read, one bit a word; the offset; the word before the write;
and whether the write is counted. -/
structure CleWr where
  phase : Nat
  read : Nat
  off : Nat
  was : Nat
  counted : Bool
  deriving DecidableEq, Repr

/-- The evaluation under way: channel, instance, latched inputs and state, and the writes to its instance since it
started, oldest first (R161, R165). -/
structure CleRun where
  ch : Nat
  inst : Nat
  y : List Int
  r : List Int
  x : List Int
  lost : List Bool
  frozen : Bool
  stale : Bool
  writes : List CleWr
  deriving DecidableEq, Repr

/-- The control-law engine and the profile generator behind their registers. -/
structure CleState where
  /-- Evaluations that wait, and the one that runs (R163). -/
  queue : List CleReq
  run : Option CleRun
  /-- Channels whose evaluation has completed in this tick. -/
  finished : List Nat
  /-- Channels whose next evaluation is the first after enable or a pointer change. -/
  first : List Nat
  /-- The inputs from other modules, by source. -/
  inputs : List (Nat × CleIn)
  /-- The OSEQ of every channel at the last evaluation of an instance, by instance (R169). -/
  oseqs : List (Nat × List Nat)
  /-- Presets wanted, and the published outputs of the profile generator. -/
  preset : Nat
  pgnOut : List Int
  deriving DecidableEq, Repr
/-- One bank of the programmer's registers of a signal engine (R184). -/
structure SeBank where
  d : List (BitVec 32)
  w : List (BitVec 72)
  ix : List (BitVec 14)
  st : List (BitVec 16)
  c : List (BitVec 32)
  shc : BitVec 7
  flg : BitVec 8
  md : BitVec 8
  stack : List (BitVec 13)
  deriving DecidableEq, Repr

/-- A running program: its entry, program counter, DONEEV and whether a TRG 01 trigger started it, as they
stood at its start (R201, R206). -/
structure SeProg where
  entry : Nat
  pc : BitVec 13
  done : Bool
  timed : Bool
  deriving DecidableEq, Repr

/-- An access of a core, or of the debug port, to an engine's memories that waits for the end of a REPEAT (R199). -/
structure SeWait where
  core : Option Nat
  addr : Nat
  v : Option (BitVec 32)
  err : MemErr
  deriving DecidableEq, Repr

/-- A signal engine behind its registers (R184 to R207). -/
structure SeState where
  bank0 : SeBank
  bank1 : SeBank
  /-- The program of each level. -/
  prog0 : Option SeProg
  prog1 : Option SeProg
  /-- Pending entries, by bit. -/
  pend : Nat
  /-- The instruction at the PC is executed this many times more (R199), and the core accesses that wait for its end. -/
  rpt : Option Nat
  waits : List SeWait
  /-- An IOLD or IOST of it is under way (R205). -/
  iow : Bool
  /-- A STOP waits for the end of a REPEAT (R203). -/
  stop : Bool
  /-- SIG cycles since the start of the level-0 program. -/
  cyc : Nat
  /-- What the last instruction wrote, for the stalls of R200: indices by bit, and FLG or MOD. -/
  hazI : Nat
  hazM : Bool
  /-- Address of the last instruction executed. -/
  last : BitVec 13
  deriving DecidableEq, Repr
/-- The pulse unit behind its registers (R238 to R252). -/
structure PwmState where
  /-- Outputs whose turn-on is scheduled at the end of a dead time, and the ns left until then on leg A and on leg B. -/
  pendOn : Nat
  dtLeftA : Nat
  dtLeftB : Nat
  /-- The last turn-off of leg A and of leg B, in 250 ps units from the Strike of this tick. -/
  lastOffA : Int
  lastOffB : Int
  /-- CC0, CC1 held halted by the debug port (R249). -/
  halt0 : Bool
  halt1 : Bool
  /-- The carrier's place in its period, in 250 ps units, and the values read at the period's start. -/
  phase : Nat
  cper : Nat
  center : Bool
  ccmp : List Nat
  oen : Nat
  compA : Bool
  compB : Bool
  /-- Compares already met in this period, by output; no time has passed since the period began. -/
  met : Nat
  begun : Bool
  /-- The outputs keep their levels until the next Strike, after a gate fault or a freeze in carrier mode (R245, R249). -/
  wait : Bool
  /-- The level of each fault input and since when by FCU.TIME, as last reported (R244). -/
  fltAt : List (Option (Bool × Int))
  deriving DecidableEq, Repr

/-- The converters behind their registers (R253 to R265). -/
structure AdcState where
  /-- A converter's sequencer entry under way, and its entries that wait. -/
  conv : List (Option Nat)
  /-- The instant of the tick at which the entry under way started, in ns (R261). -/
  convAt : List Nat
  waiting : List (List Nat)
  /-- CALO of a converter as the next Strike takes it (R260). -/
  newO : List (Option Nat)
  /-- Ticks since the last completed tracking conversion. -/
  since : List Nat
  /-- Of each limit comparator: the run of conversions beyond its limits, whether it has acted for this
  excursion, and whether the last conversion lay beyond. -/
  run : List Nat
  acted : List Bool
  beyond : List Bool
  deriving DecidableEq, Repr
/-- The timebase behind its registers (R268 to R281). -/
structure TbsState where
  /-- System time in units of 2^-40 ns. -/
  units : Nat
  /-- Nanoseconds of the TIME cycle under way. -/
  rem : Nat
  /-- FADJ as it acts in that cycle (R275). -/
  fadj : Int
  /-- Nanoseconds since the last delivered offset. -/
  sinceOfs : Nat
  /-- The last refused offset in 1/256 ns, and how many consecutive refused offsets confirm it (R277). -/
  lastRef : Option Int
  confirm : Nat
  deriving DecidableEq, Repr

/-- An entry of a MAC's departure capture FIFO (R285, R291). -/
structure Capture where
  tag : Nat
  sec : Nat
  ns : Nat
  sub : Nat
  deriving DecidableEq, Repr

/-- A frame of the timed queue: its ring index, frame, timing word and control word (R285, R287). -/
structure TimedTx where
  index : Nat
  f : Frame
  sec : Nat
  ns : Nat
  ctl : Nat
  /-- It has been classified at the transmitter under R289. -/
  atHead : Bool
  deriving DecidableEq, Repr

/-- A completion that the MAC has to report by R437: ring index and the status word it writes. -/
structure EthDone where
  index : Nat
  status : Nat
  deriving DecidableEq, Repr

/-- A MAC behind its registers. -/
structure EthState where
  fifo : List Capture
  timed : List TimedTx
  /-- Descriptors the transmitter has taken from the ring, and their completions to report. -/
  taken : Nat
  txDone : List EthDone
  rxDone : List EthDone
  /-- Frames put on the wire, newest first. -/
  wire : List Frame
  deriving DecidableEq, Repr
/-- A record in the making (R297 to R311). -/
structure AcqRec where
  /-- Number of the trigger sample since enable, PREACT, and the index at which the record ends. -/
  t0 : Nat
  pre : Nat
  stop : Nat
  /-- The primary trigger source, the comparator or bit of it, and the mask of the sources that fired (R301). -/
  prim : Nat
  cb : Nat
  fired : Nat
  /-- Tick number, time and TP at the trigger sample (R310). -/
  tick : Nat
  sec : Nat
  ns : Nat
  sub : Nat
  tper : Nat
  /-- FLAGS as of now. -/
  flags : Nat
  /-- Missed triggers and the dead time before it (R302). -/
  missed : Nat
  dead : Nat
  /-- Trigger table entries, oldest first: source, CB, index; and XTRG. -/
  trig : List (Nat × Nat × Int)
  xtrg : Nat
  /-- A mask violation closes the acquisition after this record (R304). -/
  viol : Bool
  /-- Entries written, newest first; the number of the next sample to read; last stored values of change-only
  channels; marks that wait for their index: index, kind and value. -/
  entries : List Nat
  next : Nat
  last : List (Nat × Nat)
  marks : List (Int × Nat × Nat)
  /-- Values of the measured channel from index 0 on. -/
  win : List Nat
  deriving DecidableEq, Repr

/-- What CLOSE is doing (R313). -/
inductive AcqPhase where
  | encode | copy | measure
  deriving DecidableEq, Repr

/-- The acquisition behind its registers (R292 to R316). -/
structure AcqState where
  /-- Samples taken since the last enable; the last one's values, if the sample tick before this one had a sample. -/
  count : Nat
  prev : Option (List Nat)
  /-- This tick has had its sample; the instant of the last one in ns of FCU.TIME. -/
  sampled : Bool
  since : Nat
  /-- Armed trigger sources, and those seen enabled. -/
  armed : Nat
  known : Nat
  /-- Samples since segment 0 of each mask began; none outside the table. -/
  masks : List (Option Nat)
  /-- CMD.ARM and CMD.FORCE wait for the next sample; the block stops after CLOSE, and for which cause. -/
  armReq : Bool
  forceReq : Bool
  stop : Option Nat
  /-- Triggers missed since the last record (R302). -/
  missed : Nat
  /-- The dead time began at this instant; or it begins at the next sample. -/
  deadFrom : Option Nat
  deadWait : Bool
  /-- The dead time before the record under way (R316). -/
  deadT : Nat
  /-- The encoder's unused time in ns. -/
  credit : Nat
  /-- The record under way, and what CLOSE is doing with it. -/
  record : Option AcqRec
  phase : AcqPhase
  /-- Ticks since the last sample tick; a mark of R306 has closed the record in CLOSE. -/
  ticks : Nat
  marked : Bool
  /-- The instant of step 2 of R313; the engine that measures has trapped since. -/
  meas : Nat
  trapped : Bool
  deriving DecidableEq, Repr
/-- A record of a mirror (R320): its type, index and words. -/
structure MirRec where
  rtype : Nat
  index : Nat
  words : List Nat
  deriving DecidableEq, Repr

/-- The redundancy unit behind its registers (R317 to R329). -/
structure RedState where
  /-- Consecutive ticks in START without a Mirror frame with ACT = 1 from the partner (R318). -/
  startTicks : Nat
  /-- A full Mirror segment with ACT = 1 came from the partner in this tick. -/
  mirSeen : Bool
  /-- A control frame with ACT = 1 came from the partner in this tick. -/
  actSeen : Bool
  /-- The full mirror segments of this tick, by segment index. -/
  segs : List (Nat × Frame)
  /-- Consecutive Strikes at which a complete mirror was applied (R322). -/
  complete : Nat
  /-- Consecutive silent ticks (R323). -/
  silent : Nat
  /-- HB of the last full Mirror frame, and the ticks it has not changed. -/
  lastHb : Option Nat
  hbSame : Nat
  /-- A full Mirror frame of this tick carried YIELD, and what its HB was. -/
  yieldSeen : Bool
  hbNow : Option Nat
  /-- The reason for which the member is in TAKING, and whether it was READY when it detected the loss (R324). -/
  reason : Nat
  lossReady : Bool
  /-- A yield is wanted; YIELD has been launched in this tick's mirror (R327). -/
  yieldReq : Bool
  yieldSent : Bool
  /-- READY and REVREQ of the partner's short Mirror frame of this tick. -/
  shortReady : Bool
  revSeen : Bool
  /-- The last mirrored EPOCH of the partner. -/
  pEpoch : Nat
  /-- Records of types 3 and 4 held for takeover. -/
  held : List MirRec
  /-- An ACT = 1 frame from the partner came in this tick while active, and the EPOCH of its full
  mirror if one came (R329). -/
  dual : Bool
  dualEpoch : Option Nat
  /-- The primary asks for the return (R328). -/
  revReq : Bool
  /-- This tick's Mirror frame has been launched. -/
  sent : Bool
  /-- Trajectories sent, as bytes 12 to L - 5, by 2p + a (R320). -/
  trajSent : List (Nat × List Byte)
  /-- Ticks left of the trajectory period under way, and its M (R47). -/
  periodLeft : Nat
  periodM : Nat
  deriving DecidableEq, Repr
/-- The Almanac unit behind its registers: what it accumulates in the running hour, the entry being programmed,
and the instants it counts from (R341 to R346). -/
structure AlmState where
  /-- Events of the hour: loss of lock, failing CRCs, output transitions, DRAM corrected errors, VIN excursions,
  entries to SEVERE and to LATCHED. -/
  llol : Nat
  lcrc : Nat
  swc : Nat
  dce : Nat
  vinx : Nat
  fsev : Nat
  flat : Nat
  /-- Die temperature samples of the hour: highest, lowest, sum and number. -/
  tmax : Int
  tmin : Int
  tsum : Int
  tcnt : Nat
  /-- Rainflow counts by range and open turning points, newest first, of the die temperature and of TSW. -/
  drf : List Nat
  srf : List Nat
  dTurn : List Int
  sTurn : List Int
  /-- SEQ of the next entry. -/
  seq : Nat
  /-- The entry being programmed, whether this is its second try, and the entries that wait. -/
  prog : Option (List Byte)
  second : Bool
  waiting : List (List Byte)
  /-- FCU.TIME in ns at reset release and at the start of the running hour; the start entry has been written; LOCK
  has been 1 since reset. -/
  rel : Nat
  hour : Nat
  started : Bool
  locked : Bool
  deriving DecidableEq, Repr
/-- The state of a safety channel (R376). -/
inductive SafSt where
  | start | idle | run | safe | fault
  deriving DecidableEq, Repr

/-- A safety channel on the field die (R367 to R376). -/
structure SafChan where
  st : SafSt
  /-- Filtered levels of SI0 to SI7 and its SA current in microampere. -/
  si : Nat
  sa : Nat
  /-- Its reading of the sealed switches, and whether it has read them since START. -/
  dip : Nat
  dipRead : Bool
  /-- Discrepant pairs. -/
  disc : Nat
  /-- SIP0 has been healthy for 1 s since START. -/
  sip0Ok : Bool
  /-- SIP1 shows open since this time of the field die, and its discharge time has been reached. -/
  openSince : Option Nat
  reached : Bool
  /-- A latched motion violation (R373). -/
  viol : Bool
  /-- The last reaction's cause code, and a reaction the mirror has not reported. -/
  cause : Nat
  react : Bool
  /-- Its output of SOP0 and of SOP1 is energised. -/
  so0 : Bool
  so1 : Bool
  /-- The counts of its encoder within the last 10 ms, each with its time on the field die, and whether a window of 10 ms
  has held more than the limit (R373). -/
  edges : List (Nat × Int)
  fast : Bool
  /-- Since when, by the time of the field die, the inputs of each pair differ, and both are at 24 V (R370). -/
  differ : List (Option Nat)
  high : List (Option Nat)
  /-- The commands of SIP2 (1) and SIP3 (2), the counts since they last changed, and the furthest of them in the
  commanded direction (R373). -/
  cmd : Nat
  trav : Int
  far : Int
  /-- Since when SIP2 and SIP3 are both inactive without motion beyond 16 counts, and the counts since then (R373). -/
  calm : Option Nat
  drift : Int
  deriving DecidableEq, Repr

/-- An encoder channel behind its registers (R364, R365): levels, the window's count, a wire fault
on A or B in the window, and the pairs with a wire fault now (1 A, 2 B, 4 Z). -/
structure EncChan where
  a : Bool
  b : Bool
  z : Bool
  count : Int
  bad : Bool
  wire : Nat
  deriving DecidableEq, Repr

/-- What the field die has received of the field channels' configuration and commands (R353, R354, R357, R363): masks of the
channels commanded on, in output and in input mode, with FAILST 1, with AUTO 1, with dark tests; the filter times; whether dark tests
run; and the bypass request with its channel and its hold duty. -/
structure FieldRx where
  out : Nat
  outMode : Nat
  inMode : Nat
  failst : Nat
  auto : Nat
  dten : Nat
  filt : List Nat
  tests : Bool
  byp : Bool
  och : Nat
  hd : Nat
  deriving DecidableEq, Repr

/-- What the field die has to report to the main die: failed frames, tests passed and abandoned, field-die resets, bits of
FIO.FLT, channels shut down by temperature, channels found shorted to VFLD, and pairs of tied channels (R353, R356, R358 to
R361). -/
structure FieldTold where
  crce : Nat
  pass : Nat
  aband : Nat
  fdrc : Nat
  flt : Nat
  ot : Nat
  shv : Nat
  ties : List (Nat × Nat)
  deriving DecidableEq, Repr

/-- The field die and the isolation link, which run on VFLD alone (R352 to R376, R404). -/
structure FieldState where
  up : Bool
  /-- Time of the field die in ns. -/
  ns : Nat
  /-- VFLD in 1/256 V, with its warning and unreliable states. -/
  volt : Nat
  vwarn : Bool
  vlow : Bool
  /-- Filtered pin levels of the sixteen channels. -/
  pins : Nat
  /-- Channels off by thermal shutdown; groups off; every output off since a field-die reset; channels held under R360. -/
  thermal : Nat
  grp : Nat
  off : Bool
  held : Nat
  /-- The link as the main die sees it and as the field die sees it: lost, runs of bad and good frames; the main die has
  flagged its loss. -/
  lossMain : Bool
  lossFlag : Bool
  badMain : Nat
  goodMain : Nat
  lossField : Bool
  badField : Nat
  goodField : Nat
  /-- What the field die received before its side of the link was lost or stopped, and what it has not yet reported. -/
  rx : FieldRx
  told : FieldTold
  /-- The channel under dark test, the channels of the round still to test, and the channel being
  classified under R360. -/
  test : Option Nat
  round : List Nat
  cls : Option Nat
  /-- The bypass drive: the channel driven, whether its pull-in time is running, since when it has been chopped with the
  transitions counted so far, and whether the request names a channel that is not in output mode. -/
  drive : Option Nat
  pullIn : Bool
  chop : Option (Nat × Nat)
  bypBad : Bool
  /-- The safety channels (R367). -/
  saf : List SafChan
  /-- What the safety channels have to report: disagreement, discrepancy, fault, switch change. -/
  xdisP : Bool
  discP : Bool
  faultP : Bool
  dipP : Bool
  /-- Since when the two channels disagree in each SI level, in the SA reading, in each decision (R368). -/
  xdisAt : List (Option Nat)
  /-- The encoder channels (R364). -/
  enc : List EncChan
  deriving DecidableEq, Repr
/-- What the module keeps in OTP and in the sealed key store: it survives every reset (R381, R387, R395). -/
structure SecStore where
  /-- Life-cycle state: 0 Blank, 1 Provisioned, 2 Field, 3 Returned, 4 Retired; passes through Blank so far. -/
  lcs : Nat
  passes : Nat
  /-- Minimum SVN of vendor and owner images. -/
  vendorSvn : Nat
  ownerSvn : Nat
  /-- Owner root public key, and the one a key change installs at the next reset. -/
  ownerKey : Option (List Byte)
  newKey : Option (List Byte)
  /-- Identity generation count, whether an identity has been generated, and complete lower trees. -/
  gen : Nat
  ident : Bool
  /-- The identity that a provisioning ordered has yet to be generated (R388). -/
  making : Bool
  /-- Complete lower trees of the identity (R391). -/
  trees : Nat
  /-- The next identity index. -/
  next : Nat
  /-- The KIND of the transition whose erasure has not been completed: 0 while the completion marker stands. -/
  wipe : Nat
  /-- How often the vendor minimum has risen: each rise takes one of its 64 OTP fuses (R387). -/
  rises : Nat
  deriving DecidableEq, Repr

/-- The SEC commands that run until they are done (R393). -/
inductive SecCmd where
  | nonce | verify | sign | attest | extend | order
  deriving DecidableEq, Repr

/-- The security engine behind its registers (R384 to R402). -/
structure SecState where
  cmd : Option SecCmd
  /-- An entropy health test has failed. -/
  trng : Bool
  /-- A nonce has been formed. -/
  nonceOk : Bool
  /-- MEAS0 is locked against software; MEAS1 and MEAS2 are locked. -/
  lock0 : Bool
  lock12 : Bool
  /-- The debug port has been opened since reset. -/
  opened : Bool
  /-- FCU.TIME in ns of the identity signatures of the last second. -/
  sigs : List Nat
  /-- The slot of the reservation log that the next record takes. -/
  pos : Nat
  /-- SVN of the booted images; a vendor base is valid; the boot ROM has run; a transition awaits its reset. -/
  vSvn : Nat
  oSvn : Nat
  vendorOk : Bool
  booted : Bool
  trans : Bool
  /-- What an ATTEST under way found at its command: the configuration digest and ALM.STA.WIDX (R394). -/
  attCfg : List Byte
  attWidx : Nat
  deriving DecidableEq, Repr

/-- The state of the module. -/
structure State where
  phase : Phase
  /-- Register fields that do not hold their reset value, by field key. -/
  regs : List (Nat × Nat)
  /-- Values written to ST fields and not yet applied, by field key (R8). -/
  staged : List (Nat × Nat)
  /-- The shadow of the high word of each 64-bit register, by word address (R10). -/
  shadow : List (Nat × Nat)
  /-- The pending high word of each 64-bit register, by word address (R11). -/
  pendHigh : List (Nat × Nat)
  /-- The response of the last register access (R3). -/
  resp : Resp
  /-- The memories, in canonical form (R213). -/
  mem : List Host.Cell
  /-- The flash, in canonical form (R381). -/
  flash : List Host.Cell
  /-- Supply and reset. -/
  pwr : PwrState
  /-- Nanoseconds since the last Strike or local tick instant. -/
  tickNs : Nat
  /-- The fault unit, the dispatcher and the cores. -/
  fcu : FcuState
  dsx : DsxState
  cores : List CoreState
  /-- Frames the module has put on its lanes, newest first. -/
  out : List Sent
  /-- The tick generator, the lanes and the blocks of chapters 4 to 7. -/
  tck : TckState
  lanes : List LaneState
  azf : AzfState
  cell : CellState
  rse : RseState
  cle : CleState
  se : List SeState
  /-- Rows of two words, by address, in which an uncorrectable error stands (R208, R215, R348). -/
  bad : List Nat
  /-- Rows in which a single-bit error stands until they are scrubbed or written (R208, R215). -/
  soft : List Nat
  /-- The blocks of chapters 9 to 14. -/
  pwm : PwmState
  adc : AdcState
  tbs : TbsState
  eth : List EthState
  acq : AcqState
  red : RedState
  alm : AlmState
  field : FieldState
  /-- The time in ns of FCU.TIME at which the last SAF mirror update arrived (R380). -/
  safAt : Option Nat
  /-- The security engine, and what it keeps through resets. -/
  sec : SecState
  store : SecStore
  /-- The model's own: how many free values have been taken. DESIGN CHOICE (log 3). -/
  freeCtr : Nat
  /-- The model's own: commands waiting, first in first out. DESIGN CHOICE (log 1). -/
  pending : List Instr
  deriving DecidableEq, Repr

/-- A core before it starts: machine mode, every PMP entry off. DESIGN CHOICE (log 8). -/
def CoreState.init : CoreState :=
  { on := false, x := List.replicate 32 0, user := false, pc := 0, mepc := 0, mcause := 0, mtval := 0, mtvec := 0, mscratch := 0, mie := false,
    mpie := false, mpp := false, mprv := false, tw := false, meie := false, povie := false,
    pmpcfg := List.replicate 16 0, pmpaddr := List.replicate 16 0, cy := false, ir := false, mcycle := 0, minstret := 0,
    rd := 0, resv := Option.none, stale := [], pcOpen := false, retOpen := false, psb := [], psbSeq := 0, lfsr := 0, interval := 0 }

/-- The cores after a module reset: CC0 has started (R216). -/
def CoreState.fresh : List CoreState := { CoreState.init with on := true } :: List.replicate 7 CoreState.init

/-- The dispatcher with empty queues, slots and holds (R227). -/
def DsxState.init : DsxState :=
  { queue := [], slots := List.replicate 8 Option.none, held := List.replicate 8 Option.none, nextId := 0,
    timers := [] }

/-- The FCU after a power-on reset: every source CLEAR, an empty log, FCU.TIME 0. -/
def FcuState.init : FcuState :=
  { timeNs := 0, srcs := [], log := [], restartAt := Option.none, reacted := [] }

/-- The tick generator without announcement or Repeats. -/
def TckState.init : TckState :=
  { tpLeft := 0, move := 0, frac := 0, sys := 0, repeats := [[], []], cons := [0, 0], consHeld := [false, false],
    winHeld := [false, false], due := [], later := [], struck := false }

/-- A lane in OFF. DESIGN CHOICE (log 8). -/
def LaneState.init : LaneState :=
  { since := 0, byRetrain := false, measured := false, good := 0, farRrdy := false, farPrecReq := false,
    farPrecAck := false, farCount := 255, stPre := 0, stMain := 0, stPost := 0, rqPre := 0, rqMain := 0,
    rqPost := 0, whole := 0, began := false, rqFarPre := 0, rqFarMain := 0, rqFarPost := 0, askPreset := false,
    rrdy := false, count := 255, rfRun := 0, badHdr := [], tx := Option.none, txStop := 0, txTwo := false, scr := 0,
    last := 0, line := [], lineEnd := 0, rxScr := 0, rxLast := 0 }

/-- A lane without link-delay measurement. -/
def LinkMeas.init : LinkMeas := { svc := 0, pseq := 0, asked := Option.none, acc := [], count := 0, rej := 0 }

/-- The frame unit after reset: the pool empty, SPLIT not valid, no link delay measured (R123). -/
def AzfState.init : AzfState :=
  { queue := [], kept := [], laneEvents := List.replicate 20 0, slotSent := false, harvSeen := false,
    cmdSeen := false, copySeen := false, timSeen := false, links := List.replicate 20 LinkMeas.init, pick := Option.none,
    holdover := false, align := { good := 0, outl := 0, noBand := 0, last := [] }, tnum := Option.none,
    ringN := 0, recNode := Option.none, enums := [], seenA := Option.none, seenB := Option.none,
    refBy := 0, conf := [], serials := [], segTx := [], segRx := Option.none, mseq := 0, outbox := [],
    acks := [], fresh := [], freshTx := [0, 0], splits := [], trajs := [], trajNew := [], hdone := 0,
    cmdat := 0, reports := [], partnerOut := [], toldOut := [] }

/-- The insertion logic before its first Strike. -/
def CellState.init : CellState :=
  { vcap := 0, vcapOk := false, ins := false, cmd := .none, leavePend := false, rejoinPend := false,
    miss := false, planNeg := false, planToff := 0, planIarm := 0, trim := false, trimDue := false,
    trimNeg := false, trimIarm := 0, trimRes := Option.none, trimd := false, swcnt := 0, reversed := false, insNow := 0,
    residNow := 0, decRow := 0, decNext := 0, aux := Option.none, recAck := false }

/-- A cell-table entry after reset: not in the map. -/
def CellEnt.init : CellEnt :=
  { pres := false, fb := false, est := 0, cand := false, held := false, unreach := false,
    left := false, lost := 0, away := 0, byp := 0, gone := false, leaveSent := false, leaveDone := false,
    leaveAgain := false, cstate := 0,
    l0dn := false, l1dn := false }

/-- An RSE instance after reset (R149). -/
def RseInst.init : RseInst :=
  { rho := 0, clr := false, ksel := 0, vmean := Option.none, dirs := [0, 0, 0, 0], trimNow := 0,
    trimNext := 0, expNow := Option.none, expNext := Option.none, cmd := Option.none, dirNext := 0 }

/-- The rank-select engine after reset. -/
def RseState.init : RseState :=
  { cells := [], acc := [], dup := [], copies := [], prev := [], inst := [RseInst.init, RseInst.init],
    allowed := 0, begun := 0, counted := 0, downs := 0, reps := 0, seen := 0 }

/-- The engine idle, every input never accepted. -/
def CleState.init : CleState :=
  { queue := [], run := Option.none, finished := [], first := [], inputs := [], oseqs := [], preset := 0,
    pgnOut := List.replicate 16 0 }

/-- A register bank that reads 0. -/
def SeBank.init : SeBank :=
  { d := List.replicate 4 0, w := List.replicate 4 0, ix := List.replicate 8 0, st := List.replicate 8 0,
    c := List.replicate 8 0, shc := 0, flg := 0, md := 0, stack := [] }

/-- An engine that runs nothing. -/
def SeState.init : SeState :=
  { bank0 := SeBank.init, bank1 := SeBank.init, prog0 := Option.none, prog1 := Option.none, pend := 0,
    rpt := Option.none, waits := [], iow := false, stop := false, cyc := 0, hazI := 0, hazM := false, last := 0 }

/-- The pulse unit with nothing pending (R266). DESIGN CHOICE (log 8). -/
def PwmState.init : PwmState :=
  { pendOn := 0, dtLeftA := 0, dtLeftB := 0, lastOffA := -1000000, lastOffB := -1000000, halt0 := false, halt1 := false,
    phase := 0, cper := 0x9C40, center := false, ccmp := [0, 0, 0, 0], oen := 0, compA := false, compB := false, met := 0,
    begun := false, wait := false, fltAt := List.replicate 4 Option.none }

/-- The converters idle. -/
def AdcState.init : AdcState :=
  { conv := [Option.none, Option.none], convAt := [0, 0], waiting := [[], []], newO := [Option.none, Option.none],
    since := [0, 0], run := [0, 0, 0, 0], acted := [false, false, false, false],
    beyond := [false, false, false, false] }

/-- System time at 0 (R290). -/
def TbsState.init : TbsState := { units := 0, rem := 0, fadj := 0, sinceOfs := 0, lastRef := Option.none, confirm := 0 }

/-- A MAC with empty queues. -/
def EthState.init : EthState := { fifo := [], timed := [], taken := 0, txDone := [], rxDone := [], wire := [] }

/-- The acquisition idle, nothing sampled. -/
def AcqState.init : AcqState :=
  { count := 0, prev := Option.none, sampled := false, since := 0, armed := 0, known := 0,
    masks := List.replicate 4 Option.none, armReq := false, forceReq := false, stop := Option.none, missed := 0,
    deadFrom := Option.none, deadWait := false, deadT := 0, credit := 0, record := Option.none, phase := .encode,
    ticks := 0, marked := false, meas := 0, trapped := false }

/-- The redundancy unit in START (R318). -/
def RedState.init : RedState :=
  { startTicks := 0, mirSeen := false, actSeen := false, segs := [], complete := 0, silent := 0,
    lastHb := Option.none, hbSame := 0, yieldSeen := false, hbNow := Option.none, reason := 0, lossReady := false,
    yieldReq := false, yieldSent := false, shortReady := false, revSeen := false, pEpoch := 0, held := [],
    dual := false, dualEpoch := Option.none, revReq := false, sent := false, trajSent := [],
    periodLeft := 0, periodM := 0 }

/-- The Almanac unit at the start of an hour, nothing programmed. -/
def AlmState.init : AlmState :=
  { llol := 0, lcrc := 0, swc := 0, dce := 0, vinx := 0, fsev := 0, flat := 0, tmax := 0, tmin := 0, tsum := 0,
    tcnt := 0, drf := [0, 0, 0, 0], srf := [0, 0, 0, 0], dTurn := [], sTurn := [], seq := 0, prog := Option.none,
    second := false, waiting := [], rel := 0, hour := 0, started := false, locked := false }

/-- A safety channel at the start of START. -/
def SafChan.init : SafChan :=
  { st := .start, si := 0, sa := 0, dip := 0, dipRead := false, disc := 0, sip0Ok := false,
    openSince := Option.none, reached := false, viol := false, cause := 0, react := false, so0 := false,
    so1 := false, edges := [], fast := false, differ := List.replicate 4 Option.none, high := List.replicate 4 Option.none,
    cmd := 0, trav := 0, far := 0, calm := Option.none, drift := 0 }

/-- An encoder channel with its counts at 0. -/
def EncChan.init : EncChan := { a := false, b := false, z := false, count := 0, bad := false, wire := 0 }

/-- Nothing received yet: every channel disabled. -/
def FieldRx.init : FieldRx :=
  { out := 0, outMode := 0, inMode := 0, failst := 0, auto := 0, dten := 0, filt := List.replicate 16 10, tests := false,
    byp := false, och := 0, hd := 15 }

/-- Nothing to report. -/
def FieldTold.init : FieldTold :=
  { crce := 0, pass := 0, aband := 0, fdrc := 0, flt := 0, ot := 0, shv := 0, ties := [] }

/-- The field die without supply and the link not yet running. DESIGN CHOICE (log 8). -/
def FieldState.init : FieldState :=
  { up := false, ns := 0, volt := 0, vwarn := true, vlow := true, pins := 0, thermal := 0, grp := 0,
    off := true, held := 0, lossMain := true, lossFlag := false, badMain := 0, goodMain := 0, lossField := true,
    badField := 0, goodField := 0, rx := FieldRx.init, told := FieldTold.init, test := Option.none, round := [],
    cls := Option.none, drive := Option.none, pullIn := false, chop := Option.none, bypBad := false,
    saf := [SafChan.init, SafChan.init], xdisP := false, discP := false, faultP := false, dipP := false,
    xdisAt := List.replicate 11 Option.none, enc := List.replicate 4 EncChan.init }

/-- A module as it leaves the factory: Blank, with no owner and no identity. DESIGN CHOICE (log 8). -/
def SecStore.init : SecStore :=
  { lcs := 0, passes := 1, vendorSvn := 0, ownerSvn := 0, ownerKey := Option.none, newKey := Option.none, gen := 0,
    ident := false, making := false, trees := 0, next := 0, wipe := 0, rises := 0 }

/-- The security engine after a reset. -/
def SecState.init : SecState :=
  { cmd := Option.none, trng := false, nonceOk := false, lock0 := false, lock12 := false, opened := false, sigs := [],
    pos := 0, vSvn := 0, oSvn := 0, vendorOk := false, booted := false, trans := false,
    attCfg := [], attWidx := 0 }

/-- The module right after a power-on reset has been triggered, held in reset, with no straps latched,
every register at its reset value and PWR.RSTC.CAUSE 1 (R409). DESIGN CHOICE (log 8). -/
def State.reset : State :=
  { phase := .held
    regs := [(R.PWR_RSTC_CAUSE.key, 1)]
    staged := [], shadow := [], pendHigh := []
    resp := ⟨false, 0⟩
    mem := [], flash := []
    pwr := { vin := 0, seen := false, up := false, ovHold := false, thHold := false, ckHold := false, armed := false, armAt := 0, swPend := false,
             pins := ⟨0, 0, 0⟩ }
    tickNs := 0
    fcu := FcuState.init
    dsx := DsxState.init
    cores := CoreState.fresh
    out := []
    tck := TckState.init
    lanes := List.replicate 20 LaneState.init
    azf := AzfState.init
    cell := CellState.init
    rse := RseState.init
    cle := CleState.init
    se := List.replicate 4 SeState.init
    bad := [], soft := []
    pwm := PwmState.init
    adc := AdcState.init
    tbs := TbsState.init
    eth := [EthState.init, EthState.init]
    acq := AcqState.init
    red := RedState.init
    alm := AlmState.init
    field := FieldState.init
    safAt := Option.none
    sec := SecState.init
    store := SecStore.init
    freeCtr := 0
    pending := [] }

end Sys2Proof.Machine
end

