-- ==== Sys2Proof/Machine/Ops.lean ====
section
/-! DEFINITION. The named operations over the register fields, the memories, the role and the gates
of power that every family shares. -/

namespace Sys2Proof.Machine

/-! ### Register fields -/

/-- The value of a register field. -/
def State.get (s : State) (f : Fld) : Nat := alGet s.regs f.key f.reset % 2 ^ f.width

/-- A register field set by the hardware, cut to its width. -/
def State.put (s : State) (f : Fld) (v : Nat) : State :=
  { s with regs := alPut s.regs f.key (v % 2 ^ f.width) }

/-- Whether a one-bit field reads 1. -/
def State.on (s : State) (f : Fld) : Bool := s.get f == 1

/-- A one-bit field set to a Boolean. -/
def State.putB (s : State) (f : Fld) (b : Bool) : State := s.put f (b2n b)

/-- A field advanced by `n`, holding its largest value (a saturating counter). -/
def State.addSat (s : State) (f : Fld) (n : Nat) : State := s.put f (satNat f.width (s.get f + n))

/-- A saturating counter advanced by one. -/
def State.incSat (s : State) (f : Fld) : State := s.addSat f 1

/-- A wrapping counter advanced by one. -/
def State.incWrap (s : State) (f : Fld) : State := s.put f (s.get f + 1)

/-- Several fields set to 0. -/
def State.zero (s : State) (l : List Fld) : State := forEach l (fun f x => x.put f 0) s

/-- Bit `n` of a field. -/
def State.bit (s : State) (f : Fld) (n : Nat) : Bool := bitOf (s.get f) n

/-- Bit `n` of a field set or cleared. -/
def State.putBit (s : State) (f : Fld) (n : Nat) (b : Bool) : State :=
  s.put f (if b then setBitN (s.get f) n else clrBitN (s.get f) n)

/-- A field read as two's complement. -/
def State.getS (s : State) (f : Fld) : Int := toSigned f.width (s.get f)

/-- A field set to the two's complement form of an integer. -/
def State.putS (s : State) (f : Fld) (i : Int) : State := s.put f (ofSigned f.width i)

/-- The value that applies to an ST field at the next apply: the staged one, or the one in force (R8). -/
def State.stagedOf (s : State) (f : Fld) : Nat := alGet s.staged f.key (s.get f) % 2 ^ f.width

/-- A value staged for an ST field. -/
def State.stage (s : State) (f : Fld) (v : Nat) : State :=
  { s with staged := alPut s.staged f.key (v % 2 ^ f.width) }

/-- A free value of `w` bits, and the state that has taken it. DESIGN CHOICE (log 3). -/
def State.fresh (s : State) (w : Nat) : Nat × State :=
  (Config.free s.freeCtr % 2 ^ w, { s with freeCtr := s.freeCtr + 1 })

/-- A free bit: an open condition of the outside. -/
def State.freeBit (s : State) : Bool × State := ((s.fresh 1).1 == 1, (s.fresh 1).2)

/-- `n` bytes the spec leaves open. -/
def State.openBytes (s : State) : Nat → List Byte × State
  | 0 => ([], s)
  | n + 1 =>
    let (z, s) := s.fresh 8
    let (l, s) := s.openBytes n
    (BitVec.ofNat 8 z :: l, s)

/-! ### Role and power gating -/

/-- The latched role; a module with an invalid strap combination has none (R13, R15). -/
def State.role (s : State) : Role :=
  if s.on R.SYS_STRAP_BAD then .none
  else match s.get R.SYS_STRAP_ROLE with
    | 1 => .conductor
    | 2 => .sect
    | 3 => .cell
    | _ => .none

/-- Whether the module is a Conductor. -/
def State.isC (s : State) : Bool := decide (s.role = .conductor)
/-- Whether the module is a Section. -/
def State.isS (s : State) : Bool := decide (s.role = .sect)
/-- Whether the module is a Cell. -/
def State.isK (s : State) : Bool := decide (s.role = .cell)

/-- The pages of blocks that are power-gated in a role (R16, R15). -/
def gatedIn (r : Role) (p : Nat) : Bool :=
  match r with
  | .conductor => decide ((0x28 ≤ p ∧ p ≤ 0x2F) ∨ p = 0x32 ∨ p = 0x33)
  | .sect => false
  | .cell => decide (p = 0x0A ∨ p = 0x0D ∨ p = 0x0E ∨ p = 0x0F ∨ (0x11 ≤ p ∧ p ≤ 0x13) ∨ p = 0x17 ∨
      p = 0x18 ∨ p = 0x19 ∨ p = 0x1A ∨ (0x22 ≤ p ∧ p ≤ 0x33))
  | .none => decide (p = 0x19 ∨ p = 0x1A ∨ (0x20 ≤ p ∧ p ≤ 0x33))

/-- The module is in the image-failure state (R385). -/
def State.imgFail (s : State) : Bool := s.get R.SEC_STA_BSTAGE == 0xF

/-- A module in the image-failure state whose valid vendor base accepts a new owner image: through the mailbox in role K,
through station Ethernet in roles C and S (R385, R386). -/
def State.recovers (s : State) : Bool := s.imgFail && s.sec.vendorOk && decide (s.role ≠ .none)

/-- A cell takes part in its ring: not in the image-failure state without a valid vendor base (R385, R386). -/
def State.takesPart (s : State) : Bool := !s.imgFail || s.sec.vendorOk

/-- TCK.STAT.CSTATE. -/
def State.cstate (s : State) : Nat := s.get R.TCK_STAT_CSTATE

/-- Every block is held as in the role-less state (R15, R385). -/
def State.heldOff (s : State) : Bool := decide (s.role = .none) || s.imgFail

/-- The pages of lanes and Ethernet that the image-failure state holds: all but AZL0 and AZL1 in role K, and but
station Ethernet in roles C and S with a valid vendor base (R385). -/
def State.heldPage (s : State) (p : Nat) : Bool :=
  s.imgFail && ((decide (0x20 ≤ p ∧ p ≤ 0x33) && !(s.isK && decide (p ≤ 0x21))) ||
    (decide (p = 0x19 ∨ p = 0x1A) && !((s.isC || s.isS) && s.sec.vendorOk)))

/-- Whether the block of page `p` is power-gated, or held as a gated one. -/
def State.gated (s : State) (p : Nat) : Bool := gatedIn s.role p || s.heldPage p

/-- Whether core `c` is power-gated (R16). -/
def State.coreGated (s : State) (c : Nat) : Bool := s.isK && decide (2 ≤ c)

/-- CTL.EN of page `p`. -/
def State.en (s : State) (p : Nat) : Bool := s.on (R.EN p)

/-- The block of page `p` is powered and enabled. -/
def State.runs (s : State) (p : Nat) : Bool := !s.gated p && s.en p

/-- TCK.STAT.LOCK. -/
def State.lock (s : State) : Bool := s.on R.TCK_STAT_LOCK

/-- The tick period in ns (R34). -/
def State.tp (s : State) : Nat := s.get R.TCK_PER_PER * 10

/-- The 48-bit tick number. -/
def State.tick (s : State) : Nat := s.get R.TCK_NUM_NUM

/-- The low 16 bits of the tick number, as frames and slots carry them. -/
def State.tick16 (s : State) : Nat := s.tick % 65536

/-- The module's NodeID; 0 while it has none (R21). -/
def State.nodeId (s : State) : Nat := s.get R.SYS_NODEID_ID

/-- Whether SYS.NODEID holds a confirmed NodeID. -/
def State.idValid (s : State) : Bool := s.on R.SYS_NODEID_VALID

/-- Whether the module is member B of its pair. -/
def State.sideB (s : State) : Bool := s.on R.SYS_STRAP_SIDE

/-- A command acts only on a running module: in reset and during the reset wipe it has no effect
(R399, R409). DEDUCED (log 9). -/
def live (s t : State) : State :=
  match s.phase with
  | .run => t
  | _ => s

/-- `t` where the condition holds, `s` where the command finds nothing to do. -/
def State.when (s : State) (b : Bool) (t : State) : State := if b then t else s

/-- `t` where page `p` takes a command word: powered in the latched role, and not in a soft reset, whose writes are
ignored (R16, R431). DEDUCED (log 11). -/
def State.cmd (s : State) (p : Nat) (t : State) : State := s.when (!s.gated p && !s.on (R.SRB p)) t

/-- What the Almanac accumulates in the running hour, changed by `f` (R343). -/
def State.hourly (s : State) (f : AlmState → AlmState) : State := { s with alm := f s.alm }

/-- A frame that fails its CRC-32C is counted (R87, R343). -/
def State.badCrc (s : State) : State :=
  (s.incSat R.AZF_RXERR_FCRC).hourly (fun a => { a with lcrc := a.lcrc + 1 })

/-- A slot that fails its checks is counted; one that fails its CRC-16 also in the Almanac (R96, R343). -/
def State.badSlot (s : State) (crc : Bool) : State :=
  let s := s.incSat R.AZF_RXERR_SLOT
  if crc then s.hourly (fun a => { a with lcrc := a.lcrc + 1 }) else s

/-! ### Memories -/

/-- The byte of memory at an address of the map. DESIGN CHOICE (log 4). -/
def State.memByte (s : State) (a : Nat) : Byte := Memory.read 0 s.mem a

/-- The word of memory at an address of the map. -/
def State.mem32 (s : State) (a : Nat) : Nat := Memory.read32 0 s.mem a

/-- A word of memory written. -/
def State.setMem32 (s : State) (a v : Nat) : State := { s with mem := Memory.write32 0 s.mem a v }

/-- Bytes of memory written. -/
def State.setMem (s : State) (a : Nat) (l : List Byte) : State :=
  { s with mem := Memory.writeBytes 0 s.mem a l }

/-- Bytes of memory read. -/
def State.memBytes (s : State) (a n : Nat) : List Byte := Memory.readBytes 0 s.mem a n

/-- Bytes of flash programmed. DESIGN CHOICE (log 5). -/
def State.setFlash (s : State) (a : Nat) (l : List Byte) : State :=
  { s with flash := Memory.writeBytes 0xFF s.flash a l }

/-- Bytes of flash read. DESIGN CHOICE (log 5). -/
def State.flashBytes (s : State) (a n : Nat) : List Byte := Memory.readBytes 0xFF s.flash a n

/-- The row of two words that holds an address, by its address (R208, R215). -/
def rowOf (a : Nat) : Nat := a / 8 * 8

/-- An uncorrectable error stands in the row of an address. -/
def State.badRow (s : State) (a : Nat) : Bool := s.bad.contains (rowOf a)

/-- A single-bit error stands in the row of an address. -/
def State.softRow (s : State) (a : Nat) : Bool := s.soft.contains (rowOf a)

/-- No error stands in the row of an address any more. -/
def State.heal (s : State) (a : Nat) : State :=
  { s with bad := s.bad.filter (fun x => x != rowOf a), soft := s.soft.filter (fun x => x != rowOf a) }

/-- The row of an address holds an uncorrectable error. DEDUCED (log 207). -/
def State.markBad (s : State) (a : Nat) : State :=
  let s := s.heal a
  { s with bad := rowOf a :: s.bad }

/-- The row of an address holds a single-bit error. DEDUCED (log 207). -/
def State.markSoft (s : State) (a : Nat) : State :=
  let s := s.heal a
  { s with soft := rowOf a :: s.soft }

/-- What an access of address `a` that meets the new error `e` finds in its row: that error, or the worse one that
stands there. DEDUCED (log 207). -/
def State.eccAt (s : State) (a : Nat) (e : MemErr) : MemErr :=
  if e = .uncorrectable || s.badRow a then .uncorrectable
  else if e = .corrected || s.softRow a then .corrected
  else .none

/-- The row of address `a` as the access of `eccAt` leaves it: the error stands. -/
def State.eccMark (s : State) (a : Nat) (e : MemErr) : State :=
  match s.eccAt a e with
  | .none => s
  | .corrected => s.markSoft a
  | .uncorrectable => s.markBad a

/-! ### Cores -/

/-- Core `c`. -/
def State.core (s : State) (c : Nat) : CoreState := nth s.cores c CoreState.init

/-- Core `c` replaced. -/
def State.setCore (s : State) (c : Nat) (k : CoreState) : State :=
  { s with cores := setNth s.cores c k CoreState.init }

/-- Core `c` runs (R216). -/
def State.running (s : State) (c : Nat) : Bool := (s.core c).on

/-- The running cores, one bit a core. -/
def State.runMask (s : State) : Nat := (List.range 8).foldl (fun a c => a + b2n (s.running c) * 2 ^ c) 0

/-- A core takes an exception to machine mode with the given cause and trap value (R211, R212, R223;
the trap registers as the privileged architecture defines them). PRESUMED (log 6). -/
def State.trap (s : State) (c : Nat) (cause : Nat) (pc tval : BitVec 64) : State :=
  let k := s.core c
  s.setCore c { k with
    mepc := pc, mcause := BitVec.ofNat 64 cause, mtval := tval, mpp := !k.user, mpie := k.mie,
    mie := false, user := false, pc := k.mtvec &&& ~~~3#64, pcOpen := false }

/-- `n` bytes of memory at `a` have been written: every core's instruction cache may now be stale there (R214). -/
def State.markStale (s : State) (a n : Nat) : State :=
  { s with cores := s.cores.map (fun k => { k with stale := (a, n) :: k.stale }) }

/-- No core but `c` holds a reservation of any of the `n` bytes at `a`; 8 stands for another agent. PRESUMED (log 33). -/
def State.breakResv (s : State) (c a n : Nat) : State :=
  forUpTo 8 (fun d x => match (x.core d).resv with
    | Option.none => x
    | some (b, k) => if d ≠ c ∧ b < a + n ∧ a < b + k then x.setCore d { x.core d with resv := Option.none } else x) s

/-- A block or the debug port stores bytes into memory that cores reach (R214). -/
def State.storeMem (s : State) (a : Nat) (l : List Byte) : State :=
  ((s.setMem a l).markStale a l.length).breakResv 8 a l.length

/-! ### Frames put on lanes -/

/-- A frame launched on a lane. DESIGN CHOICE (log 58). -/
def State.send (s : State) (lane : Nat) (f : Frame) : State := { s with out := ⟨lane, f⟩ :: s.out }

end Sys2Proof.Machine
end

