-- ==== Sys2Proof/Machine/Fcu.lean ====
section
/-! DEFINITION. Raising a fault: the sticky bits, classification, reactions and log of the FCU (R331 to
R340), the routing of a page's FLT bits to it (R428, R432), and the issue of event descriptors by the
dispatcher (R217 to R219), which a reaction uses and which itself raises a source. -/

namespace Sys2Proof.Machine

/-! ### The dispatcher's issue of descriptors -/

/-- The event sources of R217; every other number is reserved. -/
def dsxDefined (n : Nat) : Bool :=
  decide (n ≤ 0x16 ∨ (0x20 ≤ n ∧ n ≤ 0x34) ∨ (0x38 ≤ n ∧ n ≤ 0x3C) ∨ n = 0x40 ∨ (0x44 ≤ n ∧ n ≤ 0x47) ∨
    (0x80 ≤ n ∧ n ≤ 0xBF))

/-- Descriptors queued, in slots and held (R219). -/
def State.dsxUsed (s : State) : Nat :=
  s.dsx.queue.length + (s.dsx.slots.filter Option.isSome).length + (s.dsx.held.filter Option.isSome).length

/-- DSX.POOL.FREE. -/
def State.dsxFree (s : State) : Nat := 4096 - s.dsxUsed

/-- The lowest free count followed (DSX.POOL.MINFREE). -/
def State.dsxMin (s : State) : State :=
  s.when (s.dsxFree < s.get R.DSX_POOL_MINFREE) (s.put R.DSX_POOL_MINFREE s.dsxFree)

/-- The first descriptor of source `src` in a queue has `n` added to its ARG (R219). DEDUCED (log 125). -/
def coalesce (src n : Nat) : List Desc → List Desc
  | [] => []
  | d :: t => if d.src = src then { d with arg := satNat 24 (d.arg + n) } :: t else d :: coalesce src n t

/-- The descriptor that an event of a source issues now. -/
def State.newDesc (s : State) (src arg : Nat) : Desc :=
  { id := s.dsx.nextId, tick := s.tick16, src := src, dom := s.get (R.DSX_SRC_DOM src),
    prio := s.get (R.DSX_SRC_PRIO src), unord := s.on (R.DSX_SRC_UNORD src), arg := arg % 2 ^ 24,
    cmask := s.get (R.DSX_SRC_CMASK src) }

/-- An event of a source at the dispatcher, and whether it found the pool full (R219, R227).
DEDUCED (log 125). -/
def State.dsxIssueCore (s : State) (src arg : Nat) : State × Bool :=
  if !dsxDefined src then (s, false)
  else if !s.en 8 then ((s.incSat R.DSX_DROP_POOL).put (R.DSX_SRC_DROPF src) 1, false)
  else if !s.on (R.DSX_SRC_EN src) ||
      Nat.land (s.get (R.DSX_SRC_CMASK src)) s.runMask == 0 then
    (s.put (R.DSX_SRC_DROPF src) 1, false)
  else if s.on (R.DSX_SRC_COAL src) && decide (src ≤ 0x16) && s.dsx.queue.any (fun d => d.src == src) then
    ({ s with dsx := { s.dsx with queue := coalesce src 1 s.dsx.queue } }, false)
  else if s.dsxFree = 0 then
    ((s.incSat R.DSX_DROP_POOL).put (R.DSX_SRC_DROPF src) 1, true)
  else
    (({ s with dsx := { s.dsx with queue := s.dsx.queue ++ [s.newDesc src arg],
                                   nextId := s.dsx.nextId + 1 } } : State).dsxMin, false)

/-! ### Classification -/

/-- FCU.TIME in microseconds, 48 bits (R335). -/
def State.fcuTime (s : State) : Nat := s.fcu.timeNs / 1000 % 2 ^ 48

/-- The difference of two FCU.TIME instants, modulo 2^48. -/
def usSince (now past : Nat) : Nat := (now + 2 ^ 48 - past) % 2 ^ 48

/-- What the FCU keeps of a source. -/
def State.fcuSrc (s : State) (n : Nat) : FcuSrc := alGet s.fcu.srcs n ⟨[], [], 0, 0⟩

/-- What the FCU keeps of a source replaced. -/
def State.setFcuSrc (s : State) (n : Nat) (x : FcuSrc) : State :=
  { s with fcu := { s.fcu with srcs := alPut s.fcu.srcs n x } }

/-- The sources R332 and R333 define. -/
def fcuIsDefined (n : Nat) : Bool := fcuDefined n == 1

/-- Recoveries of a source within the last 24 h of FCU.TIME (R335). -/
def State.fcuRecent (s : State) (n : Nat) : List Nat :=
  (s.fcuSrc n).recs.filter (fun t => decide (usSince s.fcuTime t < 86400000000))

/-- RCNT of a source now. -/
def State.fcuRcnt (s : State) (n : Nat) : Nat := (s.fcuRecent n).length

/-- Whether a source is in SEVERE or LATCHED. -/
def State.fcuSevere (s : State) (n : Nat) : Bool := decide (2 ≤ s.get (R.FCU_SST_STATE n))

/-- FCU.GSTA.SEVG: a severe FCU source is active (R338). -/
def State.sevg (s : State) : Bool :=
  (List.range 128).any (fun n => s.fcuSevere n && s.on (R.FCU_SCFG_GATE n))

/-- A log entry of a source written into the ring (R340). -/
def State.fcuLog (s : State) (src kind rcnt react : Nat) : State :=
  let t := s.fcuTime
  let e : LogEntry :=
    { w0 := t % 2 ^ 32, w1 := t / 2 ^ 32 + src * 2 ^ 16 + kind * 2 ^ 24,
      w2 := if s.lock then s.tick % 2 ^ 32 else 0, w3 := rcnt + react * 16 }
  let i := s.get R.FCU_LOGWR_IDX
  let s1 : State := { s with fcu := { s.fcu with log := alPut s.fcu.log i e } }
  let s2 := s1.put R.FCU_LOGWR_IDX (i + 1)
  if s.get R.FCU_LOGWR_UNREAD = 1024 then
    (s2.incWrap R.FCU_LOGRD_IDX).incSat R.FCU_LOST_LOST
  else s2.incWrap R.FCU_LOGWR_UNREAD

/-- N of a source (R335). -/
def State.fcuN (s : State) (n : Nat) : Nat := s.get (R.FCU_SCFG_NM1 n) + 1

/-- W of a source in microseconds; 0 acts as 1 ms. -/
def State.fcuW (s : State) (n : Nat) : Nat := max 1 (s.get (R.FCU_SCFG_W n)) * 1000

/-- Q of a source in microseconds; 0 acts as 100 ms. -/
def State.fcuQ (s : State) (n : Nat) : Nat := max 1 (s.get (R.FCU_SQCFG_Q n)) * 100000

/-- The event that follows `times` classifies: it and the N - 1 before it all lie within W. -/
def fcuClassifies (now n w : Nat) (times : List Nat) : Bool :=
  let l := (now :: times).take n
  decide (n ≤ l.length) && decide (usSince now (l.getLastD now) ≤ w)

/-- An event of a source at the FCU, and whether it takes the source's reaction (R331, R335, R339). -/
def State.fcuEventCore (s : State) (n : Nat) : State × Bool :=
  if !fcuIsDefined n then (s, false)
  else
    let s := s.putBit (R.FCU_STK_STK (n / 32)) (n % 32) true
    if !s.on (R.FCU_SCFG_EN n) then (s, false)
    else
      let now := s.fcuTime
      let x := s.fcuSrc n
      match s.get (R.FCU_SST_STATE n) with
      | 3 => (s, false)
      | 2 => (s.setFcuSrc n { x with last := now, quiet := s.fcuQ n }, false)
      | _ =>
        if fcuClassifies now (s.fcuN n) (s.fcuW n) x.times then
          let r := s.fcuRecent n
          let latch := decide (s.get (R.FCU_SQCFG_RCAP n) ≤ r.length)
          let s := s.setFcuSrc n { times := [], recs := r, last := now, quiet := s.fcuQ n }
          let s := s.put (R.FCU_SST_STATE n) (if latch then 3 else 2)
          let s := s.hourly (fun a => if latch then { a with flat := a.flat + 1 } else { a with fsev := a.fsev + 1 })
          (s.fcuLog n (if latch then 2 else 1) r.length (s.get (R.FCU_SCFG_REACT n)), true)
        else
          ((s.setFcuSrc n { x with times := (now :: x.times).take (s.fcuN n), last := now, quiet := s.fcuQ n }).put
            (R.FCU_SST_STATE n) 1, false)

/-! ### Reactions -/

/-- RED.STA.STATE reads ACTIVE. -/
def State.active (s : State) : Bool := s.get R.RED_STA_STATE == 1

/-- A yield by FCU reaction: in ACTIVE the member yields under R327. -/
def State.fcuYield (s : State) : State :=
  s.when (s.active && !s.isK) { s with red := { s.red with yieldReq := true } }

/-- A Leave at the cell: Orphan from the next Strike, and PWM.IDEC shows gates off where a Down frame has been decided on;
nothing in Orphan and in a recovery cell (R133, R141, R147, R151, R386). -/
def State.leave (s : State) : State :=
  if !s.isK || s.cstate == 3 || s.imgFail then s
  else
    let t : State := { s with cell := { s.cell with leavePend := true } }
    t.when (t.cell.cmd == .down) (((t.put R.PWM_IDEC_ROW 3).put R.PWM_IDEC_NEXT 3).put R.PWM_IDEC_TRIMP 0)

/-- What the reaction does beyond its log entry and its descriptor (R337). -/
def State.fcuAct (s : State) (react : Nat) : State :=
  match react with
  | 2 => s.fcuYield
  | 3 => if s.isK then s.leave else s.fcuYield
  | 4 => { s with fcu := { s.fcu with restartAt := some (s.fcu.restartAt.getD s.fcu.timeNs) } }
  | _ => s

/-- A severe source becoming active while the member is not ACTIVE puts it in HALTED (R317). -/
def State.redHalt (s : State) : State :=
  s.when ((s.isC || s.isS) && !s.active) (s.put R.RED_STA_STATE 4)

/-- An event of a source with its reaction, and whether the reaction's descriptor found the pool full.
DEDUCED (log 206). -/
def State.fcuStep (s : State) (n : Nat) : State × Bool :=
  let (s, r) := s.fcuEventCore n
  if !r then (s, false)
  else
    let react := s.get (R.FCU_SCFG_REACT n)
    let s : State := { s with fcu := { s.fcu with reacted := n :: s.fcu.reacted } }
    let s := if s.on (R.FCU_SCFG_GATE n) then s.redHalt else s
    if react = 0 then (s, false)
    else
      let (s, full) := s.dsxIssueCore 0x40 n
      (s.fcuAct react, full)

/-- An event of FCU source `n`. A reaction whose descriptor finds the pool full raises the
dispatch-overflow source; raisings of one source in one cycle form one event (R331, R219).
DEDUCED (log 206). -/
def State.fcuEvent (s : State) (n : Nat) : State :=
  let (s, full) := s.fcuStep n
  if full && n != 8 then (s.fcuStep 8).1 else s

/-- An event of DSX source `src` with the given ARG (R219). -/
def State.dsxIssue (s : State) (src arg : Nat) : State :=
  let (s, full) := s.dsxIssueCore src arg
  if full then s.fcuEvent 8 else s

/-- FLT bit `k` of page `p` is set: it is counted and routed to the page source where FEN names it
(R428, R432, R333). -/
def State.raiseFlt (s : State) (p k : Nat) : State :=
  let s := s.putBit (R.FLT p) k true
  if s.bit (R.FEN p) k then (s.incSat (R.FCT p)).fcuEvent (0x40 + p) else s

/-- FLT bits `ks` of page `p` are set in one cycle: FCT counts each that FEN names, and the page source has one event
(R331, R333, R432). DEDUCED (log 206). -/
def State.raiseFlts (s : State) (p : Nat) (ks : List Nat) : State :=
  let routed := ks.filter (fun k => s.bit (R.FEN p) k)
  let s := forEach ks (fun k x => x.putBit (R.FLT p) k true) s
  if routed = [] then s else (s.addSat (R.FCT p) routed.length).fcuEvent (0x40 + p)

/-- The names of the list `l` whose condition holds. -/
def chosen (l : List (Bool × Nat)) : List Nat := (l.filter (fun e => e.1)).map Prod.snd

/-- Events of several DSX sources in one cycle, in order: those that find the pool full raise the dispatch-overflow source
once (R219, R331). -/
def State.dsxIssues (s : State) (l : List (Nat × Nat)) : State :=
  let r := l.foldl (fun (x : State × Bool) e =>
    let y := x.1.dsxIssueCore e.1 e.2
    (y.1, x.2 || y.2)) (s, false)
  if r.2 then r.1.fcuEvent 8 else r.1

/-- As `raiseFlt`, only where the condition holds. -/
def State.raiseIf (s : State) (b : Bool) (p k : Nat) : State := if b then s.raiseFlt p k else s

/-- A source leaves SEVERE after its quiet period (R335). -/
def State.fcuRecover (s : State) (n : Nat) : State :=
  let x := s.fcuSrc n
  let r := s.fcuTime :: s.fcuRecent n
  let s := s.setFcuSrc n { x with times := [], recs := r }
  ((s.put (R.FCU_SST_STATE n) 1).put (R.FCU_SST_RCNT n) r.length).fcuLog n 3 r.length 0

end Sys2Proof.Machine
end

