-- ==== Sys2Proof/Machine/Clock.lean ====
section
/-! DEFINITION. The passing of time: FCU.TIME (R335), the instant within the tick (R37), system time
(R268, R269), the dispatcher's timers (R233), dead times and the carrier counter (R238, R250). -/

namespace Sys2Proof.Machine

/-- System time counts modulo 2^48 seconds, in units of 2^-40 ns (R268, R269). -/
def tbsModulus : Nat := 2 ^ 48 * 1000000000 * 2 ^ 40

/-- FADJ in force (R269). -/
def State.fadj (s : State) : Int := s.getS R.TBS_FADJ_VAL

/-- System time after `dt` more ns: each TIME cycle of 4 ns adds 4 ns and FADJ, a new FADJ from the cycle after the one
under way (R269, R275). It counts while TBS.CTL.EN is set (R290), and the tick with it, at the nominal rate where it is not
(R271). -/
def State.tbsAdvance (s : State) (dt : Nat) : State :=
  if !s.en 6 then { s with tck := { s.tck with sys := s.tck.sys + dt * 2 ^ 40 } }
  else
    let n := (s.tbs.rem + dt) / 4
    let add : Int := if n = 0 then 0 else n * (4 * 2 ^ 40) + s.tbs.fadj + ((n : Int) - 1) * s.fadj
    { s with
      tck := { s.tck with sys := s.tck.sys + add }
      tbs := { s.tbs with
        units := (((s.tbs.units : Int) + add) % (tbsModulus : Int)).toNat, rem := (s.tbs.rem + dt) % 4
        fadj := if n = 0 then s.tbs.fadj else s.fadj, sinceOfs := s.tbs.sinceOfs + dt } }

/-- System time at phase `q` of the TIME cycle, of 16, in units of 2^-40 ns (R269). DEDUCED (log 34). -/
def State.tbsAt (s : State) (q : Nat) : Nat := (s.tbs.units + q * 2 ^ 38) % tbsModulus

/-- System time now (R269). -/
def State.tbsNow (s : State) : Nat := s.tbsAt (4 * s.tbs.rem)

/-- Seconds, nanoseconds and 1/256 ns of a system time. -/
def secOf (u : Nat) : Nat := u / 2 ^ 40 / 1000000000 % 2 ^ 48
/-- The nanoseconds of a system time. -/
def nsOf (u : Nat) : Nat := u / 2 ^ 40 % 1000000000
/-- The 1/256 ns of a system time. -/
def subOf (u : Nat) : Nat := u / 2 ^ 32 % 256

/-- System time moved by `-o`, `o` in 1/256 ns (R274, R276). -/
def State.tbsStep (s : State) (o : Int) : State :=
  { s with tbs := { s.tbs with units := (((s.tbs.units : Int) - o * 2 ^ 32) % (tbsModulus : Int)).toNat } }

/-- The length of a carrier period in 250 ps units (R250). -/
def PwmState.period (p : PwmState) : Nat := if p.center then 2 * max 1 p.cper else max 1 p.cper

/-- The carrier counter at a place in its period (R250). -/
def PwmState.count (p : PwmState) : Nat :=
  if p.phase < max 1 p.cper then p.phase else 2 * max 1 p.cper - 1 - p.phase

/-- Whether the pulse unit is frozen by a debug halt (R249). -/
def State.frozen (s : State) : Bool := s.pwm.halt0 || s.pwm.halt1

/-- Whether the carrier counter counts: carrier mode, enabled, not frozen (R249, R250). -/
def State.carrierRuns (s : State) : Bool := s.en 0x14 && s.on R.PWM_SCFG_MODE && !s.frozen

/-- Time passes: `dt` ns. DESIGN CHOICE (log 2). DEDUCED (log 12). -/
def State.elapse (s : State) (dt : Nat) : State :=
  let s := s.tbsAdvance dt
  let s : State := if s.carrierRuns then
      { s with pwm := { s.pwm with phase := (s.pwm.phase + 4 * dt) % s.pwm.period, begun := s.pwm.begun && dt == 0 } } else s
  { s with
    tickNs := s.tickNs + dt
    fcu := { s.fcu with timeNs := s.fcu.timeNs + dt }
    dsx := { s.dsx with timers := s.dsx.timers.map (fun p => (p.1, p.2 - dt)) }
    pwm := { s.pwm with dtLeftA := s.pwm.dtLeftA - dt, dtLeftB := s.pwm.dtLeftB - dt }
    field := { s.field with ns := s.field.ns + dt } }

/-- Time passes with nothing to do: `dt` ns, on the field die alone while the module is in reset (R367, R404).
DESIGN CHOICE (log 2). -/
def State.idle (s : State) (dt : Nat) : State :=
  match s.phase with
  | .run => s.elapse dt
  | _ => { s with field := { s.field with ns := s.field.ns + dt } }

/-- Time passes up to an instant of the tick, given in ns from its Strike; no time where it is past.
DEDUCED (log 12). -/
def State.toInstant (s : State) (ns : Nat) : State :=
  if s.tickNs < ns then s.elapse (ns - s.tickNs) else s

/-- The instant at which Eve closes (R37). -/
def State.eveNs (s : State) : Nat := s.tp - 500

/-- The drain instant (R37, R55). -/
def State.drainNs (s : State) : Nat := s.tp - 100

/-- The command deadline (R44). -/
def State.cdlNs (s : State) : Nat :=
  if s.get R.TCK_CDL_CDL = 0 then s.tp - 2000 else s.get R.TCK_CDL_CDL * 10

/-- The harvest cut-off (R37). -/
def State.cutNs (s : State) : Nat := s.cdlNs - 400

/-- TP in 250 ps units (R128, R242). -/
def State.tpq (s : State) : Nat := 40 * s.get R.TCK_PER_PER

/-! ### A record that the clock ends (R306) -/

/-- The acquisition's own state changed. -/
def State.setAcq (s : State) (f : AcqState → AcqState) : State := { s with acq := f s.acq }

/-- The record in the making changed. -/
def State.setRec (s : State) (f : AcqRec → AcqRec) : State :=
  s.setAcq (fun a => { a with record := a.record.map f })

/-- ACQ.STA.STATE: 0 IDLE, 1 STOPPED, 2 ARMED, 3 POST, 4 CLOSE. -/
def State.acqSt (s : State) : Nat := s.get R.ACQ_STA_STATE

/-- The record has its last sample: CLOSE begins. -/
def State.enterClose (s : State) : State :=
  (s.setAcq (fun a => { a with phase := .encode, deadWait := true, deadFrom := Option.none, marked := false })).put
    R.ACQ_STA_STATE 4

/-- An event in POST closes the record with a mark at the next index (R306): kind 0x81 gap, 0x82 TP. -/
def State.acqMark (s : State) (kind : Nat) : State :=
  if s.acqSt = 3 then
    let s := s.setRec (fun r =>
      let i := s.acq.count - r.t0
      { r with stop := i, marks := r.marks ++ [((i : Int), kind, 0)] })
    (s.enterClose).setAcq (fun a => { a with deadWait := false, deadFrom := some s.fcu.timeNs, marked := true })
  else s

/-- A change of TP (R306). DEDUCED (log 172). -/
def State.acqTp (s : State) : State := s.when (s.runs 0x0C) (s.acqMark 0x82)

end Sys2Proof.Machine
end

