-- ==== Sys2Proof/Machine/Priv.lean ====
section
/-! DEFINITION. The privileged side of a control core (R210 to R212): the mode of an instruction, physical memory
protection, the exceptions of an access, and its two interrupts. -/

namespace Sys2Proof.Machine

/-! ### Modes and exceptions -/

/-- Core `c` is halted through the debug port (R249). -/
def State.coreHalted (s : State) (c : Nat) : Bool :=
  (decide (c = 0) && s.pwm.halt0) || (decide (c = 1) && s.pwm.halt1)

/-- Core `c` runs and is powered. -/
def State.coreOn (s : State) (c : Nat) : Bool := s.running c && !s.coreGated c

/-- Core `c` has come to the instruction at `pc` in U mode or in M mode: of the instructions before it and after it no
command tells. DEDUCED (log 38). -/
def State.atInsn (s : State) (c : Nat) (user : Bool) (pc : BitVec 64) : State :=
  s.setCore c { s.core c with user := user, pc := pc, pcOpen := true, retOpen := true }

/-- An illegal-instruction exception of core `c`; mtval, which the privileged architecture leaves to the implementation, is
a free value. PRESUMED (log 6). DEDUCED (log 128). -/
def State.illegal (s : State) (c : Nat) : State :=
  let (v, s) := s.fresh 64
  s.trap c 2 (s.core c).pc (BitVec.ofNat 64 v)

/-- What core `c`'s last load, atomic operation or CSR read returned. -/
def State.setRd (s : State) (c v : Nat) : State := s.setCore c { s.core c with rd := BitVec.ofNat 64 v }

/-- The handler's address of an interrupt, in the direct and in the vectored mode of mtvec. PRESUMED (log 33). -/
def vectorOf (tvec : BitVec 64) (n : Nat) : BitVec 64 :=
  if tvec.toNat % 4 = 1 then (tvec &&& ~~~3#64) + BitVec.ofNat 64 (4 * n) else tvec &&& ~~~3#64

/-- Core `c` takes interrupt `n`: mepc is the instruction it has not executed, and a free value where the model does not
know it. PRESUMED (log 33). DESIGN CHOICE (log 39). -/
def State.interrupt (s : State) (c n : Nat) : State :=
  let (v, s) := s.fresh 64
  let k := s.core c
  s.setCore c { k with
    mepc := if k.pcOpen then BitVec.ofNat 64 (v / 2 * 2) else k.pc
    mcause := BitVec.ofNat 64 (2 ^ 63 + n), mtval := 0, mpp := !k.user, mpie := k.mie,
    mie := false, user := false, pc := vectorOf k.mtvec n, pcOpen := false }

/-- The slot of core `c`. -/
def State.slotOf (s : State) (c : Nat) : Option Desc := nth s.dsx.slots c Option.none

/-- What core `c` holds. -/
def State.heldOf (s : State) (c : Nat) : Option Held := nth s.dsx.held c Option.none

/-- mip.MEIP: the slot of the core holds a descriptor (R211). -/
def State.meip (s : State) (c : Nat) : Bool := (s.slotOf c).isSome

/-- mip.PMUOV (R231). -/
def State.pmuov (s : State) (c : Nat) : Bool :=
  (List.range 6).any (fun j => s.bit (R.PMU_OVF_OV c) j && s.on (R.PMU_EVSEL_OVIE c j)) ||
    (s.on (R.PMU_PSBCFG_IE c) && (s.on (R.PMU_OVF_PSBTH c) || s.on (R.PMU_OVF_PSBFULL c)))

/-- The interrupt that core `c` takes now, if it takes one: the external one before the counters' (R211), and not while the
core holds a descriptor (R224). PRESUMED (log 33). -/
def State.irq (s : State) (c : Nat) : Option Nat :=
  let k := s.core c
  if !s.coreOn c || s.coreHalted c || !(k.user || k.mie) then Option.none
  else if k.meie && s.meip c && (s.heldOf c).isNone then some 11
  else if k.povie && s.pmuov c then some 16
  else Option.none

/-- Every core takes the interrupt that is pending and enabled. DEDUCED (log 38). -/
def State.irqs (s : State) : State :=
  forUpTo 8 (fun c x => match x.irq c with
    | Option.none => x
    | some n => x.interrupt c n) s

/-! ### Physical memory protection (R212) -/

/-- The address that PMP entry `i` holds, without the bits that the grain of 4 KB takes (R212). PRESUMED (log 33). -/
def CoreState.pmpTop (k : CoreState) (i : Nat) : Nat := (nth k.pmpaddr i 0).toNat % 2 ^ 54 / 1024 * 1024 * 4

/-- The number of ones at the low end of a number, below `n`. -/
def trailingOnes : Nat → Nat → Nat
  | 0, _ => 0
  | n + 1, v => if v % 2 = 1 then trailingOnes n (v / 2) + 1 else 0

/-- The range of PMP entry `i`: first address, and the address after the last; an entry that is OFF has none.
PRESUMED (log 33). -/
def CoreState.pmpRange (k : CoreState) (i : Nat) : Nat × Nat :=
  let a := bitsOf (nth k.pmpcfg i 0).toNat 3 2
  if a = 1 then (if i = 0 then 0 else k.pmpTop (i - 1), k.pmpTop i)
  else if a = 3 then
    let v := Nat.lor ((nth k.pmpaddr i 0).toNat % 2 ^ 54) 0x1FF
    let n := 2 ^ (trailingOnes 54 v + 3)
    (4 * v / n * n, 4 * v / n * n + n)
  else (0, 0)

/-- The kinds of access that protection tells apart. -/
inductive AccKind where
  | load | store | fetch
  deriving DecidableEq, Repr

/-- A PMP configuration byte permits an access. -/
def pmpAllows (cfg : BitVec 8) (kind : AccKind) : Bool :=
  match kind with
  | .load => bitOf cfg.toNat 0
  | .store => bitOf cfg.toNat 1
  | .fetch => bitOf cfg.toNat 2

/-- PMP refuses an access of `n` bytes from address `a`: the lowest entry that matches any of them decides.
PRESUMED (log 33). -/
def CoreState.pmpRefuses (k : CoreState) (kind : AccKind) (user : Bool) (a n : Nat) : Bool :=
  let hits (i : Nat) : Bool := decide ((k.pmpRange i).1 < a + n ∧ a < (k.pmpRange i).2)
  match (List.range 16).find? hits with
  | Option.none => user
  | some i =>
    let cfg := nth k.pmpcfg i 0
    !(decide ((k.pmpRange i).1 ≤ a ∧ a + n ≤ (k.pmpRange i).2)) || ((user || bitOf cfg.toNat 7) && !pmpAllows cfg kind)

/-- The mode in which a core's access is checked: mstatus.MPRV makes a load or store in M mode one of mode MPP.
PRESUMED (log 33). -/
def CoreState.accessUser (k : CoreState) (kind : AccKind) : Bool :=
  if kind = .fetch then k.user else k.user || (k.mprv && !k.mpp)

/-- The cause of the access fault of a kind (R212). -/
def faultCause (kind : AccKind) : Nat :=
  match kind with
  | .fetch => 1
  | .load => 5
  | .store => 7

/-- The access of core `c` to address `a` ends, without an answer, in the access fault of its kind, with mtval the faulting
address (R212, R213). PRESUMED (log 6). -/
def State.coreFault (s : State) (c : Nat) (kind : AccKind) (a : Nat) : State :=
  { s.trap c (faultCause kind) (s.core c).pc (BitVec.ofNat 64 a) with resp := ⟨true, 0⟩ }

/-- The access of core `c` to address `a` is misaligned (R214). PRESUMED (log 6). -/
def State.coreMisaligned (s : State) (c : Nat) (kind : AccKind) (a : Nat) : State :=
  { s.trap c (faultCause kind - 1) (s.core c).pc (BitVec.ofNat 64 a) with resp := ⟨true, 0⟩ }

/-! ### Control and status registers (R210, R211, R223, R229) -/

/-- mstatus: MIE, MPIE, MPP, MPRV, TW, and UXL = 2. PRESUMED (log 33). -/
def CoreState.mstatus (k : CoreState) : Nat :=
  b2n k.mie * 2 ^ 3 + b2n k.mpie * 2 ^ 7 + b2n k.mpp * (3 * 2 ^ 11) + b2n k.mprv * 2 ^ 17 + b2n k.tw * 2 ^ 21 + 2 ^ 33

/-- mstatus written: a write of MPP that names no mode of the core keeps it. PRESUMED (log 33). -/
def CoreState.setMstatus (k : CoreState) (v : Nat) : CoreState :=
  { k with
    mie := bitOf v 3, mpie := bitOf v 7
    mpp := if bitsOf v 11 2 = 3 then true else if bitsOf v 11 2 = 0 then false else k.mpp
    mprv := bitOf v 17, tw := bitOf v 21 }

/-- PMP entry `i` is locked, or is the lower bound of a locked entry. PRESUMED (log 33). -/
def CoreState.pmpLocked (k : CoreState) (i : Nat) (addr : Bool) : Bool :=
  bitOf (nth k.pmpcfg i 0).toNat 7 ||
    (addr && bitOf (nth k.pmpcfg (i + 1) 0).toNat 7 && decide (bitsOf (nth k.pmpcfg (i + 1) 0).toNat 3 2 = 1))

/-- A PMP configuration byte as it is stored: NA4 becomes OFF (R212), W without R neither, bits 5 and 6 are 0.
PRESUMED (log 33). -/
def pmpByte (b : Nat) : Nat :=
  let b := b % 32 + b / 128 % 2 * 128
  let b := if bitsOf b 3 2 = 2 then b - 16 else b
  if bitsOf b 0 2 = 2 then b - 2 else b

/-- pmpcfg `j` written: eight entries, locked ones excepted. -/
def CoreState.setPmpcfg (k : CoreState) (j v : Nat) : CoreState :=
  forUpTo 8 (fun b x =>
    let i := 8 * j + b
    if x.pmpLocked i false then x
    else { x with pmpcfg := setNth x.pmpcfg i (BitVec.ofNat 8 (pmpByte (bitsOf v (8 * b) 8))) 0 }) k

/-- pmpcfg `j` read. -/
def CoreState.pmpcfgWord (k : CoreState) (j : Nat) : Nat :=
  (List.range 8).foldl (fun a b => a + (nth k.pmpcfg (8 * j + b) 0).toNat * 2 ^ (8 * b)) 0

/-- pmpaddr `i` written. -/
def CoreState.setPmpaddr (k : CoreState) (i v : Nat) : CoreState :=
  if k.pmpLocked i true then k else { k with pmpaddr := setNth k.pmpaddr i (BitVec.ofNat 64 (v % 2 ^ 54)) 0 }

/-- pmpaddr `i` read with the grain of 4 KB: the low nine bits read 1 under NAPOT, the low ten 0 otherwise.
PRESUMED (log 33). -/
def CoreState.pmpaddrWord (k : CoreState) (i : Nat) : Nat :=
  let v := (nth k.pmpaddr i 0).toNat
  if 2 ≤ bitsOf (nth k.pmpcfg i 0).toNat 3 2 then Nat.lor v 0x1FF else v / 1024 * 1024

/-- The counter of a number of the machine or user counter CSRs, if it is one of CNT0 to CNT5 (R229). -/
def hpmOf (n : Nat) : Option Nat := if 3 ≤ n ∧ n ≤ 8 then some (n - 3) else Option.none

/-- mcounteren: CY, IR, and USEREN in bits 3 to 8 (R229). -/
def State.mcounteren (s : State) (c : Nat) : Nat :=
  b2n (s.core c).cy + b2n (s.core c).ir * 4 + s.get (R.PMU_USEREN_EN c) * 8

/-- mhpmevent of counter `j`: the alias of PMU.EVSEL (R229, R234). -/
def State.evsel (s : State) (c j : Nat) : Nat :=
  s.get (R.PMU_EVSEL_EVT c j) + s.get (R.PMU_EVSEL_UMODE c j) * 2 ^ 8 + s.get (R.PMU_EVSEL_MMODE c j) * 2 ^ 9 +
    s.get (R.PMU_EVSEL_OVIE c j) * 2 ^ 10

/-- mhpmevent of counter `j` written. -/
def State.setEvsel (s : State) (c j v : Nat) : State :=
  (((s.put (R.PMU_EVSEL_EVT c j) v).put (R.PMU_EVSEL_UMODE c j) (v / 2 ^ 8)).put (R.PMU_EVSEL_MMODE c j) (v / 2 ^ 9)).put
    (R.PMU_EVSEL_OVIE c j) (v / 2 ^ 10)

/-- The CSRs of a core, as R210 to R212, R223 and R229 name them. PRESUMED (log 33). -/
def csrExists (n : Nat) : Bool :=
  decide (n = 0x300 ∨ n = 0x301 ∨ (0x304 ≤ n ∧ n ≤ 0x306) ∨ n = 0x30A ∨ n = 0x320 ∨ (0x323 ≤ n ∧ n ≤ 0x33F) ∨ (0x340 ≤ n ∧ n ≤ 0x344) ∨
    n = 0x3A0 ∨ n = 0x3A2 ∨ (0x3B0 ≤ n ∧ n ≤ 0x3BF) ∨ n = 0x7C0 ∨ n = 0x7C1 ∨ n = 0xB00 ∨ (0xB02 ≤ n ∧ n ≤ 0xB1F) ∨
    n = 0xC00 ∨ (0xC02 ≤ n ∧ n ≤ 0xC1F) ∨ (0xF11 ≤ n ∧ n ≤ 0xF15))

/-- An access to CSR `n` is illegal: it does not exist, as the time CSR (R211), a read-only one is written, one of M mode is
accessed in U mode, or a counter is read in U mode without mcounteren (R229). PRESUMED (log 33). -/
def State.csrIllegal (s : State) (c n : Nat) (writes : Bool) : Bool :=
  !csrExists n || (writes && decide (0xC00 ≤ n)) ||
    ((s.core c).user && (decide (bitsOf n 8 2 ≠ 0) || !bitOf (s.mcounteren c) (n % 32)))

/-- What CSR `n` of core `c` reads as, without the effect of the read (R210 to R212, R229). Counters beyond the six,
mcountinhibit, menvcfg and mconfigptr read 0. PRESUMED (log 33). -/
def State.csrValue (s : State) (c n : Nat) : Nat :=
  let k := s.core c
  if n = 0x300 then k.mstatus
  else if n = 0x301 then 0x8000000000101105
  else if n = 0x304 then b2n k.meie * 2 ^ 11 + b2n k.povie * 2 ^ 16
  else if n = 0x305 then k.mtvec.toNat
  else if n = 0x306 then s.mcounteren c
  else if n = 0x340 then k.mscratch.toNat
  else if n = 0x341 then k.mepc.toNat
  else if n = 0x342 then k.mcause.toNat
  else if n = 0x343 then k.mtval.toNat
  else if n = 0x344 then b2n (s.meip c) * 2 ^ 11 + b2n (s.pmuov c) * 2 ^ 16
  else if n = 0x3A0 ∨ n = 0x3A2 then k.pmpcfgWord ((n - 0x3A0) / 2)
  else if 0x3B0 ≤ n ∧ n ≤ 0x3BF then k.pmpaddrWord (n - 0x3B0)
  else if n = 0xF14 then c
  else if n = 0xB00 ∨ n = 0xC00 then k.mcycle.toNat
  else if n = 0xB02 ∨ n = 0xC02 then k.minstret.toNat
  else if 0x323 ≤ n ∧ n ≤ 0x33F then (match hpmOf (n - 0x320) with | some j => s.evsel c j | Option.none => 0)
  else if 0xB03 ≤ n ∧ n ≤ 0xC1F then (match hpmOf (n % 32) with | some j => s.get (R.PMU_CNT_CNT c j) | Option.none => 0)
  else 0

/-- mcycle has counted cycles since it was last read or written, and minstret the instructions that no command describes: by
free values (R210). DESIGN CHOICE (log 39). -/
def State.csrTick (s : State) (c n : Nat) : State :=
  if n = 0xB00 ∨ n = 0xC00 then
    let (v, s) := s.fresh 64
    s.setCore c { s.core c with mcycle := (s.core c).mcycle + BitVec.ofNat 64 v }
  else if (n = 0xB02 ∨ n = 0xC02) ∧ (s.core c).retOpen = true then
    let (v, s) := s.fresh 64
    s.setCore c { s.core c with minstret := (s.core c).minstret + BitVec.ofNat 64 v, retOpen := false }
  else s

/-- CSR `n` of core `c` takes the value `v`; read-only ones ignore it. PRESUMED (log 33). -/
def State.csrPut (s : State) (c n v : Nat) : State :=
  let k := s.core c
  let w := BitVec.ofNat 64 v
  if n = 0x300 then s.setCore c (k.setMstatus v)
  else if n = 0x304 then s.setCore c { k with meie := bitOf v 11, povie := bitOf v 16 }
  else if n = 0x305 then s.setCore c { k with mtvec := w &&& ~~~2#64 }
  else if n = 0x306 then s.setCore c { k with cy := bitOf v 0, ir := bitOf v 2 }
  else if n = 0x340 then s.setCore c { k with mscratch := w }
  else if n = 0x341 then s.setCore c { k with mepc := w &&& ~~~1#64 }
  else if n = 0x342 then s.setCore c { k with mcause := w }
  else if n = 0x343 then s.setCore c { k with mtval := w }
  else if n = 0x3A0 ∨ n = 0x3A2 then s.setCore c (k.setPmpcfg ((n - 0x3A0) / 2) v)
  else if 0x3B0 ≤ n ∧ n ≤ 0x3BF then s.setCore c (k.setPmpaddr (n - 0x3B0) v)
  else if n = 0xB00 then s.setCore c { k with mcycle := w }
  else if n = 0xB02 then s.setCore c { k with minstret := w, retOpen := false }
  else if 0x323 ≤ n ∧ n ≤ 0x33F then (match hpmOf (n - 0x320) with | some j => s.setEvsel c j v | Option.none => s)
  else if 0xB03 ≤ n ∧ n ≤ 0xB1F then
    (match hpmOf (n - 0xB00) with | some j => s.put (R.PMU_CNT_CNT c j) v | Option.none => s)
  else s

/-- What a CSR instruction writes, given what it read. PRESUMED (log 33). -/
def csrNext (op : CsrOp) (old v : Nat) : Nat :=
  match op with
  | .write => v
  | .set => Nat.lor old v
  | .clear => andNot old v

/-- MRET: the mode and the interrupt enable are restored and the pc is mepc (R210); in U mode it is illegal.
PRESUMED (log 33). -/
def State.mret (s : State) (c : Nat) : State :=
  let k := s.core c
  s.setCore c { k with
    mie := k.mpie, mpie := true, user := !k.mpp, mpp := false, mprv := k.mprv && k.mpp, pc := k.mepc, pcOpen := false }

end Sys2Proof.Machine
end

