-- ==== Sys2Proof/Machine/Crc.lean ====
section
/-! DEFINITION. The cyclic redundancy checks: CRC-32C of frames (R87), the FCS of Ethernet frames (R437), CRC-16 of
slots (R88) and CRC-8 of the isolation link (R352). -/

namespace Sys2Proof.Machine

/-- One step of a 32-bit CRC register of reflected polynomial `p`. -/
def crc32Step (p c : BitVec 32) : BitVec 32 := if c.getLsbD 0 then (c >>> 1) ^^^ p else c >>> 1

/-- A byte through the CRC register of reflected polynomial `p`. -/
def crc32Byte (p c : BitVec 32) (b : Byte) : BitVec 32 :=
  let f := crc32Step p
  f (f (f (f (f (f (f (f (c ^^^ b.setWidth 32))))))))

/-- CRC-32C of bytes: polynomial 0x1EDC6F41 reflected, initial value and final XOR all ones (R87). -/
def crc32c (l : List Byte) : BitVec 32 := (l.foldl (crc32Byte 0x82F63B78#32) 0xFFFFFFFF#32) ^^^ 0xFFFFFFFF#32

/-- The FCS of an Ethernet frame: polynomial 0x04C11DB7 reflected, initial value and final XOR all ones (R437).
PRESUMED (log 35). -/
def etherFcs (l : List Byte) : BitVec 32 := (l.foldl (crc32Byte 0xEDB88320#32) 0xFFFFFFFF#32) ^^^ 0xFFFFFFFF#32

/-- One step of a 16-bit CRC register, polynomial 0x1021. -/
def crc16Step (c : BitVec 16) : BitVec 16 :=
  if c.getLsbD 15 then (c <<< 1) ^^^ 0x1021#16 else c <<< 1

/-- A byte through the CRC-16 register. -/
def crc16Byte (c : BitVec 16) (b : Byte) : BitVec 16 :=
  crc16Step (crc16Step (crc16Step (crc16Step (crc16Step (crc16Step (crc16Step (crc16Step
    (c ^^^ (b.setWidth 16 <<< 8)))))))))

/-- CRC-16 of bytes: polynomial 0x1021, initial value all ones, no final XOR (R88). -/
def crc16 (l : List Byte) : BitVec 16 := l.foldl crc16Byte 0xFFFF#16

/-- One step of an 8-bit CRC register, polynomial 0x2F. -/
def crc8Step (c : BitVec 8) : BitVec 8 := if c.getLsbD 7 then (c <<< 1) ^^^ 0x2F#8 else c <<< 1

/-- A byte through the CRC-8 register. -/
def crc8Byte (c : BitVec 8) (b : Byte) : BitVec 8 :=
  crc8Step (crc8Step (crc8Step (crc8Step (crc8Step (crc8Step (crc8Step (crc8Step (c ^^^ b))))))))

/-- CRC-8 of bytes: polynomial 0x2F, initial value and final XOR all ones (R352). -/
def crc8 (l : List Byte) : BitVec 8 := (l.foldl crc8Byte 0xFF#8) ^^^ 0xFF#8

end Sys2Proof.Machine
end

