-- ==== Sys2Proof/Machine/Fio.lean ====
section
/-! DEFINITION. The field channels and the isolation link: link loss and recovery, outputs and their
protections, dark tests, stuck-high classification, the field supply and the bypass drive (R352 to R363,
R378). -/

namespace Sys2Proof.Machine

/-- A channel is in output mode (R354). -/
def State.fioOutMode (s : State) (n : Nat) : Bool := s.get (R.FIO_CFG_MODE n) == 2
/-- A channel is in input mode. -/
def State.fioInMode (s : State) (n : Nat) : Bool := s.get (R.FIO_CFG_MODE n) == 1

/-- PWM.BYP.REQ. -/
def State.bypReq (s : State) : Bool := s.get R.PWM_BYP_SRC != 0

/-- Channel `n` is the one the bypass request drives (R363). -/
def State.isBypassChan (s : State) (n : Nat) : Bool := s.bypReq && s.get R.PWM_BYP_OCH == n

/-- Channel `n` is held off under R360: its TIE or SHV bit stands. -/
def State.fioHeld (s : State) (n : Nat) : Bool := s.on (R.FIO_CSTA_TIE n) || s.on (R.FIO_CSTA_SHV n)

/-- The channels for which a condition holds, as a mask. -/
def chanMask (f : Nat → Bool) : Nat :=
  (List.range 16).foldl (fun m n => m + (if f n then 2 ^ n else 0)) 0

/-! ### What the field die has received -/

/-- The main die's frames reach the field die: the module runs and the field side of the link is not lost (R353, R409).
DEDUCED (log 270). -/
def State.fioLinked (s : State) : Bool := s.phase == .run && !s.field.lossField

/-- What the main die's frames carry (R353, R354, R357, R358, R363). -/
def State.fioFrame (s : State) : FieldRx :=
  { out := if s.en 0x16 then s.get R.FIO_OUT_OUT else 0
    outMode := chanMask s.fioOutMode, inMode := chanMask s.fioInMode
    failst := chanMask (fun n => s.on (R.FIO_CFG_FAILST n)), auto := chanMask (fun n => s.on (R.FIO_CFG_AUTO n))
    dten := chanMask (fun n => s.on (R.FIO_CFG_DTEN n))
    filt := (List.range 16).map (fun n => s.get (R.FIO_CFG_FILT n)), tests := s.get R.FIO_DTCFG_DTINT != 0
    byp := s.bypReq, och := s.get R.PWM_BYP_OCH, hd := s.get R.FIO_BYPD_HD }

/-- What the field die works on: the frames of the main die while they reach it, else what it received before (R353).
DEDUCED (log 270). -/
def State.fioRx (s : State) : FieldRx := if s.fioLinked then s.fioFrame else s.field.rx

/-- The field outputs of a module without a role are off, in any phase, and those of one in the image-failure state
(R15, R385). -/
def State.fioOff (s : State) : Bool := s.on R.SYS_STRAP_BAD || (s.phase == .run && s.heldOff)

/-- The commanded state of channel `n` as it acts on the field die: under a link loss its FAILST, off or the last command
received; off after a field-die reset (R353, R362). DEDUCED (log 220). -/
def State.fioCommand (s : State) (n : Nat) : Bool :=
  bitOf s.fioRx.out n && !s.field.off && (!s.field.lossField || bitOf s.fioRx.failst n)

/-- Whether channel `n` is to be on, a dark test apart: output mode, no thermal or group shutdown, not
held, and driven by the bypass request or by its command; never in the role-less state (R15, R354, R356, R360, R363).
DEDUCED (log 220). -/
def State.fioWanted (s : State) (n : Nat) : Bool :=
  s.field.up && !s.fioOff && bitOf s.fioRx.outMode n && !bitOf s.field.thermal n && !bitOf s.field.grp (n / 8) &&
    !bitOf s.field.held n && (s.field.drive == some n || s.fioCommand n)

/-- The switch of channel `n`: as wanted, but off while the channel is under test and while its failed test is
being classified (R358, R360). DEDUCED (log 221). -/
def State.fioSwitch (s : State) (n : Nat) : Bool :=
  s.fioWanted n && s.field.test != some n && s.field.cls != some n

/-- The duty of the bypass drive in sixteenths: full during pull-in, then (HD + 1)/16 (R363). -/
def State.bypassDuty (s : State) : Nat :=
  if s.field.pullIn then 16 else s.fioRx.hd + 1

/-- The main die's view of the field: FIO.IN, FIO.RB and FIO.VFLD follow the field die while the link is
good, and keep their levels while it is lost (R353, R355, R361). -/
def State.fioRefresh (s : State) : State :=
  let ok := !s.field.lossMain
  let t := if ok && s.field.up then
      let s := s.put R.FIO_IN_LVL (Nat.land s.field.pins (chanMask s.fioInMode))
      let s := s.put R.FIO_RB_LVL (Nat.land s.field.pins (chanMask s.fioOutMode))
      ((s.put R.FIO_VFLD_VOLT s.field.volt).putB R.FIO_VFLD_VWARN s.field.vwarn).putB R.FIO_VFLD_VLOW s.field.vlow
    else s
  let t := (t.putB R.FIO_IN_VALID (ok && !t.on R.FIO_VFLD_VLOW)).putB R.FIO_RB_VALID ok
  live s (t.putB R.CLK_STA_FIELDOK ok)

/-! ### What the field die reports -/

/-- The registers take what the field die has to report (R353, R356, R358 to R361). -/
def State.fioTake (s : State) (r : FieldTold) : State :=
  let s := (s.addSat R.FIO_LINK_CRCE r.crce).addSat R.FIO_LINK_FDRC r.fdrc
  let s := (s.addSat R.FIO_DTCNT_PASS r.pass).addSat R.FIO_DTCNT_ABAND r.aband
  let s := forUpTo 16 (fun n x => x.when (bitOf r.ot n) (x.put (R.FIO_CSTA_OT n) 1)) s
  let s := forUpTo 16 (fun n x => x.when (bitOf r.shv n) (x.put (R.FIO_CSTA_SHV n) 1)) s
  let s := forEach r.ties (fun p x => (((x.put (R.FIO_CSTA_TIE p.1) 1).put (R.FIO_CSTA_TIE p.2) 1).put
    (R.FIO_CSTA_PARTNER p.1) p.2).put (R.FIO_CSTA_PARTNER p.2) p.1) s
  s.raiseFlts 0x16 ((List.range 8).filter (bitOf r.flt))

/-- What waits to be reported reaches a main die that runs, over a link that is good (R353). DEDUCED (log 270). -/
def State.fioTell (s : State) : State :=
  if s.phase == .run && !s.field.lossMain then
    ({ s with field := { s.field with told := FieldTold.init } } : State).fioTake s.field.told
  else s

/-- The field die has something more to report. -/
def State.fieldReport (s : State) (f : FieldTold → FieldTold) : State :=
  ({ s with field := { s.field with told := f s.field.told } } : State).fioTell

/-- FIO.FLT bit `k` to report. -/
def FieldTold.bit (r : FieldTold) (k : Nat) : FieldTold := { r with flt := setBitN r.flt k }

/-- The channels whose finding of R360 has not yet been reported. -/
def FieldTold.findings (r : FieldTold) : Nat :=
  r.ties.foldl (fun m p => setBitN (setBitN m p.1) p.2) r.shv

/-! ### What follows a change -/

/-- The main die's frames end what their registers no longer show: the hold of a channel whose TIE or SHV bit is cleared, the
thermal shutdown of a channel with AUTO 0 whose OT is cleared (R356, R360). DEDUCED (log 221). -/
def State.fioDeliver (s : State) : State :=
  let hold := Nat.lor (chanMask s.fioHeld) s.field.told.findings
  let hot := Nat.lor (chanMask (fun n => s.on (R.FIO_CSTA_OT n) || s.on (R.FIO_CFG_AUTO n))) s.field.told.ot
  s.when s.fioLinked { s with field := { s.field with
    held := Nat.land s.field.held hold, thermal := Nat.land s.field.thermal hot } }

/-- The level of the auxiliary contact: PWM.BYP.AUX (R248). -/
def State.bypAux (s : State) : Bool :=
  let i := s.get R.PWM_BYP_ICH
  decide (i < 16) && (s.bit R.FIO_IN_LVL i != s.on R.PWM_BYP_AUXPOL)

/-- The channel that the bypass request drives (R363). -/
def State.driven (s : State) : Option Nat :=
  let r := s.fioRx
  if s.field.up && r.byp && decide (r.och < 16) && bitOf r.outMode r.och then some r.och else Option.none

/-- The bypass request names a channel that is not in output mode (R363). -/
def State.bypWrong (s : State) : Bool :=
  let o := s.get R.PWM_BYP_OCH
  s.phase == .run && s.bypReq && decide (o < 16) && !s.fioOutMode o

/-- The field side follows the bypass request: a channel that comes to be driven starts with the full pull-in time, and
FLT.BYPCFG is set when the request comes to name one that is not in output mode (R248, R363). DEDUCED (log 222). -/
def State.bypassDrive (s : State) : State :=
  let d := s.driven
  let w := s.bypWrong
  let t : State := if d = s.field.drive then s else { s with field := { s.field with drive := d, pullIn := d.isSome } }
  ({ t with field := { t.field with bypBad := w } } : State).raiseIf (w && !s.field.bypBad) 0x16 Flt.FIO_BYPCFG

/-- The channels a round tests (R358). -/
def State.darkChannels (s : State) : List Nat :=
  (List.range 16).filter (fun n => bitOf s.fioRx.dten n && s.fioSwitch n && s.field.drive != some n)

/-- The next channel of the round that still meets the conditions of R358 goes under test.
DEDUCED (log 221). -/
def State.darkNext (s : State) : State :=
  match s.field.round.dropWhile (fun n => !s.darkChannels.contains n) with
  | [] => { s with field := { s.field with test := Option.none, round := [] } }
  | n :: t => { s with field := { s.field with test := some n, round := t } }

/-- The test under way is abandoned and not evaluated (R359). -/
def State.darkAbandon (s : State) : State := (s.fieldReport (fun r => { r with aband := r.aband + 1 })).darkNext

/-- A demand on the tested channel abandons its test; DTINT 0 ends the round with the test under way, and the bypass drive
the test of its channel, neither counted (R358, R359, R363). DEDUCED (log 221). -/
def State.darkWatch (s : State) : State :=
  let s : State := if s.fioRx.tests then s else { s with field := { s.field with round := [] } }
  match s.field.test with
  | Option.none => s
  | some n =>
    if !s.fioWanted n then s.darkAbandon
    else if !s.fioRx.tests || s.field.drive == some n then s.darkNext
    else s

/-- The channel whose switch the bypass drive chops at 1 kHz, with its duty in sixteenths (R363). -/
def State.chopped (s : State) : Option (Nat × Nat) :=
  match s.field.drive with
  | Option.none => Option.none
  | some n => if decide (s.bypassDuty < 16) && s.fioSwitch n then some (n, s.bypassDuty) else Option.none

/-- Output switching transitions counted for the running hour (R342). DEDUCED (log 203). -/
def State.switched (s : State) (n : Nat) : State :=
  s.when (s.phase == .run) (s.hourly (fun a => { a with swc := a.swc + n }))

/-- The transitions of a chopped switch up to now; each period of 1 ms begins with its part on. DEDUCED (log 222). -/
def State.chopCount (s : State) : State :=
  match s.field.chop with
  | Option.none => s
  | some (t, c) =>
    let e := s.field.ns - t
    let n := 2 * (e / 1000000) + b2n (decide (s.bypassDuty * 62500 ≤ e % 1000000))
    ({ s with field := { s.field with chop := some (t, n) } } : State).switched (n - c)

/-- What follows a change of the field channels, `s` before and `t` after it: the bypass drive, the end of holds, demands on
a test, and the count of the switches that turned on or off (R342, R359, R363). -/
def State.fioFollow (s t : State) : State :=
  let t := t.bypassDrive.fioDeliver.darkWatch
  let t : State := if t.chopped = s.chopped then t
    else { t with field := { t.field with chop := t.chopped.map (fun _ => (t.field.ns, 0)) } }
  t.switched (bitCount (Nat.xor (chanMask s.fioSwitch) (chanMask t.fioSwitch)) 16)

/-- A change of the field channels with all that follows it. -/
def State.fioOp (s : State) (f : State → State) : State := s.chopCount.fioFollow (f s.chopCount)

/-! ### The link -/

/-- A frame of the link is received well or not, at the main die or at the field die (R352, R353). -/
def State.linkFrame (s : State) (side : LinkSide) (good : Bool) : State :=
  match side with
  | .main =>
    ({ s with field := { s.field with
        badMain := if good then 0 else s.field.badMain + 1
        goodMain := if good then s.field.goodMain + 1 else 0 } } : State).addSat R.FIO_LINK_CRCE (b2n !good)
  | .field =>
    ({ s with field := { s.field with
        badField := if good then 0 else s.field.badField + 1
        goodField := if good then s.field.goodField + 1 else 0 } } : State).fieldReport
      (fun r => { r with crce := r.crce + b2n !good })

/-- The loss of the link at a side after 8 consecutive bad frames (R353). -/
def State.linkLose (s : State) (side : LinkSide) : State :=
  match side with
  | .main =>
    s.when (!s.field.lossFlag && decide (8 ≤ s.field.badMain))
      ((({ s with field := { s.field with lossMain := true, lossFlag := true } } : State).fioRefresh).raiseFlt 0x16
        Flt.FIO_LINK)
  | .field =>
    s.when (!s.field.lossField && decide (8 ≤ s.field.badField))
      (s.fioOp (fun s => { s with field := { s.field with lossField := true, rx := s.fioRx } }))

/-- Normal operation resumes after 16 consecutive good frames; with AUTORS the outputs restart after a
field-die reset (R353, R362). -/
def State.linkRecover (s : State) (side : LinkSide) : State :=
  match side with
  | .main =>
    s.when (s.field.up && decide (16 ≤ s.field.goodMain))
      ({ s with field := { s.field with lossMain := false, lossFlag := false } } : State).fioTell.fioRefresh
  | .field =>
    s.when (decide (16 ≤ s.field.goodField))
      (s.fioOp (fun s => { s with field := { s.field with
        lossField := false, off := s.field.off && !s.on R.FIO_GCFG_AUTORS } }))

/-- A frame of the link is good: it is there, and its last byte is the CRC-8 of the rest (R352). -/
def linkGood (f : Option (List Byte)) : Bool :=
  match f with
  | none => false
  | some l => (l.getLast? == some (crc8 l.dropLast))

/-- What happens at a side of the link: at the main die while it runs, at the field die while it is supplied (R404).
DEDUCED (log 270). -/
def State.atSide (s : State) (side : LinkSide) (t : State) : State :=
  match side with
  | .main => live s t
  | .field => s.when s.field.up t

/-- The other side of the link sends: a main die in reset and a field die without supply do not (R404, R409). -/
def State.sends (s : State) (side : LinkSide) : Bool :=
  match side with
  | .main => s.field.up
  | .field => s.phase == .run

/-- LINK_FRAME (R352). -/
def execLinkFrame (side : LinkSide) (f : Option (List Byte)) (s : State) : Host.Outcome State Fault Refusal :=
  .next (s.atSide side (s.linkFrame side (linkGood f && s.sends side)))

/-- LINK_LOSS (R353). -/
def execLinkLoss (side : LinkSide) (s : State) : Host.Outcome State Fault Refusal :=
  .next (s.atSide side (s.linkLose side))

/-- LINK_RECOVERY (R353). -/
def execLinkRecovery (side : LinkSide) (s : State) : Host.Outcome State Fault Refusal :=
  .next (s.atSide side (s.linkRecover side))

/-! ### Outputs and inputs -/

/-- A new commanded state (R357). -/
def State.fioOut (s : State) (v : Nat) : State := s.fioOp (fun s => s.put R.FIO_OUT_OUT v)

/-- OUTPUT_WRITE (R357). -/
def execOutputWrite (v : W32) (s : State) : Host.Outcome State Fault Refusal :=
  .next (live s (s.cmd 0x16 (s.fioOut (v.toNat % 65536))))

/-- OUTPUT_SET (R357): the bits written as 1 are set. -/
def execOutputSet (v : W32) (s : State) : Host.Outcome State Fault Refusal :=
  .next (live s (s.cmd 0x16 (s.fioOut (Nat.lor (s.get R.FIO_OUT_OUT) (v.toNat % 65536)))))

/-- OUTPUT_CLEAR (R357): the bits written as 1 are cleared. -/
def execOutputClear (v : W32) (s : State) : Host.Outcome State Fault Refusal :=
  .next (live s (s.cmd 0x16 (s.fioOut (andNot (s.get R.FIO_OUT_OUT) (v.toNat % 65536)))))

/-- A write of FIO.CFGn: mode, filter, dark test, fail state and automatic restart (R354, R378). -/
def State.fioMode (s : State) (n v : Nat) : State :=
  s.fioOp (fun s =>
    let s := s.put (R.FIO_CFG_MODE n) (bitsOf v 0 2)
    let s := s.put (R.FIO_CFG_FILT n) (bitsOf v 8 8)
    let s := ((s.put (R.FIO_CFG_DTEN n) (bitsOf v 17 1)).put (R.FIO_CFG_FAILST n) (bitsOf v 18 1)).put
      (R.FIO_CFG_AUTO n) (bitsOf v 19 1)
    s.fioRefresh)

/-- MODE_CHANGE (R354). -/
def execModeChange (n : Fin 16) (v : W32) (s : State) : Host.Outcome State Fault Refusal :=
  .next (live s (s.cmd 0x16 (s.fioMode n v.toNat)))

/-- The level a pin at `mv` millivolts reads: 1 above 11 V, 0 below 5 V, between the two the one before (R355). -/
def pinLevel (old : Bool) (mv : Nat) : Bool := if 11000 < mv then true else if mv < 5000 then false else old

/-- Pin `n` has been at `mv` millivolts for `us` microseconds: its filtered level, once that lasted the filter
time CFGn.FILT (R355). -/
def State.fioInput (s : State) (n mv us : Nat) : State :=
  let p := s.field.pins
  s.when (decide (nth s.fioRx.filt n 10 * 10 ≤ us))
    ({ s with field := { s.field with
        pins := if pinLevel (bitOf p n) mv then setBitN p n else clrBitN p n } } : State).fioRefresh

/-- INPUT_CHANGE (R355): the field die filters its pins whatever the main die does (R404). -/
def execInputChange (n : Fin 16) (mv us : Nat) (s : State) : Host.Outcome State Fault Refusal :=
  .next (s.fioInput n mv us)

/-- OUTPUT_THERMAL_SHUTDOWN (R356): the switch turns off and OT is set. -/
def execOutputThermalShutdown (n : Fin 16) (s : State) : Host.Outcome State Fault Refusal :=
  .next (s.when (s.field.up && bitOf s.fioRx.outMode n) (s.fioOp (fun s =>
    ({ s with field := { s.field with thermal := setBitN s.field.thermal n } } : State).fieldReport
      (fun r => { r with ot := setBitN r.ot n }))))

/-- THERMAL_RESTART (R356): with AUTO = 1 the switch turns on again by itself. -/
def execThermalRestart (n : Fin 16) (s : State) : Host.Outcome State Fault Refusal :=
  .next (s.when (bitOf s.fioRx.auto n) (s.fioOp (fun s =>
    { s with field := { s.field with thermal := clrBitN s.field.thermal n } })))

/-- GROUP_SHUTDOWN (R356): every output of the group turns off. -/
def execGroupShutdown (g : Fin 2) (s : State) : Host.Outcome State Fault Refusal :=
  .next (s.when s.field.up (s.fioOp (fun s =>
    ({ s with field := { s.field with grp := setBitN s.field.grp g } } : State).fieldReport (fun r => r.bit Flt.FIO_GRP))))

/-- The shutdown of a group ends, where the command reaches the field die (R356). DEDUCED (log 270). -/
def State.groupClear (s : State) (g : Nat) : State :=
  s.when s.fioLinked (s.fioOp (fun s => { s with field := { s.field with grp := clrBitN s.field.grp g } }))

/-- GROUP_CLEAR (R356). -/
def execGroupClear (g : Fin 2) (s : State) : Host.Outcome State Fault Refusal :=
  .next (live s (s.cmd 0x16 (s.groupClear g)))

/-- FIO.CMD.RESTART: outputs restart after a field-die reset, where the command reaches the field die (R362).
DEDUCED (log 270). -/
def State.fioRestart (s : State) : State :=
  s.when (s.field.up && s.fioLinked) (s.fioOp (fun s => { s with field := { s.field with off := false } }))

/-- FIO_RESTART (R362). -/
def execFioRestart (s : State) : Host.Outcome State Fault Refusal := .next (live s (s.cmd 0x16 s.fioRestart))

/-- FIO.CMD.CCLR: clears FIO.DTCNT and FIO.LINK (R378). -/
def State.fioClear (s : State) : State :=
  s.zero [R.FIO_DTCNT_ABAND, R.FIO_DTCNT_PASS, R.FIO_LINK_FDRC, R.FIO_LINK_CRCE]

/-- FIO_COUNTER_CLEAR (R378). -/
def execFioCounterClear (s : State) : Host.Outcome State Fault Refusal := .next (live s (s.cmd 0x16 s.fioClear))

/-! ### Dark tests -/

/-- Dark tests and R360 run: the die is up and VFLD is not unreliable (R361). -/
def State.fioTests (s : State) : Bool := s.field.up && !s.field.vlow

/-- DARK_TEST_ROUND (R358). A round that falls due during a classification waits until it ends.
DEDUCED (log 221). -/
def execDarkTestRound (s : State) : Host.Outcome State Fault Refusal :=
  .next (s.when (s.fioRx.tests && s.fioTests && s.field.test == Option.none)
    (s.fioOp (fun s =>
      let t : State := { s with field := { s.field with round := s.darkChannels } }
      if s.field.cls == Option.none then t.darkNext else t)))

/-- The end of a pulse: abandoned where a demand has come, passed where the pin has fallen, else the
classification of R360 begins (R358, R359). DEDUCED (log 221). -/
def State.darkEnd (s : State) (pin : Bool) : State :=
  match s.field.test with
  | Option.none => s
  | some n =>
    if !s.fioWanted n then s.darkAbandon
    else if !pin then (s.fieldReport (fun r => { r with pass := r.pass + 1 })).darkNext
    else { s with field := { s.field with test := Option.none, cls := some n } }

/-- DARK_TEST_END (R358). -/
def execDarkTestEnd (pin : Bool) (s : State) : Host.Outcome State Fault Refusal :=
  .next (s.fioOp (fun s => s.darkEnd pin))

/-- DARK_TEST_ABANDON (R359): a demand on the tested channel during its pulse wins. -/
def execDarkTestAbandon (s : State) : Host.Outcome State Fault Refusal := .next (s.fioOp id)

/-- Channel `n` awaits a classification: a failed test, or commanded off with its pin high (R360). -/
def State.stuckHigh (s : State) (n : Nat) : Bool :=
  s.field.cls == some n ||
    (bitOf s.fioRx.outMode n && !s.fioWanted n && !bitOf s.field.held n && bitOf s.field.pins n)

/-- A finding about the channels of `hold` is reported; it ends the classification of channel `n`, and a round that waits for
that goes on (R360). DEDUCED (log 221). -/
def State.found (s : State) (n : Nat) (hold : List Nat) (f : FieldTold → FieldTold) : State :=
  let s := s.fieldReport (fun r => (f r).bit Flt.FIO_CHF)
  let s : State := { s with field := { s.field with
    held := hold.foldl setBitN s.field.held
    cls := if s.field.cls = some n then Option.none else s.field.cls } }
  if s.field.test = Option.none ∧ s.field.cls = Option.none then s.darkNext else s

/-- The finding of a classification (R360). -/
def State.classify (s : State) (n : Nat) (partner : Option (Fin 16)) : State :=
  if !s.fioTests || !s.stuckHigh n then s
  else match partner with
    | Option.none => s.found n [n] (fun r => { r with shv := setBitN r.shv n })
    | some b =>
      if b.val = n ∨ !s.fioSwitch b then s else s.found n [n, b.val] (fun r => { r with ties := r.ties ++ [(n, b.val)] })

/-- STUCK_HIGH_CLASSIFICATION (R360). -/
def execStuckHighClassification (n : Fin 16) (partner : Option (Fin 16)) (s : State) :
    Host.Outcome State Fault Refusal :=
  .next (s.fioOp (fun s => s.classify n partner))

/-! ### Field supply and field-die reset -/

/-- VFLD measured, with the thresholds of R361: 18.0 and 18.5 V, 15.0 and 15.5 V in 1/256 V. While it is
unreliable a classification is abandoned without a finding and dark tests are suspended: the test and the round
under way end without a count (R360, R361). DEDUCED (log 221). -/
def State.vfldField (s : State) (v : Nat) : State :=
  let f := s.field
  let l := if v < 3840 then true else if 3968 ≤ v then false else f.vlow
  { s with field := { f with
    volt := v
    vwarn := if v < 4608 then true else if 4736 ≤ v then false else f.vwarn
    vlow := l
    test := if l then Option.none else f.test
    round := if l then [] else f.round
    cls := if l then Option.none else f.cls } }

/-- VFLD measured, and what its fall below a threshold has the field die report (R361). -/
def State.vfld (s : State) (v : Nat) : State :=
  let t := s.vfldField v
  let fell := chosen [(t.field.vlow && !s.field.vlow, Flt.FIO_VLOW), (t.field.vwarn && !s.field.vwarn, Flt.FIO_VWARN)]
  (t.when (s.field.up && fell != []) (t.fieldReport (fun r => fell.foldl FieldTold.bit r))).fioRefresh

/-- VFLD_THRESHOLD (R361). The field die runs on VFLD alone. -/
def execVfldThreshold (volt : BitVec 16) (s : State) : Host.Outcome State Fault Refusal :=
  .next (s.fioOp (fun s => s.vfld volt.toNat))

/-- BYPASS_PULL_IN_END (R363): the pull-in time is over and the drive holds at its duty. -/
def execBypassPullInEnd (s : State) : Host.Outcome State Fault Refusal :=
  .next (s.fioOp (fun s => { s with field := { s.field with pullIn := false } }))

end Sys2Proof.Machine
end

