-- ==== Sys2Proof/Machine/Enc.lean ====
section
/-! DEFINITION. The encoder channels: edge counting, speed windows and wire faults (R364 to R366, R379), and the reset and start
of the field die (R361, R362). -/

namespace Sys2Proof.Machine

/-- Encoder channel `n`. -/
def State.encChan (s : State) (n : Nat) : EncChan := nth s.field.enc n EncChan.init

/-- Encoder channel `n` replaced. -/
def State.setEnc (s : State) (n : Nat) (x : EncChan) : State :=
  { s with field := { s.field with enc := setNth s.field.enc n x EncChan.init } }

/-- The encoder block counts on channel `n`: powered, enabled, the field die up. -/
def State.encOn (s : State) (n : Nat) : Bool :=
  s.runs 0x18 && s.field.up && s.on (R.ENC_CFG_EN n)

/-- The count of one edge in quadrature x4: A leading B counts up (R364). -/
def quadCount (x : EncChan) (inp : EncInput) (level : Bool) : Int :=
  match inp with
  | .a => if level = x.a then 0 else if level != x.b then 1 else -1
  | .b => if level = x.b then 0 else if level == x.a then 1 else -1
  | .z => 0

/-- The count of one edge in a counting mode (R364). -/
def edgeCount (mode : Nat) (x : EncChan) (inp : EncInput) (level : Bool) : Int :=
  let rise := inp == .a && level && !x.a
  match mode with
  | 1 => if rise then (if x.b then -1 else 1) else 0
  | 2 => if rise then (if x.b then 1 else -1) else 0
  | _ => quadCount x inp level

/-- The levels of a channel after an edge. -/
def EncChan.withLevel (x : EncChan) (inp : EncInput) (level : Bool) : EncChan :=
  match inp with
  | .a => { x with a := level }
  | .b => { x with b := level }
  | .z => { x with z := level }

/-- The sign of the direction that a channel's inputs command: 1 close, -1 open, 0 none or both (R369, R373). -/
def SafChan.dir (h : SafChan) : Int := if h.cmd = 1 then 1 else if h.cmd = 2 then -1 else 0

/-- The length of a window of R373 in ns. -/
def motionWindow : Nat := 10000000

/-- The limit of overspeed in counts of a 10 ms window (R371, R373). -/
def SafChan.speedLimit (h : SafChan) : Nat := if bitOf h.dip 7 then 80 else 20

/-- The counts of a list of edges. -/
def edgeSum (l : List (Nat × Int)) : Int := l.foldl (fun a e => a + e.2) 0

/-- A window of 10 ms that ends by `now`, and after the last of the edges, holds more counts than the limit: the windows that
the passing of the oldest edges leaves (R373). -/
def tooFast (limit now : Nat) : List (Nat × Int) → Bool
  | [] => false
  | e :: l => decide (limit < (edgeSum (e :: l)).natAbs) || (decide (e.1 + motionWindow ≤ now) && tooFast limit now l)

/-- The edges of the last 10 ms. -/
def SafChan.recent (h : SafChan) (now : Nat) : List (Nat × Int) :=
  h.edges.filter (fun e => decide (now < e.1 + motionWindow))

/-- The counts of the last 10 ms (R380). -/
def SafChan.speed (h : SafChan) (now : Nat) : Int := edgeSum (h.recent now)

/-- The function logic of a channel runs: its self-test is over, and it is neither in IDLE nor in FAULT (R376). -/
def SafChan.counts (h : SafChan) : Bool := h.st == .run || h.st == .safe

/-- A channel counts `c` edges of its encoder; motion beyond 16 counts restarts the time of R373 without motion.
DESIGN CHOICE (log 226). -/
def SafChan.moved (h : SafChan) (now : Nat) (c : Int) : SafChan :=
  let t := h.trav + c
  let d := h.drift + c
  let beyond := decide (16 < d.natAbs)
  let e := h.recent now ++ [(now, c)]
  { h with
    edges := e, fast := h.fast || tooFast h.speedLimit now h.edges || tooFast h.speedLimit now e
    trav := t, far := max h.far (h.dir * t)
    drift := if beyond then 0 else d
    calm := if beyond then h.calm.map (fun _ => now) else h.calm }

/-- The safety channel of ENC0 or ENC1 counts the edge in quadrature x4 through its own receivers, while it is supplied and
its function logic runs (R369, R376). -/
def State.safCount (s : State) (n : Nat) (c : Int) : State :=
  let h := nth s.field.saf n SafChan.init
  s.when (decide (n < 2 ∧ c ≠ 0) && s.field.up && h.counts)
    { s with field := { s.field with saf := setNth s.field.saf n (h.moved s.field.ns c) SafChan.init } }

/-- An edge of an encoder input (R364), counted by the main die's encoder block where the module runs. -/
def State.encEdge (s : State) (n : Nat) (inp : EncInput) (level : Bool) : State :=
  let x := s.encChan n
  let c := edgeCount (s.get (R.ENC_CFG_MODE n)) x inp level
  let isZ := inp == .z && level != x.z
  let s := s.safCount n (quadCount x inp level)
  let y := x.withLevel inp level
  if s.phase == .run && s.encOn n then
    let s := s.setEnc n { y with count := y.count + c }
    let s := s.putS (R.ENC_POS_VAL n) (s.getS (R.ENC_POS_VAL n) + c)
    if isZ then s.incWrap (R.ENC_ZCNT_Z n) else s
  else s.setEnc n y

/-- ENCODER_EDGE (R364). The safety channels count whatever the main die does (R367). -/
def execEncoderEdge (n : Fin 4) (inp : EncInput) (level : Bool) (s : State) : Host.Outcome State Fault Refusal :=
  .next (s.encEdge n inp level)

/-- A wire fault is present on A or B of channel `n` now (R366). -/
def State.encFaulty (s : State) (n : Nat) : Bool := (s.encChan n).wire % 4 != 0

/-- The end of a speed window (R365, R366). -/
def State.encWindow (s : State) (n : Nat) : State :=
  if !s.encOn n then s
  else
    let x := s.encChan n
    let s := (s.putS (R.ENC_SPD_VAL n) x.count).incWrap (R.ENC_WSEQ_SEQ n)
    let s := s.putB (R.ENC_WSEQ_VALID n) (!x.bad && x.wire % 4 == 0)
    s.setEnc n { x with count := 0, bad := s.encFaulty n }

/-- ENC_WINDOW_END (R365). -/
def execEncWindowEnd (n : Fin 4) (s : State) : Host.Outcome State Fault Refusal :=
  .next (live s (s.encWindow n))

/-- The bit of a pair in ENC.WSTAn.WIRE (R379). -/
def pairBit : EncInput → Nat
  | .a => 0
  | .b => 1
  | .z => 2

/-- What ENC.WSTAn.WIRE shows: the pairs with a wire fault while the channel is on (R366, R379). -/
def State.wireNow (s : State) (n : Nat) : Nat := if s.encOn n then (s.encChan n).wire else 0

/-- How many pairs WSTAn.WIRE comes to show. -/
def State.wireNew (s : State) (n : Nat) : Nat := bitCount (andNot (s.wireNow n) (s.get (R.ENC_WSTA_WIRE n))) 3

/-- WSTAn.WIRE follows; each pair it comes to show is counted, and one on A or B spoils the window (R366).
DEDUCED (log 228). -/
def State.wireShow (s : State) (n : Nat) : State :=
  let t := (s.put (R.ENC_WSTA_WIRE n) (s.wireNow n)).addSat (R.ENC_WSTA_WFC n) (s.wireNew n)
  t.when (s.wireNow n % 4 != 0) (t.setEnc n { s.encChan n with bad := true })

/-- The wire faults of the channels of `l` are shown and flagged (R366). -/
def State.wireMeet (s : State) (l : List Nat) : State :=
  (forEach l (fun n x => x.wireShow n) s).raiseFlts 0x18 ((l.filter (fun n => s.wireNew n != 0)).map (Flt.ENC_WF + ·))

/-- The wire faults of all four channels meet a change of supply or of CTL.EN. -/
def State.wireMeetAll (s : State) : State := live s (s.wireMeet [0, 1, 2, 3])

/-- A wire fault of a pair begins or ends: it stands at the receivers whatever the main die does (R366). -/
def State.wireFault (s : State) (n : Nat) (pair : EncInput) (present : Bool) : State :=
  let x := s.encChan n
  let w := if present then setBitN x.wire (pairBit pair) else clrBitN x.wire (pairBit pair)
  let t := s.setEnc n { x with wire := w }
  live t (t.wireMeet [n])

/-- WIRE_FAULT (R366). -/
def execWireFault (n : Fin 4) (pair : EncInput) (present : Bool) (s : State) : Host.Outcome State Fault Refusal :=
  .next (s.wireFault n pair present)

/-- A write of ENC.CFGn: the window restarts and VALID is cleared until the next one completes (R365). -/
def State.encConfigure (s : State) (n v : Nat) : State :=
  let s := (s.put (R.ENC_CFG_EN n) (bitsOf v 31 1)).put (R.ENC_CFG_MODE n) (bitsOf v 16 2)
  let s := (s.put (R.ENC_CFG_WIN n) (bitsOf v 0 10)).put (R.ENC_WSEQ_VALID n) 0
  (s.setEnc n { s.encChan n with count := 0, bad := s.encFaulty n }).wireMeet [n]

/-- ENC_CONFIGURE (R365). -/
def execEncConfigure (n : Fin 4) (v : W32) (s : State) : Host.Outcome State Fault Refusal :=
  .next (live s (s.cmd 0x18 (s.encConfigure n v.toNat)))

/-- ENC.CMD.CCLR: clears every WSTAn.WFC (R379). -/
def State.encClear (s : State) : State :=
  s.zero [R.ENC_WSTA_WFC 0, R.ENC_WSTA_WFC 1, R.ENC_WSTA_WFC 2, R.ENC_WSTA_WFC 3]

/-- ENC_COUNTER_CLEAR (R379). -/
def execEncCounterClear (s : State) : Host.Outcome State Fault Refusal :=
  .next (live s (s.cmd 0x18 s.encClear))

/-! ### Field-die reset and start -/

/-- The field die as a reset leaves it: every output off, both safety channels in START (R361, R376). What stands
at its pins stays, and so do a thermal or group shutdown and a hold until their registers end them, what it has to report,
and the main die's side of the link. DEDUCED (log 223). -/
def FieldState.restart (f : FieldState) : FieldState :=
  { FieldState.init with
    ns := f.ns, volt := f.volt, vwarn := f.vwarn, vlow := f.vlow, pins := f.pins
    thermal := f.thermal, grp := f.grp, held := f.held
    lossMain := f.lossMain, lossFlag := f.lossFlag, badMain := f.badMain, goodMain := f.goodMain
    told := f.told, bypBad := f.bypBad
    saf := f.saf.map (fun h => { SafChan.init with si := h.si, sa := h.sa })
    enc := f.enc.map (fun x => { EncChan.init with a := x.a, b := x.b, z := x.z, wire := x.wire }) }

/-- FIELD_DIE_RESET (R361): VFLD has fallen below 12.0 V. -/
def execFieldDieReset (s : State) : Host.Outcome State Fault Refusal :=
  .next (s.when (s.field.up && decide (s.field.volt < 3072)) (s.fioOp (fun s =>
    (({ s with field := s.field.restart } : State).fieldReport
      (fun r => { r.bit Flt.FIO_FDRST with fdrc := r.fdrc + 1 })).fioRefresh.wireMeetAll)))

/-- FIELD_DIE_START (R361): VFLD has been above 16.0 V for 10 ms. The die starts with every output off;
a bypass request that still stands is driven at once with the full pull-in time. DEDUCED (log 223). -/
def execFieldDieStart (s : State) : Host.Outcome State Fault Refusal :=
  .next (s.when (!s.field.up && decide (4096 < s.field.volt)) (s.fioOp (fun s =>
    ({ s with field := { s.field with
      up := true, off := true, rx := if s.phase == .run then s.fioFrame else FieldRx.init } } : State).wireMeetAll)))

end Sys2Proof.Machine
end

