-- ==== Sys2Proof/Machine/Saf.lean ====
section
/-! DEFINITION. The safety channels SAF-A and SAF-B and their mirror page (R367 to R377, R380). They run on
the field die alone, whatever the main die does; no command here depends on the phase of the module. -/

namespace Sys2Proof.Machine

/-- Safety channel `c`: 0 is SAF-A, 1 is SAF-B. -/
def State.safCh (s : State) (c : Nat) : SafChan := nth s.field.saf c SafChan.init

/-- Safety channel `c` replaced; a module with invalid straps has its safety outputs de-energised (R15).
DEDUCED (log 227). -/
def State.setSaf (s : State) (c : Nat) (h : SafChan) : State :=
  let h := if s.on R.SYS_STRAP_BAD then { h with so0 := false, so1 := false } else h
  { s with field := { s.field with saf := setNth s.field.saf c h SafChan.init } }

/-- SF1, SF2 and SF3 enabled by the sealed switches (R371). -/
def SafChan.sf1 (h : SafChan) : Bool := bitOf h.dip 0
/-- SF2 enabled. -/
def SafChan.sf2 (h : SafChan) : Bool := bitOf h.dip 1
/-- SF3 enabled. -/
def SafChan.sf3 (h : SafChan) : Bool := bitOf h.dip 2

/-- The SF2 limit as a transducer current in microampere (R371, R373): 1, 2, 5 or 10 % of 16 mA above 4 mA. -/
def SafChan.limit (h : SafChan) : Nat :=
  match bitOf h.dip 3, bitOf h.dip 4 with
  | false, false => 4160
  | false, true => 4320
  | true, false => 4800
  | true, true => 5600

/-- The SF2 discharge time in seconds (R371). -/
def SafChan.dischargeS (h : SafChan) : Nat :=
  match bitOf h.dip 5, bitOf h.dip 6 with
  | false, false => 120
  | false, true => 300
  | true, false => 600
  | true, true => 1200

/-- Both inputs of pair `p` are at 24 V. -/
def SafChan.bothHigh (h : SafChan) (p : Nat) : Bool := bitOf h.si (2 * p) && bitOf h.si (2 * p + 1)

/-- Pair `p` is discrepant (R370). -/
def SafChan.isDisc (h : SafChan) (p : Nat) : Bool := bitOf h.disc p

/-- SIP `p` is healthy, shows open, or commands: both inputs at 24 V and the pair not discrepant. -/
def SafChan.sip (h : SafChan) (p : Nat) : Bool := h.bothHigh p && !h.isDisc p

/-- An SA current outside 3.6 to 21.0 mA is a wire fault (R370). -/
def SafChan.saFault (h : SafChan) : Bool := decide (h.sa < 3600 ∨ 21000 < h.sa)

/-- The pole voltage is below the limit (R372). -/
def SafChan.saLow (h : SafChan) : Bool := !h.saFault && decide (h.sa < h.limit)

/-- The condition of SF1, with the wait of 1 s after START (R372, R376). -/
def SafChan.ok1 (h : SafChan) : Bool := h.sip 0 && h.sip0Ok
/-- The condition of SF2. -/
def SafChan.ok2 (h : SafChan) : Bool := h.sip 1 && h.reached && h.saLow
/-- The condition of SF3. -/
def SafChan.ok3 (h : SafChan) : Bool := !h.viol

/-- Every enabled function's condition holds. -/
def SafChan.allOk (h : SafChan) : Bool := (!h.sf1 || h.ok1) && (!h.sf2 || h.ok2) && (!h.sf3 || h.ok3)

/-- The cause of a reaction of SF1 by code (R380). -/
def SafChan.why1 (h : SafChan) : Nat := if h.isDisc 0 then 2 else 1
/-- The cause of a reaction of SF2 by code (R380). -/
def SafChan.why2 (h : SafChan) : Nat := if h.saFault then 4 else if !h.saLow then 3 else if !h.sip 1 then 5 else 6

/-- The cause of a reaction of SF1 or SF2 (R380): of the function whose output it takes, SF1 first.
DEDUCED (log 225). -/
def SafChan.why (h : SafChan) : Nat :=
  if h.so0 && !h.ok1 then h.why1
  else if h.so1 && h.sf2 && !h.ok2 then h.why2
  else if h.sf1 && !h.ok1 then h.why1
  else if h.sf2 && !h.ok2 then h.why2
  else h.cause

/-- The outputs of a channel as its state and conditions give them (R372, R376). -/
def SafChan.drive (h : SafChan) : SafChan :=
  let on := h.st == .run || h.st == .safe
  { h with
    so0 := on && h.sf1 && h.ok1
    so1 := on && (h.sf2 || h.sf3) && (!h.sf2 || h.ok2) && (!h.sf3 || h.ok3) }

/-- A channel evaluates: SAFE where a function's condition fails, RUN when every condition holds again
(R372, R376). A reaction, named by `cause`, is the entry to SAFE or an output that de-energises.
DEDUCED (log 225). -/
def SafChan.evaluate (h : SafChan) (cause : Nat) : SafChan :=
  if h.st == .run || h.st == .safe then
    let g := ({ h with st := if h.allOk then .run else .safe } : SafChan).drive
    if (h.st == .run && g.st == .safe) || (h.so0 && !g.so0) || (h.so1 && !g.so1) then
      { g with cause := cause, react := true }
    else g
  else h.drive

/-- A channel enters FAULT, which it leaves only with the field die (R376). IDLE is never left.
DEDUCED (log 224). -/
def SafChan.fail (h : SafChan) (cause : Nat) : SafChan :=
  match h.st with
  | .idle => h
  | .fault => h
  | _ => ({ h with st := .fault, cause := cause, react := true } : SafChan).drive

/-- Since when a condition holds: from now on where it begins, since never where it does not hold. -/
def since (now : Nat) (b : Bool) (old : Option Nat) : Option Nat := if b then some (old.getD now) else Option.none

/-- A condition has held for at least `ns` nanoseconds. -/
def lasted (now ns : Nat) (t : Option Nat) : Bool :=
  match t with
  | Option.none => false
  | some t => decide (ns ≤ now - t)

/-- The times of a channel's pairs follow its inputs (R370). -/
def SafChan.pairTimes (h : SafChan) (now : Nat) : SafChan :=
  { h with
    differ := (List.range 4).map (fun p =>
      since now (bitOf h.si (2 * p) != bitOf h.si (2 * p + 1)) (nth h.differ p Option.none))
    high := (List.range 4).map (fun p => since now (h.bothHigh p) (nth h.high p Option.none)) }

/-- The motion commands follow the inputs: a change of them restarts the travel, and the time without a command
(R373). -/
def SafChan.motionCmd (h : SafChan) (now : Nat) : SafChan :=
  let c := b2n (h.sip 2) + 2 * b2n (h.sip 3)
  let h := if c = h.cmd then h else { h with cmd := c, trav := 0, far := 0 }
  let calm := since now (c == 0) h.calm
  { h with calm := calm, drift := if calm = h.calm then h.drift else 0 }

/-- A channel reads its inputs; the open time of SF2 restarts whenever SIP1 does not show open (R372). In IDLE, where the function
logic is powered down, only the levels at its pins are kept (R376). -/
def SafChan.readInputs (h : SafChan) (now si sa : Nat) : SafChan :=
  let h : SafChan := { h with si := si % 256, sa := sa }
  if h.st = .idle then h
  else
    let h := (h.pairTimes now).motionCmd now
    let o := since now (h.sip 1) h.openSince
    { h with openSince := o, reached := h.reached && o.isSome }

/-- The safety channels run while the field die is up. -/
def State.saf (s t : State) : Host.Outcome State Fault Refusal := .next (if s.field.up then t else s)

/-- A channel in FAULT is reported to the mirror. -/
def State.safFail (s : State) (c cause : Nat) : State :=
  let h := s.safCh c
  let g := h.fail cause
  let s := s.setSaf c g
  if g.st == .fault && h.st != .fault then { s with field := { s.field with faultP := true } } else s

/-- SAFETY_DEMAND (R372): the channel evaluates its functions on what its inputs show; without supply it only has
the inputs at its pins. -/
def execSafetyDemand (ch : Fin 2) (inp : SafInputs) (s : State) : Host.Outcome State Fault Refusal :=
  let h := (s.safCh ch).readInputs s.field.ns inp.si.toNat inp.sa
  .next (if s.field.up then s.setSaf ch (h.evaluate h.why)
    else s.setSaf ch { s.safCh ch with si := inp.si.toNat, sa := inp.sa })

/-- Pair `p` becomes discrepant in a channel: its inputs have differed for more than 100 ms (R370). -/
def SafChan.setDisc (h : SafChan) (now p : Nat) : SafChan :=
  if h.st != .idle && lasted now 100000001 (nth h.differ p Option.none) then
    let g := ({ h with disc := setBitN h.disc p } : SafChan).readInputs now h.si h.sa
    g.evaluate g.why
  else h

/-- Pair `p` has been healthy for 1 s in a channel: a discrepancy ends, and SIP0 may energise SOP0 after
START (R370, R376). -/
def SafChan.setHealthy (h : SafChan) (now p : Nat) : SafChan :=
  if h.st != .idle && lasted now 1000000000 (nth h.high p Option.none) then
    let g : SafChan := { h with disc := clrBitN h.disc p, sip0Ok := h.sip0Ok || p == 0 }
    let g := g.readInputs now g.si g.sa
    g.evaluate g.why
  else h

/-- DISCREPANCY (R370). -/
def execDiscrepancy (sip : Fin 4) (s : State) : Host.Outcome State Fault Refusal :=
  let t := (s.setSaf 0 ((s.safCh 0).setDisc s.field.ns sip)).setSaf 1 ((s.safCh 1).setDisc s.field.ns sip)
  let new := ((t.safCh 0).isDisc sip && !(s.safCh 0).isDisc sip) || ((t.safCh 1).isDisc sip && !(s.safCh 1).isDisc sip)
  s.saf { t with field := { t.field with discP := t.field.discP || new } }

/-- HEALTHY_FOR_1_S (R370). -/
def execHealthyFor1S (sip : Fin 4) (s : State) : Host.Outcome State Fault Refusal :=
  s.saf ((s.setSaf 0 ((s.safCh 0).setHealthy s.field.ns sip)).setSaf 1 ((s.safCh 1).setHealthy s.field.ns sip))

/-- SWITCH_READ (R371): the readings of both channels must agree and must not change while running. -/
def execSwitchRead (a b : BitVec 8) (s : State) : Host.Outcome State Fault Refusal :=
  let ha := s.safCh 0
  let hb := s.safCh 1
  let changed := (ha.dipRead && ha.st != .start && ha.dip != a.toNat) ||
    (hb.dipRead && hb.st != .start && hb.dip != b.toNat)
  let bad := decide (a ≠ b) || changed
  let t := (s.setSaf 0 { ha with dip := a.toNat, dipRead := true }).setSaf 1 { hb with dip := b.toNat, dipRead := true }
  if bad then
    let t : State := { t with field := { t.field with dipP := true } }
    s.saf ((t.safFail 0 0x10).safFail 1 0x10)
  else s.saf t

/-- The open time of SF2 counts from the self-test's end at the latest, where SIP1 shows open (R372). -/
def SafChan.counting (h : SafChan) (now : Nat) : SafChan := h.readInputs now h.si h.sa

/-- SAF_SELF_TEST_DONE (R376): START is left for IDLE where no function is enabled, for RUN where one is;
a failed self-test enters FAULT. -/
def execSafSelfTestDone (ch : Fin 2) (ok : Bool) (s : State) : Host.Outcome State Fault Refusal :=
  let h := s.safCh ch
  if h.st != .start then s.saf s
  else if !ok then s.saf (s.safFail ch 0x10)
  else if h.sf1 || h.sf2 || h.sf3 then s.saf (s.setSaf ch (({ h with st := .run } : SafChan).counting s.field.ns).drive)
  else s.saf (s.setSaf ch ({ h with st := .idle } : SafChan).drive)

/-- A channel makes decisions: its self-test is over and a function is enabled (R376). -/
def SafChan.decides (h : SafChan) : Bool := h.st != .start && h.st != .idle

/-- Where the two channels disagree: in each SI level, in the SA reading by more than 2 % of the range of 16 mA, in the decision
of each output (R368). A channel in IDLE compares nothing (R376). DEDUCED (log 224). -/
def SafChan.disagrees (a b : SafChan) : List Bool :=
  let on := a.st != .idle && b.st != .idle
  let both := a.decides && b.decides
  (List.range 8).map (fun k => on && bitOf a.si k != bitOf b.si k) ++
    [on && decide (a.sa + 320 < b.sa ∨ b.sa + 320 < a.sa), both && a.so0 != b.so0, both && a.so1 != b.so1]

/-- The channels exchange and compare: a disagreement of more than 20 ms in one of them puts both into FAULT (R368). -/
def State.exchange (s : State) : State :=
  let times := List.zipWith (since s.field.ns) ((s.safCh 0).disagrees (s.safCh 1)) s.field.xdisAt
  let t : State := { s with field := { s.field with xdisAt := times } }
  if times.any (lasted s.field.ns 20000001) then
    (({ t with field := { t.field with xdisP := true } } : State).safFail 0 0x10).safFail 1 0x10
  else t

/-- CROSS_CHANNEL_EXCHANGE (R368). -/
def execCrossChannelExchange (s : State) : Host.Outcome State Fault Refusal := s.saf s.exchange

/-- CLOCK_SUPERVISOR_FAULT (R368). -/
def execClockSupervisorFault (ch : Fin 2) (s : State) : Host.Outcome State Fault Refusal :=
  s.saf (s.safFail ch 0x10)

/-- SAFETY_OUTPUT_TEST (R375): a pin that stays high puts the channel into FAULT; a demand during the
test wins and the test is abandoned. -/
def execSafetyOutputTest (ch : Fin 2) (ok demand : Bool) (s : State) : Host.Outcome State Fault Refusal :=
  s.saf (if ok || demand then s else s.safFail ch 0x0C)

/-- The limit of travel in counts (R371, R373). -/
def SafChan.travelLimit (h : SafChan) : Int := if bitOf h.dip 7 then 240000 else 60000

/-- The condition of R373 that a cause names; an encoder wire fault is what the channel's receivers report. Motion against
the command counts back from the furthest point reached. DESIGN CHOICE (log 226). -/
def SafChan.violates (h : SafChan) (now cause : Nat) : Bool :=
  match cause with
  | 7 => h.fast || tooFast h.speedLimit now h.edges
  | 8 => h.dir != 0 && decide (h.dir * h.trav + 16 < h.far)
  | 9 => h.dir != 0 && decide (h.travelLimit < h.dir * h.trav)
  | 10 => h.dir == 0 && decide (16 < h.trav.natAbs)
  | 11 => true
  | _ => false

/-- MOTION_VIOLATION (R373): a violation latches. -/
def execMotionViolation (ch : Fin 2) (cause : Fin 16) (s : State) : Host.Outcome State Fault Refusal :=
  let h := s.safCh ch
  s.saf (if h.violates s.field.ns cause && h.sf3 && h.counts then
    s.setSaf ch (({ h with viol := true, cause := cause, react := true, fast := false } : SafChan).evaluate cause)
  else s)

/-- VIOLATION_RELEASE (R373): SIP2 and SIP3 have been inactive for 1 s without motion beyond 16 counts. -/
def execViolationRelease (ch : Fin 2) (s : State) : Host.Outcome State Fault Refusal :=
  let h := s.safCh ch
  s.saf (if lasted s.field.ns 1000000000 h.calm then
    s.setSaf ch (({ h with viol := false, fast := false, edges := h.recent s.field.ns } : SafChan).evaluate h.cause) else s)

/-- DISCHARGE_TIME_REACHED (R372): the open time has reached the discharge time. -/
def execDischargeTimeReached (ch : Fin 2) (s : State) : Host.Outcome State Fault Refusal :=
  let h := s.safCh ch
  s.saf (if lasted s.field.ns (h.dischargeS * 1000000000) h.openSince then
    s.setSaf ch (({ h with reached := true } : SafChan).evaluate h.cause) else s)

/-! ### The mirror -/

/-- The state code of SAF.STA (R380). -/
def SafSt.code : SafSt → Nat
  | .start => 0
  | .idle => 1
  | .run => 2
  | .safe => 3
  | .fault => 4

/-- Discharge time remaining in seconds (R380). -/
def SafChan.remaining (h : SafChan) (now : Nat) : Nat :=
  if h.reached then 0
  else match h.openSince with
    | Option.none => h.dischargeS
    | some t => h.dischargeS - (now - t) / 1000000000

/-- Demanding, not open or not commanding, in either channel (R380). -/
def State.safDem (s : State) : Nat :=
  (List.range 4).foldl (fun m p => m + (if (s.safCh 0).sip p && (s.safCh 1).sip p then 0 else 2 ^ p)) 0

/-- A register field takes a value the spec gives; of a value that does not fit it the spec states nothing: the
field then holds a free value. DESIGN CHOICE (log 226). -/
def State.putFit (s : State) (f : Fld) (v : Nat) : State :=
  if v < 2 ^ f.width then s.put f v
  else
    let p := s.fresh f.width
    p.2.put f p.1

/-- The same of a signed value. DESIGN CHOICE (log 226). -/
def State.putFitS (s : State) (f : Fld) (v : Int) : State :=
  if -(2 ^ (f.width - 1) : Nat) ≤ v ∧ v < (2 ^ (f.width - 1) : Nat) then s.putS f v
  else
    let p := s.fresh f.width
    p.2.put f p.1

/-- The mirror registers take what both channels transmit (R377, R380). -/
def State.safMirror (s : State) : State :=
  let a := s.safCh 0
  let b := s.safCh 1
  let s := ((s.put R.SAF_DIP_DIPA a.dip).put R.SAF_DIP_DIPB b.dip).putB R.SAF_DIP_AGREE (a.dip == b.dip)
  let s := (s.put R.SAF_STA_STATEA a.st.code).put R.SAF_STA_STATEB b.st.code
  let s := s.put R.SAF_STA_SOP (b2n (a.so0 && b.so0) + 2 * b2n (a.so1 && b.so1))
  let s := s.put R.SAF_STA_FUNC (a.dip % 8)
  let s := ((s.put R.SAF_SIN_SIA a.si).put R.SAF_SIN_SIB b.si).put R.SAF_SIN_DISC (Nat.lor a.disc b.disc)
  let s := s.put R.SAF_SIN_DEM s.safDem
  let s := (s.putFit R.SAF_SA_SA0 a.sa).putFit R.SAF_SA_SA1 b.sa
  let s := (s.putFitS R.SAF_MOT_SPDA (a.speed s.field.ns)).putFitS R.SAF_MOT_SPDB (b.speed s.field.ns)
  let s := (s.put R.SAF_TDIS_REMA (a.remaining s.field.ns)).put R.SAF_TDIS_REMB (b.remaining s.field.ns)
  let s := (s.put R.SAF_CAUSE_CA a.cause).put R.SAF_CAUSE_CB b.cause
  ({ s with safAt := some s.fcu.timeNs } : State).incWrap R.SAF_AGE_UPD

/-- The reports waiting for the mirror are taken. -/
def State.safTaken (s : State) : State :=
  let a := s.safCh 0
  let b := s.safCh 1
  let s := (s.setSaf 0 { a with react := false }).setSaf 1 { b with react := false }
  { s with field := { s.field with xdisP := false, discP := false, faultP := false, dipP := false } }

/-- The flags of SAF.FLT that the waiting reports set (R377, R380). -/
def State.safFlags (s : State) : List Nat :=
  chosen [((s.safCh 0).react || (s.safCh 1).react, Flt.SAF_REACT), (s.field.discP, Flt.SAF_DISC),
    (s.field.xdisP, Flt.SAF_XDIS), (s.field.faultP, Flt.SAF_FAULT), (s.field.dipP, Flt.SAF_DIPCHG)]

/-- SAF_MIRROR_UPDATE (R377): the reaction's own FCU source comes before that of the page (R336). In role K the page is Gated
and only FIO.FLT.ROLEC comes of it (R376). -/
def execSafMirrorUpdate (s : State) : Host.Outcome State Fault Refusal :=
  .next (live s (if !s.field.up || s.field.lossMain then s
    else if s.isK then
      s.raiseIf ((s.safCh 0).dip != 0 || (s.safCh 1).dip != 0) 0x16 Flt.FIO_ROLEC
    else if s.gated 0x17 then s
    else
      let t := s.safMirror
      let t := t.when ((s.safCh 0).react || (s.safCh 1).react) (t.fcuEvent 0x15)
      (t.raiseFlts 0x17 s.safFlags).safTaken))

/-- SAF.AGE.FRESH: a mirror update arrived within the last 4 ms (R380). -/
def State.safFresh (s : State) : Bool :=
  match s.safAt with
  | Option.none => false
  | some t => decide (s.fcu.timeNs - t ≤ 4000000)

end Sys2Proof.Machine
end

