-- ==== Sys2Proof/Machine/Pwm.lean ====
section
/-! DEFINITION. The pulse unit: gate outputs, transitions and dead time, the trim pulse and its residue,
gate faults, the bypass request, debug halt and carrier mode (R235 to R252, R266, R442). -/

namespace Sys2Proof.Machine

/-- PWM.GSTA.GOUT: the outputs driven high. -/
def State.gout (s : State) : Nat := s.get R.PWM_GSTA_GOUT

/-- The outputs driven high replaced; each change is a switching transition (R342). DEDUCED (log 203). -/
def State.setGout (s : State) (v : Nat) : State :=
  (s.put R.PWM_GSTA_GOUT v).hourly (fun a => { a with swc := a.swc + bitCount (Nat.xor s.gout v) 4 })

/-- PWM.GSTA.HIZ: the outputs are in high impedance. -/
def State.hiz (s : State) : Bool := s.on R.PWM_GSTA_HIZ

/-- PWM.GSTA.APPL: the state applied. -/
def State.appl (s : State) : Nat := s.get R.PWM_GSTA_APPL

/-- Strike mode is selected (R237). -/
def State.strikeMode (s : State) : Bool := !s.on R.PWM_SCFG_MODE

/-- The outputs driven high in an insertion state, G0 in bit 0 (R236). -/
def stateGates (fb : Bool) (code : Nat) : Nat :=
  match fb, code with
  | false, 0 => 2
  | false, 1 => 1
  | true, 0 => 10
  | true, 1 => 9
  | true, 2 => 6
  | _, _ => 0

/-- The state as the slot reports it: 00 in high impedance and with gates off (R245, R442). -/
def State.insCode (s : State) : Nat :=
  if s.hiz then 0 else match s.appl with
    | 1 => 1
    | 2 => 2
    | _ => 0

/-- The dead time in ns (R238). -/
def State.dtNs (s : State) : Nat := s.get R.PWM_DT_DT * 10

/-- The minimum pulse in 250 ps units (R240). -/
def State.minpq (s : State) : Nat := 40 * s.get R.PWM_DT_MINP

/-- The outputs driven high once every dead time under way has ended. -/
def State.goal (s : State) : Nat := Nat.lor s.gout s.pwm.pendOn

/-- The turn-ons that a change toward `target` leaves scheduled: those of a leg, by its mask, whose pair does not change. -/
def State.pendKept (s : State) (target leg : Nat) : Nat :=
  if Nat.land s.goal leg = Nat.land target leg then Nat.land s.pwm.pendOn leg else 0

/-- The outputs change toward `target` at the instant `t`, in 250 ps units from the Strike: outgoing
switches at once, incoming ones of the outputs in `dead` at the end of the dead time of their leg; a leg whose pair does not
change is untouched (R238). -/
def State.gatesTo (s : State) (target dead : Nat) (t : Int) : State :=
  let cur := s.gout
  let keep := s.pendKept target 3 + s.pendKept target 12
  let off := andNot cur target
  let on := andNot (andNot target cur) keep
  let late := Nat.land on dead
  let left (leg old : Nat) : Nat := if Nat.land late leg ≠ 0 then s.dtNs else if Nat.land keep leg ≠ 0 then old else 0
  let t1 := s.setGout (Nat.lor (Nat.land cur target) (andNot on dead))
  let t2 := t1.putB R.PWM_GSTA_DTACT (keep + late != 0)
  { t2 with pwm := { s.pwm with
      pendOn := keep + late
      dtLeftA := left 3 s.pwm.dtLeftA, dtLeftB := left 12 s.pwm.dtLeftB
      lastOffA := if off % 4 = 0 then s.pwm.lastOffA else t
      lastOffB := if off / 4 % 4 = 0 then s.pwm.lastOffB else t } }

/-- No turn-on is scheduled any more. -/
def State.noPend (s : State) : State := { s with pwm := { s.pwm with pendOn := 0, dtLeftA := 0, dtLeftB := 0 } }

/-- RESID of a residue in 250 ps units: Q2.14 in units of TP, nearest, ties away from zero (R243). -/
def residOf (r : Int) (tpq : Nat) : Int := satSigned 16 (divNear (r * 16384) tpq)

/-- The residue is the whole pulse (R243). -/
def State.residFull (s : State) : State :=
  s.putS R.PWM_IRES_RESID (residOf ((s.tpq : Int) - s.get R.PWM_ITOFF_TOFF) s.tpq)

/-- The trim edge is not issued (R243). -/
def State.trimLost (s : State) : State :=
  ({ s with cell := { s.cell with trimDue := false, trimRes := Option.none } } : State).residFull

/-- The requested instant of the trim pulse is still to come. -/
def State.beforeTrim (s : State) : Bool := s.cell.trim && decide (4 * s.tickNs ≤ s.get R.PWM_ITOFF_TOFF)

/-- High impedance or a freeze begins in a tick with a trim pulse: a pending edge is not issued any more, and before the
requested instant the residue is the whole pulse (R243, R244, R249, R442). DEDUCED (log 140). -/
def State.trimCut (s : State) : State := if s.cell.trimDue then s.trimLost else s.when s.beforeTrim s.residFull

/-- The outputs have left high impedance or a freeze before the requested instant: an edge issued before has its residue again
(R243). DEDUCED (log 140). -/
def State.trimBack (s : State) : State :=
  match s.cell.trimRes with
  | Option.none => s
  | some r => s.when (s.beforeTrim && !s.hiz && !s.on R.PWM_GSTA_FRZ) (s.putS R.PWM_IRES_RESID r)

/-- The outputs enter high impedance: every pending edge is cancelled (R244, R442). -/
def State.toHiz (s : State) : State :=
  let s := if s.hiz then s else s.trimCut
  let s := ((s.put R.PWM_GSTA_HIZ 1).setGout 0).put R.PWM_GSTA_APPL 3
  s.noPend.put R.PWM_GSTA_DTACT 0

/-- The outputs are driven with all gates off, until the next Strike. -/
def State.gatesOff (s : State) : State :=
  let s := if s.cell.trimDue then s.trimLost else s
  let s := ((s.put R.PWM_GSTA_HIZ 0).setGout 0).put R.PWM_GSTA_APPL 3
  (s.noPend.put R.PWM_GSTA_DTACT 0).trimBack

/-- The outputs can be driven: enabled, no gate fault, not frozen, not held (R15, R245, R249, R442). -/
def State.canDrive (s : State) : Bool :=
  s.en 0x14 && s.get (R.FLT 0x14) % 16 == 0 && !s.frozen && !s.heldOff

/-- The gates are held off without a Strike (R36, R118): only outputs that are driven and not frozen change. -/
def State.gatesHeld (s : State) : State := s.when (s.canDrive && !s.hiz) s.gatesOff

/-- A Strike-mode transition can be issued: enabled, Strike mode, driven and not frozen. -/
def State.canSwitch (s : State) : Bool := s.en 0x14 && s.strikeMode && !s.hiz && !s.frozen

/-- A transition of a leg within the minimum pulse of its last turn-off is still made, and counted (R239). -/
def State.mpvLeg (s : State) (changed : Bool) (t last : Int) : State :=
  if changed && decide (t - last < (s.minpq : Int)) then
    (s.incSat R.PWM_SCNT_MPV).raiseFlt 0x14 Flt.PWM_MPV
  else s

/-- The transition to a state, issued at the instant `t` (R238): into gates off every switch at once. -/
def State.transition (s : State) (code : Nat) (t : Int) : State :=
  let target := stateGates (s.on R.PWM_SCFG_FB) code
  let s := if code = s.appl then s else { s with cell := { s.cell with swcnt := (s.cell.swcnt + 1) % 65536 } }
  (s.gatesTo target 15 t).put R.PWM_GSTA_APPL code

/-- At a Strike outputs that high impedance has left without a cause are driven again, from gates off. -/
def State.revive (s : State) : State := s.when (s.hiz && s.canDrive) s.gatesOff

/-- The Strike transition to the decided state (R239). -/
def State.strikeTransition (s : State) (code : Nat) : State :=
  let s := s.revive
  if !s.canSwitch then s
  else
    let x := Nat.xor s.goal (stateGates (s.on R.PWM_SCFG_FB) code)
    let s := s.mpvLeg (x % 4 != 0) 0 s.pwm.lastOffA
    let s := s.mpvLeg (x / 4 != 0) 0 s.pwm.lastOffB
    s.transition code 0

/-- The instants of the last turn-offs, measured from the Strike that begins now. DEDUCED (log 140). -/
def State.shiftOff (s : State) (tpq : Nat) : State :=
  { s with pwm := { s.pwm with lastOffA := s.pwm.lastOffA - tpq, lastOffB := s.pwm.lastOffB - tpq } }

/-! ### The trim pulse -/

/-- The effective instant less the issue instant, by the current case (R241). -/
def State.trimDelay (s : State) : Int :=
  let dir : Int := if s.cell.trimNeg then -1 else 1
  let i := s.cell.trimIarm * dir
  let db : Int := ((1000 * s.get R.PWM_SWD_IDB : Nat) : Int)
  let off : Int := s.get R.PWM_SWD_TDOFF
  let on : Int := ((40 * s.get R.PWM_DT_DT + s.get R.PWM_SWD_TDON : Nat) : Int)
  if i > 0 ∧ db ≤ i then off
  else if i < 0 ∧ db ≤ -i then on
  else (off + on) / 2

/-- A trim pulse moved or not emitted (R242). -/
def State.trimSupp (s : State) : State := (s.incSat R.PWM_SCNT_SUPP).raiseFlt 0x14 Flt.PWM_SUPP

/-- The trim cell places its leading edge (R242, R243). -/
def State.trimEdge (s : State) : State :=
  if !s.cell.trimDue then s
  else if !s.canSwitch then s.trimLost
  else
    let tr : Int := s.get R.PWM_ITOFF_TOFF
    let d := s.trimDelay
    let goal := if s.on R.PWM_SCFG_DTC then tr - d else tr
    let last := if s.cell.trimNeg then s.pwm.lastOffB else s.pwm.lastOffA
    let t := max (max goal 0) (last + s.minpq)
    if (s.tpq : Int) - t < s.minpq then s.trimLost.trimSupp
    else
      let s := s.toInstant (t.toNat / 4)
      let s := s.transition (if s.cell.trimNeg then 2 else 1) t
      let r := residOf (t + d - tr) s.tpq
      let s := ({ s with cell := { s.cell with trimDue := false, trimRes := some r } } : State).putS R.PWM_IRES_RESID r
      if goal < t then s.trimSupp else s

/-- TRIM_EDGE (R242). -/
def execTrimEdge (s : State) : Host.Outcome State Fault Refusal := .next (live s (s.when s.isK s.trimEdge))

/-- The turn-ons of a leg, by its mask, that are due when `d` ns have passed. -/
def State.pendDue (s : State) (d : Nat) : Nat :=
  (if s.pwm.dtLeftA ≤ d then Nat.land s.pwm.pendOn 3 else 0) + (if s.pwm.dtLeftB ≤ d then Nat.land s.pwm.pendOn 12 else 0)

/-- The time in ns until the first dead time under way ends. -/
def State.deadNs (s : State) : Nat :=
  if Nat.land s.pwm.pendOn 3 = 0 then s.pwm.dtLeftB
  else if Nat.land s.pwm.pendOn 12 = 0 then s.pwm.dtLeftA
  else min s.pwm.dtLeftA s.pwm.dtLeftB

/-- The end of the first dead time under way: the incoming switches of its leg are driven high (R238). -/
def State.deadEnd (s : State) : State :=
  if s.pwm.pendOn = 0 ∨ s.frozen then s
  else
    let on := s.pendDue s.deadNs
    let s := s.elapse s.deadNs
    let s := (s.setGout (Nat.lor s.gout on)).putB R.PWM_GSTA_DTACT (andNot s.pwm.pendOn on != 0)
    { s with pwm := { s.pwm with pendOn := andNot s.pwm.pendOn on } }

/-- DEAD_TIME_END (R238). -/
def execDeadTimeEnd (s : State) : Host.Outcome State Fault Refusal := .next (live s s.deadEnd)

/-! ### The bypass request -/

/-- A source bit of the bypass request is set or cleared: 0 ORPH, 1 GF, 2 LIM, 3 SW, 4 REV (R247). The
drive follows (R248). -/
def State.setByp (s : State) (src : Nat) (b : Bool) : State := s.fioOp (fun s => s.putBit R.PWM_BYP_SRC src b)

/-- A limit comparator with action 10 is beyond its limit. -/
def State.limActive (s : State) : Bool :=
  (List.range 4).any (fun k => s.on (R.ADC_LIMCFG_EN k) && s.get (R.ADC_LIMCFG_ACT k) == 2 && nth s.adc.beyond k false)

/-- PWM.BYP.CLR: clears SW, and LIM where no such comparator is beyond its limit (R247). -/
def State.bypClr (s : State) : State :=
  let s := s.setByp 3 false
  if !s.bit R.PWM_BYP_SRC 2 then s
  else if s.limActive then s.put R.PWM_BYP_CLRREF 1
  else s.setByp 2 false

/-- BYPASS_SET (R247). -/
def execBypassSet (s : State) : Host.Outcome State Fault Refusal := .next (live s (s.cmd 0x14 (s.setByp 3 true)))

/-- BYPASS_CLEAR (R247). -/
def execBypassClear (s : State) : Host.Outcome State Fault Refusal := .next (live s (s.cmd 0x14 s.bypClr))

/-! ### Gate faults -/

/-- The GF bits of PWM.FLT. -/
def State.gf (s : State) : Nat := s.get (R.FLT 0x14) % 16

/-- Gate fault input `n` becomes active, in every state of the unit (R244 to R246). DEDUCED (log 141). -/
def State.gateFault (s : State) (n : Nat) : State :=
  let s := s.putBit R.PWM_GSTA_FLTIN n true
  let new := !bitOf s.gf n
  let s := s.toHiz
  if !new then s
  else
    let s := (s.fcuEvent 0x0A).raiseFlt 0x14 (Flt.PWM_GF + n)
    if s.on R.PWM_SCFG_BYPGF then s.setByp 1 true else s

/-- Input FLTn counts as active now: it is enabled and has been at its active level for the filter time (R244). -/
def State.fltActive (s : State) (n : Nat) : Bool :=
  match nth s.pwm.fltAt n Option.none with
  | Option.none => s.bit R.PWM_GSTA_FLTIN n && s.bit R.PWM_FCFG_EN n
  | some (high, t) => s.bit R.PWM_FCFG_EN n && high == s.bit R.PWM_FCFG_POL n &&
      decide (t + (s.get R.PWM_FCFG_FILT * 2 : Nat) ≤ (s.fcu.timeNs : Int))

/-- GSTA.FLTIN follows input FLTn, and a fault begins where it becomes active (R244, R266). DEDUCED (log 141). -/
def State.fltMeet (s : State) (n : Nat) : State :=
  if !s.fltActive n then s.putBit R.PWM_GSTA_FLTIN n false
  else s.gateFault n

/-- A write of FCFG acts on the inputs as they stand (R244). -/
def State.fltMeetAll (s : State) : State := forUpTo 4 (fun n x => x.fltMeet n) s

/-- Input FLTn has been at a level for `ns` nanoseconds (R244). -/
def State.faultInput (s : State) (n : Nat) (high : Bool) (ns : Nat) : State :=
  ({ s with pwm := { s.pwm with
      fltAt := setNth s.pwm.fltAt n (some (high, (s.fcu.timeNs : Int) - ns)) Option.none } } : State).fltMeet n

/-- GATE_FAULT (R244). DEDUCED (log 141). -/
def execGateFault (n : Fin 4) (high : Bool) (ns : Nat) (s : State) : Host.Outcome State Fault Refusal :=
  .next (live s (s.faultInput n high ns))

/-- In carrier mode the outputs keep their levels until the next Strike (R245, R249). -/
def State.waitStrike (s : State) : State := { s with pwm := { s.pwm with wait := !s.strikeMode } }

/-- The GF bits written as 1 are cleared where their input is not active (R245). -/
def State.gfClear (s : State) (bits active : Nat) : State :=
  let old := s.gf
  let active := Nat.land active (s.get R.PWM_FCFG_EN)
  let refused := Nat.land (Nat.land bits active) old
  let s := s.put R.PWM_GSTA_FLTIN active
  let s := s.put (R.FLT 0x14) (andNot (s.get (R.FLT 0x14)) (andNot (bits % 16) active))
  let s := if refused = 0 then s else s.put R.PWM_GSTA_CLRREF 1
  if old != 0 && s.gf == 0 then
    let s := s.setByp 1 false
    s.when s.canDrive s.gatesOff.waitStrike
  else s

/-- GATE_FAULT_CLEAR (R245). -/
def execGateFaultClear (bits active : BitVec 4) (s : State) : Host.Outcome State Fault Refusal :=
  .next (live s (s.cmd 0x14 (s.gfClear bits.toNat active.toNat)))

/-! ### The levels of carrier mode -/

/-- The outputs that complement another with dead time, as read at the period's start (R251, R252). DEDUCED (log 142). -/
def State.compMask (s : State) : Nat := (if s.pwm.compA then 3 else 0) + (if s.pwm.compB then 12 else 0)

/-- The level of output `n` at the counter's value (R250). -/
def State.carrierLevel (s : State) (n : Nat) : Bool := decide (s.pwm.count < nth s.pwm.ccmp n 0)

/-- The outputs that are high at the counter's value: enabled outputs, complemented where configured, as read at the period's
start (R250 to R252); none in a reversed cell (R24). -/
def State.carrierTarget (s : State) : Nat :=
  let l (n : Nat) : Bool :=
    if n = 1 ∧ s.pwm.compA = true then !s.carrierLevel 0
    else if n = 3 ∧ s.pwm.compB = true then !s.carrierLevel 2
    else s.carrierLevel n
  if s.cell.reversed then 0
  else (List.range 4).foldl (fun m n => m + (if bitOf s.pwm.oen n && l n then 2 ^ n else 0)) 0

/-- PWM.GSTA.GOUT as it shows: in carrier mode an output of its own follows the counter (R250). -/
def State.goutShown (s : State) : Nat :=
  if s.carrierRuns && !s.hiz && !s.pwm.wait then Nat.land s.gout s.compMask + andNot s.carrierTarget s.compMask else s.gout

/-! ### Debug halt -/

/-- The pulse unit freezes: every output keeps its level and no edge is issued (R249).
DEDUCED (log 140). -/
def State.freeze (s : State) : State :=
  ((s.when (!s.on R.PWM_GSTA_FRZ) s.trimCut).setGout s.goutShown).noPend.put R.PWM_GSTA_FRZ 1

/-- The debug port is open for core run control (R396, R400). DEDUCED (log 42). -/
def State.debugRuns (s : State) : Bool := s.on R.SEC_STA_DBGOPEN && bitOf (s.get R.SEC_DBG_SCOPE) 0

/-- DEBUG_HALT (R249): the debug port, where it is open with run control, holds CC0 or CC1 halted. -/
def execDebugHalt (c : Fin 2) (s : State) : Host.Outcome State Fault Refusal :=
  .next (live s (s.when s.debugRuns
    ({ s.freeze with pwm := { s.freeze.pwm with halt0 := s.pwm.halt0 || c == 0, halt1 := s.pwm.halt1 || c == 1 } } : State)))

/-- The debug port releases CC0 or CC1; the outputs keep their levels until the next Strike (R249). -/
def State.debugRelease (s : State) (c : Nat) : State :=
  let t : State := { s with pwm := { s.pwm with
    halt0 := s.pwm.halt0 && c != 0, halt1 := s.pwm.halt1 && c != 1 } }
  let u := t.putB R.PWM_GSTA_FRZ t.frozen
  (if s.frozen && !t.frozen then u.trimBack.waitStrike else u).irqs

/-- DEBUG_RELEASE (R249). -/
def execDebugRelease (c : Fin 2) (s : State) : Host.Outcome State Fault Refusal := .next (live s (s.debugRelease c))

/-! ### Carrier mode -/

/-- A compare with the intervals that the minimum pulse suppresses or fills taken into account, and
whether one was (R251). DEDUCED (log 142). -/
def carrierEff (per cmp minp : Nat) (center : Bool) : Nat × Bool :=
  let k := if center then 2 else 1
  let c := min cmp per
  if 0 < c ∧ k * c < minp then (0, true)
  else if c < per ∧ k * (per - c) < minp then (per, true)
  else (c, false)

/-- The outputs follow the counter, where they do not wait for a Strike. -/
def State.carrierDrive (s : State) : State :=
  if s.hiz || s.pwm.wait then s else s.gatesTo s.carrierTarget s.compMask (4 * s.tickNs : Nat)

/-- What a carrier period reads at its start, from the values in force: CPER, the compares, CENTER, and which outputs are
enabled and complemented (R252). DEDUCED (log 142). -/
def State.carrierRead (s : State) : State :=
  let per := max 1 (s.get R.PWM_CPER_CPER)
  let center := s.on R.PWM_CCFG_CENTER
  { s with pwm := { s.pwm with
      cper := per, center := center, met := 0, oen := s.get R.PWM_CCFG_OEN
      compA := s.on R.PWM_CCFG_COMPA, compB := s.on R.PWM_CCFG_COMPB
      ccmp := (List.range 4).map (fun i => (carrierEff per (s.get (R.PWM_CCMP_CMP i)) s.minpq center).1) } }

/-- The intervals that the minimum pulse suppresses or fills in the period that starts (R251). DEDUCED (log 142). -/
def State.carrierSupp (s : State) : Nat :=
  let own (i : Nat) : Bool := !(i == 1 && s.on R.PWM_CCFG_COMPA) && !(i == 3 && s.on R.PWM_CCFG_COMPB)
  ((List.range 4).filter (fun i => s.bit R.PWM_CCFG_OEN i && own i &&
    (carrierEff (max 1 (s.get R.PWM_CPER_CPER)) (s.get (R.PWM_CCMP_CMP i)) s.minpq (s.on R.PWM_CCFG_CENTER)).2)).length

/-- A carrier period starts: its values are read, the suppressed intervals are counted, and the outputs follow
(R251, R252). DEDUCED (log 142). -/
def State.carrierBegin (s : State) : State :=
  let n := s.carrierSupp
  let s := s.carrierRead
  (if n = 0 then s else (s.addSat R.PWM_SCNT_SUPP n).raiseFlt 0x14 Flt.PWM_SUPP).carrierDrive

/-- The time in ns until the counter has come to `place` in its period; none where it is past. -/
def State.carrierWait (s : State) (place : Nat) : Nat := (place - s.pwm.phase + 3) / 4

/-- The counter comes to the end of its period, by itself, and the next begins (R250). -/
def State.carrierStart (s : State) : State :=
  if !s.carrierRuns then s
  else
    let s := if s.pwm.phase = 0 && !s.pwm.begun then s else s.elapse (s.carrierWait s.pwm.period)
    ({ s with pwm := { s.pwm with begun := s.pwm.phase == 0 } } : State).carrierBegin

/-- CARRIER_PERIOD_START (R252). -/
def execCarrierPeriodStart (s : State) : Host.Outcome State Fault Refusal := .next (live s s.carrierStart)

/-- The counter comes to the compare of output `n`: counting up the output goes low, counting down in centred
mode it goes high again (R250). -/
def State.carrierMeet (s : State) (n : Nat) : State :=
  let c := nth s.pwm.ccmp n 0
  let per := max 1 s.pwm.cper
  let second := bitOf s.pwm.met n
  if !s.carrierRuns || c == 0 || decide (per ≤ c) || (second && !s.pwm.center) then s
  else
    let s := s.elapse (s.carrierWait (if second then 2 * per - c else c))
    ({ s with pwm := { s.pwm with met := setBitN s.pwm.met n } } : State).carrierDrive

/-- CARRIER_COMPARE (R250). -/
def execCarrierCompare (n : Fin 4) (s : State) : Host.Outcome State Fault Refusal := .next (live s (s.carrierMeet n))

/-- PWM.CMD.CCLR. -/
def State.pwmClear (s : State) : State := s.zero [R.PWM_SCNT_SUPP, R.PWM_SCNT_MPV]

/-- PWM_COUNTER_CLEAR (R266). -/
def execPwmCounterClear (s : State) : Host.Outcome State Fault Refusal := .next (live s (s.cmd 0x14 s.pwmClear))

/-- PWM.CTL.EN set: outputs driven with all gates off in Strike mode, every output disabled at counter 0 in
carrier mode; a gate fault that stands and a debug halt keep them in high impedance (R245, R249, R442).
DEDUCED (log 141). -/
def State.pwmEnable (s : State) : State :=
  let s := s.carrierRead
  let s : State := { s with pwm := { s.pwm with phase := 0, oen := 0, begun := false, wait := false } }
  s.when s.canDrive s.gatesOff

/-- A commit of PWM.DT: a value outside its range, or MINP below DT, keeps both fields in force (R240). -/
def pwmDtOk (dt minp : Nat) : Bool :=
  decide (20 ≤ dt ∧ dt ≤ 5000 ∧ 50 ≤ minp ∧ minp ≤ 10000 ∧ dt ≤ minp)

end Sys2Proof.Machine
end

