-- ==== Sys2Proof/Machine/Adc.lean ====
section
/-! DEFINITION. The analogue converters: Strike conversions, correction, VCAP and the keys of a cell,
calibration, offset tracking, the sequencer and the limit comparators (R124, R253 to R265, R267). -/

namespace Sys2Proof.Machine

/-- ADC0 gain or ADC1 gain (R257). -/
def State.calg (s : State) (c : Nat) : Nat := if c = 0 then s.get R.ADC_CALG_G0 else s.get R.ADC_CALG_G1
/-- ADC0 or ADC1 zero code, signed. -/
def State.calo (s : State) (c : Nat) : Int := if c = 0 then s.getS R.ADC_CALO_O0 else s.getS R.ADC_CALO_O1

/-- The corrected code of a conversion (R257). -/
def adcCorrect (g : Nat) (o : Int) (raw : Nat) : Nat := satUns 16 (rhe (((raw : Int) - o) * g) 15)

/-- The corrected code of a conversion of converter `c` with the factors in force. -/
def State.corr (s : State) (c raw : Nat) : Nat := adcCorrect (s.calg c) (s.calo c) raw

/-- The time of one conversion in ns (R253, R264). -/
def State.convNs (s : State) : Nat := if s.on R.ADC_CFG_LP then 2000 else 200

/-- The pull in effect on input AINi: 1 up, 2 down, 0 none; 11 selects neither, and none acts on a Strike input while
STREN = 1 (R262). DEDUCED (log 256). -/
def State.pullOf (s : State) (i : Nat) : Nat :=
  let v := bitsOf (s.get R.ADC_OW_OWi) (2 * i) 2
  if s.on R.ADC_CFG_STREN && (i == s.get R.ADC_CFG_STRIN0 || i == 8 + s.get R.ADC_CFG_STRIN1) then 0
  else if v = 3 then 0 else v

/-! ### Limit comparators -/

/-- Comparator `k` checks a corrected conversion of its input: whether it acts, with its ACT (R263). -/
def State.limCheck (s : State) (c i code k : Nat) : State × Option Nat :=
  if !s.on (R.ADC_LIMCFG_EN k) || s.get (R.ADC_LIMCFG_CONV k) != c || s.get (R.ADC_LIMCFG_INPUT k) != i then
    (s, Option.none)
  else
    let out := decide (s.get (R.ADC_LIM_HI k) < code ∨ code < s.get (R.ADC_LIM_LO k))
    let n := if out then nth s.adc.run k 0 + 1 else 0
    let due := out && decide (s.get (R.ADC_LIMCFG_PERS k) < n)
    let first := due && !nth s.adc.acted k false
    ({ s with adc := { s.adc with
        run := setNth s.adc.run k n 0
        beyond := setNth s.adc.beyond k out false
        acted := setNth s.adc.acted k (out && (nth s.adc.acted k false || due)) false } },
      if first then some (s.get (R.ADC_LIMCFG_ACT k)) else Option.none)

/-- What the comparators that act on one conversion do, `acts` being their ACT: each source has one event (R263, R331). -/
def State.limAct (s : State) (acts : List Nat) : State :=
  if acts = [] then s
  else
    let s := if acts.contains 1 || acts.contains 2 then s.fcuEvent 0x0B else s
    let s := s.raiseFlt 0x15 Flt.ADC_LIM
    if acts.contains 2 then s.setByp 2 true else s

/-- The four comparators check a corrected conversion of input `i` of converter `c`. -/
def State.limits (s : State) (c i code : Nat) : State :=
  let r := (List.range 4).foldl (fun (x : State × List Nat) k =>
    let y := x.1.limCheck c i code k
    (y.1, x.2 ++ y.2.toList)) (s, [])
  r.1.limAct r.2

/-! ### Strike conversions and keys -/

/-- The normalised voltage of R124. -/
def keyVn (vcap vnom : Nat) : Nat := min 0xFFFF ((vcap * 2 ^ 15 + vnom / 2) / vnom)

/-- The charge key or the discharge key of R124: `neg` takes the deviation with a minus sign. -/
def keyOf (neg : Bool) (vcap vnom stick age : Nat) (ins : Bool) : Nat :=
  let d : Int := (keyVn vcap vnom : Int) - 0x8000
  let b : Int := if ins then ((64 * stick : Nat) : Int) else 0
  let a : Int := ((64 * age : Nat) : Int)
  (0x800000 + (if neg then -(128 * d) else 128 * d) + b - a).toNat

/-- The cell computes both keys from the VCAP sample of the Strike (R124, R258). -/
def State.formKeys (s : State) (corr : Nat) : State :=
  let v := satUns 16 (rhe ((corr * s.get R.ADC_VSCL_SCALE : Nat) : Int) 16)
  let k (neg : Bool) := keyOf neg v (s.get R.PWM_KNOM_VNOM) (s.get R.PWM_KWGT_STICK) (s.get R.PWM_KWGT_AGE) s.cell.ins
  let s : State := { s with cell := { s.cell with vcap := v, vcapOk := true } }
  (s.put R.PWM_KCH_KEY (k true)).put R.PWM_KDIS_KEY (k false)

/-- Whether the Strike samples are valid (R256). -/
def State.strikeValid (s : State) : Bool :=
  s.on R.ADC_CFG_STREN && !s.on R.ADC_CSTA_CALBUSY && !(s.on R.ADC_CFG_LP && s.isK)

/-- A converter is busy with the Strike conversion (R254). DEDUCED (log 144). -/
def State.strikeBusy (s : State) : Bool := s.on R.ADC_CFG_STREN && decide (s.tickNs < s.convNs)

/-! ### Calibration and offset tracking -/

/-- The factors of one converter lie in range (R259). -/
def calInRange (g o : Nat) : Bool := decide (0x7000 ≤ g ∧ g ≤ 0x9000 ∧ 0x100 ≤ o ∧ o ≤ 0x800)

/-- The end of a calibration (R259). -/
def State.calDone (s : State) (g0 o0 g1 o1 : Nat) : State :=
  if !s.en 0x15 || !s.on R.ADC_CSTA_CALBUSY then s
  else
    let s := s.put R.ADC_CSTA_CALBUSY 0
    if calInRange g0 o0 && calInRange g1 o1 then
      let s := ((s.put R.ADC_CALG_G0 g0).put R.ADC_CALG_G1 g1).put R.ADC_CALO_O0 o0
      (s.put R.ADC_CALO_O1 o1).put R.ADC_CSTA_CALOK 1
    else (s.put R.ADC_CSTA_CALOK 0).raiseFlt 0x15 Flt.ADC_CALF

/-- CALIBRATION_DONE (R259). -/
def execCalibrationDone (g0 o0 g1 o1 : BitVec 16) (s : State) : Host.Outcome State Fault Refusal :=
  .next (live s (s.calDone g0.toNat o0.toNat g1.toNat o1.toNat))

/-- An enabled entry of converter `c` falls due in the next `n` ns. -/
def State.seqDueWithin (s : State) (c n : Nat) : Bool :=
  (List.range 16).any (fun e => s.on (R.ADC_SEQ_EN c e) &&
    decide (s.tickNs ≤ s.get (R.ADC_SEQ_OFS c e) * 10 ∧ s.get (R.ADC_SEQ_OFS c e) * 10 < s.tickNs + n))

/-- A conversion of the internal zero input with raw code `z`: CALO moves one step toward it from the next
Strike on; a conversion that finds no interval waits and is counted (R260). -/
def State.trackOffset (s : State) (c z : Nat) : State :=
  let due := s.en 0x15 && s.on R.ADC_CFG_OTRK && !s.on R.ADC_CSTA_CALBUSY &&
    decide (max 1 (s.get R.ADC_CFG_OTINT) ≤ nth s.adc.since c 0)
  if !due then s
  else if s.strikeBusy || nth s.adc.conv c Option.none != Option.none || s.seqDueWithin c s.convNs ||
      decide (s.tp < s.tickNs + s.convNs + 50) then s.incSat R.ADC_SCNT_OTW
  else
    let o := s.calo c
    let n : Int := if (z : Int) > o then o + 1 else if (z : Int) < o then o - 1 else o
    let s := s.elapse s.convNs
    { s with adc := { s.adc with
      newO := setNth s.adc.newO c (some (ofSigned 16 n)) Option.none, since := setNth s.adc.since c 0 0 } }

/-- OFFSET_TRACKING_CONVERSION (R260). -/
def execOffsetTrackingConversion (c : Fin 2) (z : BitVec 16) (s : State) : Host.Outcome State Fault Refusal :=
  .next (live s (s.trackOffset c z.toNat))

/-- The new zero codes apply at the Strike, and the ticks since the last tracking are counted (R260). -/
def State.adcStrike (s : State) : State :=
  let f (c : Nat) (r : Fld) (x : State) : State :=
    match nth x.adc.newO c Option.none with
    | Option.none => x
    | some v => x.put r v
  let s := f 1 R.ADC_CALO_O1 (f 0 R.ADC_CALO_O0 s)
  { s with
    adc := { s.adc with newO := [Option.none, Option.none], since := s.adc.since.map (fun n => n + 1) }
    cell := { s.cell with vcapOk := false } }

/-! ### The sequencer -/

/-- Conversions of an entry, as a power of two; above 4 acts as 4 (R267). -/
def State.seqAvg (s : State) (c e : Nat) : Nat := min 4 (s.get (R.ADC_SEQ_AVG c e))

/-- The time an entry takes in ns. -/
def State.seqNs (s : State) (c e : Nat) : Nat := 2 ^ s.seqAvg c e * s.convNs

/-- An entry is skipped (R261). -/
def State.seqSkip (s : State) (c e : Nat) : State :=
  (((s.put (R.ADC_RES_VALID c e) 0).put (R.ADC_RES_SKIP c e) 1).incSat R.ADC_SCNT_SKIP).raiseFlt 0x15 Flt.ADC_SEQ

/-- ADC.CMD.CAL: refused while STREN = 1 or while a calibration runs; else no other conversion is made, and entries under way
or waiting are skipped (R259). DEDUCED (log 144). -/
def State.calibrate (s : State) : State :=
  if !s.en 0x15 then s
  else if s.on R.ADC_CFG_STREN || s.on R.ADC_CSTA_CALBUSY then s.put R.ADC_CSTA_CALREF 1
  else
    let due (c : Nat) : List Nat := (nth s.adc.conv c Option.none).toList ++ nth s.adc.waiting c []
    let t := forUpTo 2 (fun c x => forEach (due c) (fun e y => y.seqSkip c e) x) s
    ({ t with adc := { t.adc with conv := [Option.none, Option.none], waiting := [[], []] } } : State).put R.ADC_CSTA_CALBUSY 1

/-- CALIBRATE (R259). -/
def execCalibrate (s : State) : Host.Outcome State Fault Refusal := .next (live s (s.cmd 0x15 s.calibrate))

/-- An entry starts on its free converter at the instant `t`, or at its own where that is later, unless its last conversion
would end later than TP - 50 ns. -/
def State.seqStart (s : State) (c e t : Nat) : State :=
  let t := max t (s.get (R.ADC_SEQ_OFS c e) * 10)
  if s.tp < t + s.seqNs c e + 50 then s.seqSkip c e
  else { s with adc := { s.adc with
    conv := setNth s.adc.conv c (some e) Option.none, convAt := setNth s.adc.convAt c t 0 } }

/-- The waiting entry that starts next: the earliest OFS, the lower number on equal OFS (R261). -/
def State.seqPick (s : State) (c : Nat) : List Nat → Option Nat
  | [] => Option.none
  | e :: t =>
    match State.seqPick s c t with
    | Option.none => some e
    | some f =>
      let oe := s.get (R.ADC_SEQ_OFS c e)
      let f' := s.get (R.ADC_SEQ_OFS c f)
      if oe < f' ∨ (oe = f' ∧ e < f) then some e else some f

/-- The converter, free from the instant `t` on, takes its waiting entries in order until one starts. -/
def State.seqNext (s : State) (c t : Nat) : Nat → State
  | 0 => s
  | n + 1 =>
    let w := nth s.adc.waiting c []
    match s.seqPick c w with
    | Option.none => s
    | some e =>
      let s : State := { s with adc := { s.adc with waiting := setNth s.adc.waiting c (w.filter (fun x => x != e)) [] } }
      let s := s.seqStart c e t
      if nth s.adc.conv c Option.none = Option.none then State.seqNext s c t n else s

/-- Entries that are not made in the tick that ends have a result neither written nor skipped in it (R267).
DEDUCED (log 144). -/
def State.seqIdle (s : State) : State :=
  forUpTo 2 (fun c x => forUpTo 16 (fun e y =>
    if s.en 0x15 && s.on (R.ADC_SEQ_EN c e) then y else y.zero [R.ADC_RES_VALID c e, R.ADC_RES_SKIP c e]) x) s

/-- An enabled entry falls due (R261): it waits while its converter is busy, and during a calibration it is skipped
(R259). -/
def State.seqDue (s : State) (c e : Nat) : State :=
  if !s.en 0x15 || !s.lock || !s.on (R.ADC_SEQ_EN c e) then s
  else
    let s := s.toInstant (s.get (R.ADC_SEQ_OFS c e) * 10)
    if s.on R.ADC_CSTA_CALBUSY then s.seqSkip c e
    else if s.strikeBusy = false ∧ nth s.adc.conv c Option.none = Option.none then s.seqStart c e s.tickNs
    else { s with adc := { s.adc with waiting := setNth s.adc.waiting c (nth s.adc.waiting c [] ++ [e]) [] } }

/-- SEQUENCER_ENTRY_DUE (R261). -/
def execSequencerEntryDue (c : Fin 2) (e : Fin 16) (s : State) : Host.Outcome State Fault Refusal :=
  .next (live s (s.seqDue c e))

/-- The conversions of the entry under way are done, at the end of their time from its start: each is corrected and compared, their mean is written,
and the next waiting entry starts (R261, R263). -/
def State.seqDone (s : State) (c e : Nat) (raws : List Nat) : State :=
  if s.on R.ADC_CSTA_CALBUSY || nth s.adc.conv c Option.none != some e || raws.length != 2 ^ s.seqAvg c e then s
  else
    let t := nth s.adc.convAt c 0 + s.seqNs c e
    let s := s.toInstant t
    let codes := raws.map (fun r => s.corr c r)
    let i := s.get (R.ADC_SEQ_INPUT c e)
    let s := forEach codes (fun v x => x.limits c i v) s
    let r := rhe ((codes.foldl (fun a b => a + b) 0 : Nat) : Int) (s.seqAvg c e)
    let s := ((s.put (R.ADC_RES_CODE c e) r.toNat).put (R.ADC_RES_VALID c e) 1).put (R.ADC_RES_SKIP c e) 0
    let s : State := { s with adc := { s.adc with conv := setNth s.adc.conv c Option.none Option.none } }
    s.seqNext c t 16

/-- SEQUENCER_CONVERSION_DONE (R261). -/
def execSequencerConversionDone (c : Fin 2) (e : Fin 16) (raws : List (BitVec 16)) (s : State) :
    Host.Outcome State Fault Refusal :=
  .next (live s (s.seqDone c e (raws.map BitVec.toNat)))

/-- A converter without an entry under way takes the next that waits when the Strike conversion is over. DEDUCED (log 144). -/
def State.seqFree (s : State) (c : Nat) : State :=
  if nth s.adc.conv c Option.none = Option.none ∧ s.on R.ADC_CSTA_CALBUSY = false then s.seqNext c s.convNs 16 else s

/-! ### The end of the Strike conversions -/

/-- Both Strike conversions complete: ADC.STRK is updated, comparators check the samples, and a cell forms
its keys (R255, R256, R263); the converters then take the entries that waited (R261). -/
def State.strikeConv (s : State) (raw0 raw1 : Nat) : State :=
  if !s.en 0x15 || !s.lock then s
  else
    let s := s.toInstant s.convNs
    let ok := s.strikeValid
    let c0 := if ok then s.corr 0 raw0 else 0
    let c1 := if ok then s.corr 1 raw1 else 0
    let s := ((s.put R.ADC_STRK_CODE0 c0).put R.ADC_STRK_CODE1 c1).put R.ADC_STRK_TICK s.tick16
    let s := (s.putB R.ADC_STRK_VALID0 ok).putB R.ADC_STRK_VALID1 ok
    let s := s.raiseIf (!ok && s.on R.ADC_CFG_STREN) 0x15 Flt.ADC_SMISS
    let s := if !ok then { s with cell := { s.cell with vcapOk := false } }
      else
        let s := if s.isK then s.formKeys c0 else s
        (s.limits 0 (s.get R.ADC_CFG_STRIN0) c0).limits 1 (s.get R.ADC_CFG_STRIN1) c1
    (s.seqFree 0).seqFree 1

/-- ADC_STRIKE_CONVERSION_DONE (R255). -/
def execAdcStrikeConversionDone (raw0 raw1 : BitVec 16) (s : State) : Host.Outcome State Fault Refusal :=
  .next (live s (s.strikeConv raw0.toNat raw1.toNat))

/-- ADC.CMD.CCLR. -/
def State.adcClear (s : State) : State := s.zero [R.ADC_SCNT_OTW, R.ADC_SCNT_SKIP]

/-- ADC_COUNTER_CLEAR (R267). -/
def execAdcCounterClear (s : State) : Host.Outcome State Fault Refusal := .next (live s (s.cmd 0x15 s.adcClear))

end Sys2Proof.Machine
end

