-- ==== Sys2Proof/Machine/Pcs.lean ====
section
/-! DEFINITION. The lane from the electrical symbol to the 66-bit block: PAM4 symbols, precoding, the
transmit filter's limits, block types, the scrambler and the blocks of a frame (R60 to R68). -/

namespace Sys2Proof.Machine

/-- The Gray value of two bits b1 b0, given as 2 b1 + b0 (R61). -/
def grayOf (b : Nat) : Nat :=
  match b % 4 with
  | 0 => 0
  | 1 => 1
  | 3 => 2
  | _ => 3

/-- The two bits of a Gray value (R61). -/
def bitsOfGray (g : Nat) : Nat :=
  match g % 4 with
  | 0 => 0
  | 1 => 1
  | 2 => 3
  | _ => 2

/-- The nominal level of a level index (R61). -/
def levelOf (p : Nat) : Int := 2 * (p % 4 : Nat) - 3

/-- The level indices the transmitter sends for Gray values, after the index `p` (R62). -/
def precode (p : Nat) : List Nat → List Nat
  | [] => []
  | g :: t => let q := (g + 4 - p % 4) % 4; q :: precode q t

/-- The Gray values the receiver recovers from level indices, after the index `p` (R62). -/
def unprecode (p : Nat) : List Nat → List Nat
  | [] => []
  | q :: t => (q + p) % 4 :: unprecode q t

/-- The swing limit and the eye limit of the transmit filter (R64). DEDUCED (log 253). -/
def tapsOk (pre main post : Nat) : Bool :=
  decide (pre + main + post ≤ 32 ∧ 16 + pre + post ≤ 32 + main)

/-- The block types of R67. -/
def blockTypeOk (t : Nat) : Bool :=
  [0x1E, 0x2D, 0x78, 0x4B, 0x87, 0x99, 0xAA, 0xB4, 0xCC, 0xD2, 0xE1, 0xFF].contains t

/-- The type of a Terminate block that carries `n` frame bytes (R67). -/
def terminateType (n : Nat) : Nat := nth [0x87, 0x99, 0xAA, 0xB4, 0xCC, 0xD2, 0xE1, 0xFF] n 0

/-- A block: whether it is a control block, and its eight payload bytes (R66). -/
structure Block where
  ctl : Bool
  pay : List Byte
  deriving DecidableEq, Repr

/-- The Leap block of a transmitter: RF and PREC of its lane (R67). -/
def leapBlock (rf prec : Bool) : Block :=
  ⟨true, [0x1E, BitVec.ofNat 8 (128 * b2n rf + 64 * b2n prec)] ++ zeros 6⟩

/-- The Abort block (R67). -/
def abortBlock : Block := ⟨true, 0x4B :: zeros 7⟩

/-- The data blocks and the Terminate block of the frame bytes after the Start block (R67). -/
def tailBlocks : Nat → List Byte → List Block
  | 0, l => [⟨true, BitVec.ofNat 8 (terminateType l.length) :: padTo 7 l⟩]
  | k + 1, l =>
    if l.length < 8 then [⟨true, BitVec.ofNat 8 (terminateType l.length) :: padTo 7 l⟩]
    else ⟨false, l.take 8⟩ :: tailBlocks k (l.drop 8)

/-- The blocks of a frame: one Start, the data blocks, one Terminate (R67). -/
def frameBlocks (f : List Byte) : List Block :=
  ⟨true, 0x78 :: padTo 7 (f.take 7)⟩ :: tailBlocks (f.length / 8) (f.drop 7)

/-- One payload bit through the scrambler 1 + x^39 + x^58, given the last 58 scrambled bits, newest in
bit 0: the scrambled bit and the new history (R66). -/
def scrambleBit (h : Nat) (b : Bool) : Bool × Nat :=
  let o := b != (bitOf h 38 != bitOf h 57)
  (o, (2 * h + b2n o) % 2 ^ 58)

/-- Payload bits scrambled in transmission order. -/
def scramble (h : Nat) : List Bool → List Bool
  | [] => []
  | b :: t => (scrambleBit h b).1 :: scramble (scrambleBit h b).2 t

/-- Scrambled bits recovered by the self-synchronising receiver, given its last 58 received bits. -/
def unscramble (h : Nat) : List Bool → List Bool
  | [] => []
  | o :: t => (o != (bitOf h 38 != bitOf h 57)) :: unscramble ((2 * h + b2n o) % 2 ^ 58) t

/-! ### From blocks to symbols and back (R61, R62, R66) -/

/-- The bits of a byte in transmission order, most significant first (R66). -/
def byteBits (b : Byte) : List Bool := (List.range 8).map (fun i => bitOf b.toNat (7 - i))

/-- The byte that eight bits spell, most significant first. -/
def bitsByte (l : List Bool) : Byte := BitVec.ofNat 8 (l.foldl (fun a b => 2 * a + b2n b) 0)

/-- The sync header: 10 for a control block, 01 for a data block (R66). -/
def Block.header (b : Block) : List Bool := if b.ctl then [true, false] else [false, true]

/-- The payload bits of a block, byte 0 to byte 7 (R66). -/
def Block.payBits (b : Block) : List Bool := b.pay.flatMap byteBits

/-- The scrambler's history after payload bits. -/
def scrambled (h : Nat) (l : List Bool) : Nat := l.foldl (fun h b => (scrambleBit h b).2) h

/-- The 66 bits of a block on the line: the header as it is, the payload scrambled (R66). -/
def Block.bits (h : Nat) (b : Block) : List Bool := b.header ++ scramble h b.payBits

/-- The Gray values of a bit stream, two bits each, the first of them b1 (R61). -/
def grays : List Bool → List Nat
  | a :: b :: t => grayOf (2 * b2n a + b2n b) :: grays t
  | _ => []

/-- The bit stream of Gray values. -/
def grayBits (l : List Nat) : List Bool := l.flatMap (fun g => [bitOf (bitsOfGray g) 1, bitOf (bitsOfGray g) 0])

/-- What a transmitter carries from block to block, and the level indices it has sent since (R62, R66). -/
structure Wire where
  scr : Nat
  last : Nat
  sym : List Nat
  deriving DecidableEq, Repr

/-- A block put on the line: 33 level indices, precoded or not (R61, R62). -/
def Wire.put (prec : Bool) (w : Wire) (b : Block) : Wire :=
  let g := grays (b.bits w.scr)
  let p := if prec then precode w.last g else g
  ⟨scrambled w.scr b.payBits, p.getLastD w.last, w.sym ++ p⟩

/-- Blocks put on the line in order. -/
def Wire.putAll (prec : Bool) (w : Wire) (l : List Block) : Wire := l.foldl (fun x b => x.put prec b) w

/-- `k` times the same block put on the line; of its level indices only the last block's are kept. -/
def Wire.idle (prec : Bool) (b : Block) : Nat → Wire → Wire
  | 0, w => w
  | k + 1, w => Wire.idle prec b k ((⟨w.scr, w.last, []⟩ : Wire).put prec b)

/-- The block a receiver reads from 33 level indices, given its last 58 received payload bits and the last index; none with
an invalid sync header (R61, R62, R66, R68). -/
def readBlock (prec : Bool) (h p : Nat) (sym : List Nat) : Option Block :=
  let b := grayBits (if prec then unprecode p sym else sym)
  let pay := unscramble h (b.drop 2)
  let bytes := (List.range 8).map (fun i => bitsByte ((pay.drop (8 * i)).take 8))
  match b.take 2 with
  | [true, false] => some ⟨true, bytes⟩
  | [false, true] => some ⟨false, bytes⟩
  | _ => Option.none

/-- What a receiver carries from block to block: the last 58 payload bits as received, the newest in bit 0, and the last level
index (R62, R66). -/
structure RxWire where
  scr : Nat
  last : Nat
  deriving DecidableEq, Repr

/-- The receiver after the 33 level indices of a block. -/
def RxWire.after (prec : Bool) (w : RxWire) (sym : List Nat) : RxWire :=
  let b := grayBits (if prec then unprecode w.last sym else sym)
  ⟨(b.drop 2).foldl (fun h x => (2 * h + b2n x) % 2 ^ 58) w.scr, sym.getLastD w.last⟩

/-- The last block that a receiver reads from the level indices of `k + 1` blocks, and the receiver after it. -/
def RxWire.read (prec : Bool) : Nat → RxWire → List Nat → Option Block × RxWire
  | 0, w, l => (readBlock prec w.scr w.last (l.take 33), w.after prec (l.take 33))
  | k + 1, w, l => RxWire.read prec k (w.after prec (l.take 33)) (l.drop 33)

/-- How a receiver takes a block, given its sync header, its type and whether it comes inside a frame (R68). -/
inductive BlockKind where
  /-- Invalid: sync header 00 or 11, an unknown type, or data between frames. -/
  | invalid
  /-- A Start inside a frame. -/
  | restart
  | valid
  deriving DecidableEq, Repr

/-- The kind of a received block; none is one with an invalid sync header (R68). -/
def blockKind (b : Option Block) (inFrame : Bool) : BlockKind :=
  match b with
  | Option.none => .invalid
  | some ⟨true, pay⟩ =>
    let ty := (pay.headD 0).toNat
    if blockTypeOk ty then (if inFrame && ty == 0x78 then .restart else .valid) else .invalid
  | some ⟨false, _⟩ => if inFrame then .valid else .invalid

/-! ### The Train block (R76) -/

/-- The fields of a Train block. -/
structure TrainBlock where
  reqPre : Nat
  reqMain : Nat
  reqPost : Nat
  preset : Bool
  stPre : Nat
  stMain : Nat
  stPost : Nat
  rrdy : Bool
  precReq : Bool
  precAck : Bool
  countdown : Nat
  role : Nat
  lane : Nat
  deriving DecidableEq, Repr

/-- Payload bytes 1 to 7 of a Train block. -/
def TrainBlock.bytes (b : TrainBlock) : List Byte :=
  bytesBE 1 (64 * (b.reqPre % 4) + 16 * (b.reqMain % 4) + 4 * (b.reqPost % 4) + 2 * b2n b.preset) ++
    bytesBE 1 (64 * (b.stPre % 4) + 16 * (b.stMain % 4) + 4 * (b.stPost % 4) + 2 * b2n b.rrdy) ++
    bytesBE 1 (128 * b2n b.precReq + 64 * b2n b.precAck) ++ bytesBE 1 b.countdown ++
    bytesBE 1 (64 * (b.role % 4) + b.lane % 32) ++ zeros 2

/-- The fields that payload bytes 1 to 7, byte 1 the most significant, spell. -/
def trainOf (p : BitVec 56) : TrainBlock :=
  let f (lo w : Nat) : Nat := bitsOf p.toNat lo w
  { reqPre := f 54 2, reqMain := f 52 2, reqPost := f 50 2, preset := bitOf p.toNat 49, stPre := f 46 2, stMain := f 44 2
    stPost := f 42 2, rrdy := bitOf p.toNat 41, precReq := bitOf p.toNat 39, precAck := bitOf p.toNat 38
    countdown := f 24 8, role := f 22 2, lane := f 16 5 }

/-- The block that carries the fields (R67). -/
def trainBlockOf (b : TrainBlock) : Block := ⟨true, 0x2D :: b.bytes⟩

end Sys2Proof.Machine
end

