-- ==== Sys2Proof/Machine/Azl.lean ====
section
/-! DEFINITION. The Azide Link lanes: the transmitter, the lane state machine, training, loss of signal and of lock, Leap
sites, admission and counters (R60 to R84, R438, R440). -/

namespace Sys2Proof.Machine

/-- The page of lane `n`. -/
def lanePage (n : Nat) : Nat := 0x20 + n

/-- Lane `n`. -/
def State.lane (s : State) (n : Nat) : LaneState := nth s.lanes n LaneState.init

/-- Lane `n` replaced. -/
def State.setLane (s : State) (n : Nat) (l : LaneState) : State :=
  { s with lanes := setNth s.lanes n l LaneState.init }

/-- AZL.LSTAT.STATE: 0 OFF, 1 WAKE, 2 ALIGN, 3 TRAIN, 4 VERIFY, 5 UP, 6 DOWN, 7 FAULT (R75). -/
def State.laneSt (s : State) (n : Nat) : Nat := s.get (R.AZL_LSTAT_STATE n)

/-- Lane `n` is in UP. -/
def State.laneUp (s : State) (n : Nat) : Bool := s.laneSt n == 5

/-- Lane `n` is in service. -/
def State.inSvc (s : State) (n : Nat) : Bool := s.on (R.AZL_LSTAT_INSVC n)

/-- The transmitter of lane `n` is in electrical idle: in OFF, and in every state with TXOFF (R75, R84). What is handed to it
then does not reach the wire. DESIGN CHOICE (log 58). -/
def State.txIdle (s : State) (n : Nat) : Bool := s.laneSt n == 0 || s.on (R.AZL_LCTL_TXOFF n)

/-- The Leap block that the transmitter of lane `n` sends: RF unless the lane is in UP, and its precoding (R67, R75). -/
def State.leapSent (s : State) (n : Nat) : Block := leapBlock (!s.laneUp n) (s.on (R.AZL_LSTAT_TXPREC n))

/-! ### The transmitter -/

/-- FCU.TIME in units of 10 ps, of which a block lasts 256 (R60). -/
def State.now10 (s : State) : Nat := 100 * s.fcu.timeNs

/-- The transmitter of lane `n` is sending a frame (R122). -/
def State.busy (s : State) (n : Nat) : Bool :=
  match (s.lane n).tx with
  | some t => decide (s.now10 < t.stop)
  | Option.none => false

/-- Blocks put on the line after a scrambler history and a level index, with the precoding in force. -/
def State.wire (s : State) (n scr last : Nat) (l : List Block) : Wire :=
  Wire.putAll (s.on (R.AZL_LSTAT_TXPREC n)) ⟨scr, last, []⟩ l

/-- Blocks put on the line of lane `n` up to now; an idle transmitter puts none. -/
def State.putLine (s : State) (n : Nat) (b : List Block) : State :=
  let l := s.lane n
  let w := s.wire n l.scr l.last b
  s.when (!s.txIdle n) (s.setLane n { l with scr := w.scr, last := w.last, line := w.sym, lineEnd := s.now10 })

/-- `k` Leap blocks put on the line after a scrambler history and a level index (R69). -/
def State.leaps (s : State) (n scr last k : Nat) : Wire :=
  Wire.idle (s.on (R.AZL_LSTAT_TXPREC n)) (s.leapSent n) k ⟨scr, last, []⟩

/-- What the transmitter of lane `n` has put on the line up to now beside frames: Leap blocks, one after the other; none in
electrical idle, and in TRAIN the Train blocks, which are put one by one (R69, R75). DESIGN CHOICE (log 13). -/
def State.idleTo (s : State) (n : Nat) : State :=
  let l := s.lane n
  if s.txIdle n || (s.laneSt n == 3 && l.count != 0) then s.setLane n { l with lineEnd := max l.lineEnd s.now10 }
  else
    let k := (s.now10 - l.lineEnd) / 256
    let w := s.leaps n l.scr l.last k
    s.setLane n { l with
      scr := w.scr, last := w.last, line := if k = 0 then l.line else w.sym, lineEnd := l.lineEnd + 256 * k }

/-- The Leap blocks between the frame last sent and the next one: two before a frame of this node's own and after an
appended one, one before a relayed frame (R69, R95). DESIGN CHOICE (log 13). -/
def State.gapOf (s : State) (n : Nat) (own : Bool) : Nat := if own || (s.lane n).txTwo then 2 else 1

/-- The first bit of the Start of a frame that may begin from `t0` on. -/
def State.startAt (s : State) (n : Nat) (own : Bool) (t0 : Nat) : Nat := max t0 ((s.lane n).txStop + 256 * s.gapOf n own)

/-- A transmitter that is not sending begins a frame, not before `t0`: the Leap blocks up to it, Start, data and Terminate,
which does not end before `whole` (R67, R69, R97). DESIGN CHOICE (log 13, 58). -/
def State.startTx (s : State) (n : Nat) (src : Option Nat) (app own : Bool) (t0 whole : Nat) (f : Frame) : State :=
  let l := s.lane n
  let b := frameBlocks f
  let t := s.startAt n own t0
  let z := max (t + 256 * b.length) whole
  let w := Wire.putAll (s.on (R.AZL_LSTAT_TXPREC n)) (s.leaps n l.scr l.last ((t - l.lineEnd) / 256)) b
  (s.setLane n { l with
    tx := some ⟨f, bitsOf (natBE (slice f 1 1)) 6 2, t, z, src, app, l.lineEnd, l.txStop, l.txTwo, l.scr, l.last⟩
    txStop := z, txTwo := app, scr := w.scr, last := w.last, line := w.sym, lineEnd := z }).send n f

/-- The blocks of a frame that its transmitter has begun. -/
def TxNow.begun (t : TxNow) (now : Nat) : Nat := if now < t.start then 0 else (now - t.start) / 256 + 1

/-- The frame still has a block to begin. -/
def TxNow.midway (t : TxNow) (now : Nat) : Bool := decide (now + 256 < t.stop)

/-- The frame bytes in the first `k` blocks of a frame (R67). -/
def blockBytes (k : Nat) : Nat := if k = 0 then 0 else 8 * k - 1

/-- The last frame put on lane `n` ends after `k` bytes; with none it was not begun. -/
def cutOut (n k : Nat) : List Sent → List Sent
  | [] => []
  | x :: t => if x.lane = n then (if k = 0 then t else ⟨n, x.f.take k⟩ :: t) else x :: cutOut n k t

/-- A frame under way at the transmitter of lane `n` at the instant `t1`, in 10 ps, is cut off then: Abort takes the place of
its next block (R55, R67, R68). DESIGN CHOICE (log 13). -/
def State.cutTxAt (s : State) (n t1 : Nat) : State :=
  match (s.lane n).tx with
  | Option.none => s
  | some t =>
    if !t.midway t1 then s
    else
      let k := t.begun t1
      let l := s.lane n
      let w := Wire.putAll (s.on (R.AZL_LSTAT_TXPREC n)) (s.leaps n t.scr t.last ((t.start - t.lineEnd) / 256))
        ((frameBlocks t.f).take k ++ [abortBlock])
      let z := t.start + 256 * (k + 1)
      let s := s.setLane n (if k = 0 then
          { l with tx := Option.none, txStop := t.before, txTwo := t.two, scr := t.scr, last := t.last, line := [],
                   lineEnd := t.lineEnd }
        else { l with tx := Option.none, txStop := z, scr := w.scr, last := w.last, line := w.sym, lineEnd := z })
      { s with out := cutOut n (blockBytes k) s.out }

/-- A frame under way at the transmitter of lane `n` is cut off now. -/
def State.cutTx (s : State) (n : Nat) : State := s.cutTxAt n s.now10

/-- The transmitter of lane `m` is sending a frame cut-through from lane `n`. -/
def State.relaysFrom (s : State) (m n : Nat) : Bool :=
  match (s.lane m).tx with
  | some t => t.src == some n && t.midway s.now10
  | Option.none => false

/-- A frame arrives on lane `n` and is being relayed. -/
def State.arriving (s : State) (n : Nat) : Bool := (List.range 20).any (fun m => s.relaysFrom m n)

/-- Every relay of the frame arriving on lane `n` sends Abort (R68, R71). -/
def State.cutRelays (s : State) (n : Nat) : State := forUpTo 20 (fun m x => if x.relaysFrom m n then x.cutTx m else x) s

/-- A frame on a lane ends as bad; a relay of it sends Abort. AZL.FLT.ABT is to be set (R68, R84). -/
def State.frameEnds (s : State) (n : Nat) : State := (s.cutRelays n).incSat (R.AZL_ABTC_ABT n)

/-- A frame on a lane ends as bad (R68, R84). -/
def State.badFrame (s : State) (n : Nat) : State := (s.frameEnds n).raiseFlt (lanePage n) Flt.AZL_ABT

/-- The Train block that the transmitter of lane `n` sends in TRAIN (R76). -/
def State.trainSent (s : State) (n : Nat) : TrainBlock :=
  let l := s.lane n
  { reqPre := l.rqFarPre, reqMain := l.rqFarMain, reqPost := l.rqFarPost, preset := l.askPreset, stPre := l.stPre
    stMain := l.stMain, stPost := l.stPost, rrdy := l.rrdy, precReq := s.on (R.AZL_LCTL_PRECREQ n)
    precAck := l.farPrecReq && s.on (R.AZL_LCTL_PRECALLOW n), countdown := l.count
    role := s.get R.SYS_STRAP_ROLE, lane := n }

/-- What the transmitter of lane `n` sends where no frame is: nothing in electrical idle, Train blocks in TRAIN until its
countdown has reached 0, else Leap blocks (R69, R75, R78). -/
def State.idleBlock (s : State) (n : Nat) : Option Block :=
  if s.txIdle n then Option.none
  else if s.laneSt n = 3 ∧ (s.lane n).count ≠ 0 then some (trainBlockOf (s.trainSent n))
  else some (s.leapSent n)

/-! ### The state machine -/

/-- PPMTH with values outside 100 to 1,000 clamped, in 0.25 ppm (R84). -/
def State.ppmTh (s : State) (n : Nat) : Nat := 4 * min 1000 (max 100 (s.get (R.AZL_LOLCFG_PPMTH n)))

/-- SHTH with values outside 4 to 16 clamped. -/
def State.shTh (s : State) (n : Nat) : Nat := min 16 (max 4 (s.get (R.AZL_LOLCFG_SHTH n)))

/-- Entry to WAKE: the transmitter loads its settings from TXEQI and does not precode; its PLL is locked (R65, R75, R425).
DEDUCED (log 56). -/
def State.laneWake (s : State) (n : Nat) : State :=
  let s := (((s.idleTo n).put (R.AZL_TXEQ_PRE n) (s.get (R.AZL_TXEQI_PRE n))).put (R.AZL_TXEQ_MAIN n)
    (s.get (R.AZL_TXEQI_MAIN n))).put (R.AZL_TXEQ_POST n) (s.get (R.AZL_TXEQI_POST n))
  let s := ((s.put (R.AZL_LSTAT_TXPREC n) 0).put (R.AZL_LSTAT_RXPREC n) 0).put (R.AZL_LSTAT_BLKLK n) 0
  let l := s.lane n
  let s := s.setLane n { LaneState.init with
    since := s.fcu.timeNs, txStop := l.txStop, txTwo := l.txTwo, scr := l.scr, last := l.last, line := l.line
    lineEnd := l.lineEnd, rxScr := l.rxScr, rxLast := l.rxLast }
  (s.putBit R.CLK_LANELK_LK n true).put (R.AZL_LSTAT_STATE n) 1

/-- WAKE is left for ALIGN when LOS is clear and the frequency offset is within PPMTH (R75). -/
def State.laneAlign (s : State) (n : Nat) : State :=
  s.when (s.laneSt n == 1 && !s.on (R.AZL_LSTAT_LOS n) && (s.lane n).measured &&
      decide ((s.getS (R.AZL_PPM_PPM n)).natAbs ≤ s.ppmTh n))
    (s.put (R.AZL_LSTAT_STATE n) 2)

/-- A departure's new state, with the time of entry. DEDUCED (log 56). -/
def State.laneEnter (s : State) (n st : Nat) : State :=
  let s := s.idleTo n
  (s.setLane n { s.lane n with
    since := s.fcu.timeNs, byRetrain := false, whole := 0, began := false, rfRun := 0 }).put
    (R.AZL_LSTAT_STATE n) st

/-- A frame arrives on lane `n` when it goes down: one that is being relayed, or that the command tells of (R68). -/
def State.hears (s : State) (n : Nat) (inFrame : Bool) : Bool := inFrame || s.arriving n

/-- A lane in UP enters DOWN: a frame that arrives on it (`hit`) ends as bad and one it sends is cut off, it is out of
service, the agreement on precoding ends, and the cell's count of DOWN transitions advances; AZL.FLT.ABT is to be set
where `hit` (R63, R68, R82). DEDUCED (log 56, 57). -/
def State.laneDown (s : State) (n : Nat) (hit : Bool) : State :=
  let s := (if hit then s.frameEnds n else s).cutTx n
  let s := (((s.laneEnter n 6).put (R.AZL_LSTAT_INSVC n) 0).put (R.AZL_LSTAT_TXPREC n) 0).put (R.AZL_LSTAT_RXPREC n) 0
  let e := s.azf.laneEvents
  { s with azf := { s.azf with laneEvents := setNth e n (min 255 (nth e n 0 + 1)) 0 } }

/-- A lane is put in OFF: electrical idle at once, frames through it cut off, no agreement on precoding and no lock (R63,
R75). What LOS holds stays, though no detector runs. DEDUCED (log 56). DESIGN CHOICE (log 264). -/
def State.laneOff (s : State) (n : Nat) : State :=
  let s := ((s.cutRelays n).cutTx n).idleTo n
  let l := s.lane n
  let s := s.setLane n { LaneState.init with
    scr := l.scr, last := l.last, line := l.line, lineEnd := s.now10, rxScr := l.rxScr, rxLast := l.rxLast }
  let s := s.zero [R.AZL_LSTAT_STATE n, R.AZL_LSTAT_INSVC n, R.AZL_LSTAT_TXPREC n, R.AZL_LSTAT_RXPREC n,
    R.AZL_LSTAT_BLKLK n, R.AZL_LSTAT_CDRLK n, R.AZL_LSTAT_REMFLT n]
  s.putBit R.CLK_LANELK_LK n false

/-- A lane enters FAULT (R438). -/
def State.laneFail (s : State) (n : Nat) : State := (s.laneEnter n 7).raiseFlt (lanePage n) Flt.AZL_TRF

/-- LOS or loss of lock at a lane: the departure it causes, if any, recorded once with each cause; and the FLT bits to be
set (R75, R82, R83, R438). -/
def State.laneLeave (s : State) (n : Nat) (los lol inFrame : Bool) : State × List Nat :=
  let st := s.laneSt n
  if st < 2 ∨ 5 < st ∨ (los || lol) = false then (s, [])
  else
    let hit := s.hears n inFrame
    let s := if los then s.incSat (R.AZL_CNT_LOSC n) else s
    let s := if lol then (s.incSat (R.AZL_CNT_LOLC n)).hourly (fun a => { a with llol := a.llol + 1 }) else s
    let ks := chosen [(los, Flt.AZL_LOS), (lol, Flt.AZL_LOL)]
    match st with
    | 2 => (s.laneWake n, ks)
    | 5 => (s.laneDown n hit, ks ++ chosen [(hit, Flt.AZL_ABT)])
    | _ => (s.laneEnter n 7, ks ++ [Flt.AZL_TRF])

/-- FLT bits of one LANE cycle, set after what causes them (R331). -/
def State.raiseAll (p : State × List Nat) (n : Nat) : State := p.1.raiseFlts (lanePage n) p.2

/-- LOS or loss of lock at a lane, with the FLT bits set. -/
def State.laneDepart (s : State) (n : Nat) (los lol inFrame : Bool) : State :=
  State.raiseAll (s.laneLeave n los lol inFrame) n

/-- A lane command acts on a powered lane that is not in OFF. -/
def State.laneOn (s : State) (n : Nat) : Bool := s.runs (lanePage n) && s.laneSt n != 0

/-- LOSTH in mV (R84). -/
def State.losTh (s : State) (n : Nat) : Nat := 40 + 20 * s.get (R.AZL_LOSCFG_LOSTH n)

/-- LOSTH + LOSHY in mV (R80, R84). -/
def State.losOff (s : State) (n : Nat) : Nat := s.losTh n + 10 + 10 * s.get (R.AZL_LOSCFG_LOSHY n)

/-- LOSDLY in ns; 0 acts as 1 (R84). -/
def State.losDly (s : State) (n : Nat) : Nat := 40 * max 1 (s.get (R.AZL_LOSCFG_LOSDLY n))

/-- LOS_CLEAR (R80): the amplitude has stayed at or above `mv` for `ns`. -/
def execLosClear (n : Fin 20) (mv ns : Nat) (s : State) : Host.Outcome State Fault Refusal :=
  .next (live s (s.when (s.laneOn n && decide (s.losOff n ≤ mv ∧ s.losDly n ≤ ns))
    ((s.put (R.AZL_LSTAT_LOS n) 0).laneAlign n)))

/-- 64 consecutive valid sync headers: block lock, and ALIGN is left for TRAIN (R75, R81). -/
def State.blockLock (s : State) (n : Nat) : State :=
  let s := (s.put (R.AZL_LSTAT_BLKLK n) 1).setLane n { s.lane n with badHdr := [] }
  if s.laneSt n = 2 then
    let s := s.idleTo n
    (s.setLane n { s.lane n with since := s.fcu.timeNs, farRrdy := false, farCount := 255 }).put (R.AZL_LSTAT_STATE n) 3
  else s

/-- BLOCK_LOCK (R75). -/
def execBlockLock (n : Fin 20) (s : State) : Host.Outcome State Fault Refusal :=
  .next (live s (s.when (s.laneOn n && decide (2 ≤ s.laneSt n)) (s.blockLock n)))

/-- SHTH invalid sync headers within 64 blocks: block lock is lost; those not reported one by one are counted now (R81,
R84). DEDUCED (log 57). -/
def State.blockGone (s : State) (n : Nat) : State :=
  let l := s.lane n
  let s := if s.on (R.AZL_LSTAT_BLKLK n) then s.addSat (R.AZL_SHERR_SHERR n) (s.shTh n - l.badHdr.length) else s
  (s.put (R.AZL_LSTAT_BLKLK n) 0).setLane n { l with badHdr := [] }

/-- Loss of block lock at a lane, and the FLT bits to be set; ALIGN, which has none yet, is left only on LOS or loss of
frequency lock (R75). DEDUCED (log 57). -/
def State.blockLoss (s : State) (n : Nat) (inFrame : Bool) : State × List Nat :=
  let s := s.blockGone n
  s.laneLeave n false (s.laneSt n != 2) inFrame

/-- LOS asserts; lock lost in the same LANE cycle sets both FLT bits and counts in both counters at the one departure
(R80, R83). DEDUCED (log 55). -/
def State.losNow (s : State) (n : Nat) (lock : LockLoss) (inFrame : Bool) : State :=
  let s := s.put (R.AZL_LSTAT_LOS n) 1
  match lock with
  | .none => s.laneDepart n true false inFrame
  | .block => (s.blockGone n).laneDepart n true (s.laneSt n != 2) inFrame
  | .freq => (s.put (R.AZL_LSTAT_CDRLK n) 0).laneDepart n true true inFrame

/-- LOS_ASSERT (R80): the amplitude has stayed below LOSTH, at `mv`, for `ns`. DEDUCED (log 55). -/
def execLosAssert (n : Fin 20) (lock : LockLoss) (mv ns : Nat) (inFrame : Bool) (s : State) :
    Host.Outcome State Fault Refusal :=
  .next (live s (s.when (s.laneOn n && !s.on (R.AZL_LSTAT_LOS n) && decide (mv < s.losTh n ∧ s.losDly n ≤ ns))
    (s.losNow n lock inFrame)))

/-- BLOCK_LOCK_LOSS (R81). -/
def execBlockLockLoss (n : Fin 20) (inFrame : Bool) (s : State) : Host.Outcome State Fault Refusal :=
  .next (live s (s.when (s.laneOn n) (State.raiseAll (s.blockLoss n inFrame) n)))

/-- A measuring window of 4,096 blocks ends with an offset in 0.25 ppm: frequency lock is lost beyond
PPMTH and returns after two windows within PPMTH - 50 ppm (R81). -/
def State.freqWindow (s : State) (n : Nat) (ppm : Int) (inFrame : Bool) : State :=
  let l := s.lane n
  let th := s.ppmTh n
  let good := if ppm.natAbs ≤ th - 200 then l.good + 1 else 0
  let s := s.setLane n { l with measured := true, good := good }
  let s := s.putS (R.AZL_PPM_PPM n) (satSigned 16 ppm)
  if th < ppm.natAbs then (s.put (R.AZL_LSTAT_CDRLK n) 0).laneDepart n false true inFrame
  else
    let s := if 2 ≤ good then s.put (R.AZL_LSTAT_CDRLK n) 1 else s
    s.laneAlign n

/-- FREQUENCY_WINDOW (R81). -/
def execFrequencyWindow (n : Fin 20) (ppm : Int) (inFrame : Bool) (s : State) : Host.Outcome State Fault Refusal :=
  .next (live s (s.when (s.laneOn n) (s.freqWindow n ppm inFrame)))

/-! ### Training -/

/-- A tap request applied once under the limits of R64: the new settings and the status it reports.
DESIGN CHOICE (log 60). -/
def tapStep (req pre main post tap : Nat) : (Nat × Nat × Nat) × Nat :=
  let up (x : Nat) : Nat := x + 1
  let f (g : Nat → Nat) : Nat × Nat × Nat :=
    match tap with
    | 0 => (g pre, main, post)
    | 1 => (pre, g main, post)
    | _ => (pre, main, g post)
  let cur := match tap with
    | 0 => pre
    | 1 => main
    | _ => post
  match req with
  | 1 =>
    let t := f up
    if cur < 31 ∧ tapsOk t.1 t.2.1 t.2.2 = true then (t, 1) else ((pre, main, post), 3)
  | 2 =>
    let t := f (fun x => x - 1)
    if 0 < cur ∧ tapsOk t.1 t.2.1 t.2.2 = true then (t, 1) else ((pre, main, post), 2)
  | _ => ((pre, main, post), 0)

/-- A request as it acts: 11 is treated as hold (R76). -/
def reqOf (r : Nat) : Nat := if r = 3 then 0 else r

/-- The handshake of one tap: a request is applied once, and the status returns to "not updated" at hold
(R77). Answers the settings, the status and the request it reports on. DESIGN CHOICE (log 60). -/
def tapShake (req old st pre main post tap : Nat) : (Nat × Nat × Nat) × Nat × Nat :=
  if req = 0 then ((pre, main, post), 0, 0)
  else if st ≠ 0 ∧ old = req then ((pre, main, post), st, req)
  else if st ≠ 0 then ((pre, main, post), st, old)
  else
    let r := tapStep req pre main post tap
    (r.1, r.2, req)

/-- The settings in force after the requests of a Train block; PRESET takes precedence (R77).
DESIGN CHOICE (log 60). -/
def State.trainTaps (s : State) (n : Nat) (b : TrainBlock) : State :=
  let put3 (x : State) (t : Nat × Nat × Nat) : State :=
    ((x.put (R.AZL_TXEQ_PRE n) t.1).put (R.AZL_TXEQ_MAIN n) t.2.1).put (R.AZL_TXEQ_POST n) t.2.2
  if b.preset then
    put3 s (s.get (R.AZL_TXEQI_PRE n), s.get (R.AZL_TXEQI_MAIN n), s.get (R.AZL_TXEQI_POST n))
  else
    let l := s.lane n
    let a := tapShake (reqOf b.reqPre) l.rqPre l.stPre (s.get (R.AZL_TXEQ_PRE n)) (s.get (R.AZL_TXEQ_MAIN n))
      (s.get (R.AZL_TXEQ_POST n)) 0
    let m := tapShake (reqOf b.reqMain) l.rqMain l.stMain a.1.1 a.1.2.1 a.1.2.2 1
    let p := tapShake (reqOf b.reqPost) l.rqPost l.stPost m.1.1 m.1.2.1 m.1.2.2 2
    (put3 s p.1).setLane n { l with
      stPre := a.2.1, stMain := m.2.1, stPost := p.2.1, rqPre := a.2.2, rqMain := m.2.2, rqPost := p.2.2 }

/-- A Train block on a lane in UP: the far end has left UP (R75). -/
def State.trainInUp (s : State) (n : Nat) (inFrame : Bool) : State :=
  let hit := s.hears n inFrame
  (s.laneDown n hit).raiseFlts (lanePage n) (chosen [(true, Flt.AZL_TRRX), (hit, Flt.AZL_ABT)])

/-- Both ends have finished adapting, so the countdown runs (R78). -/
def LaneState.counting (l : LaneState) : Bool := l.rrdy && l.farRrdy

/-- The transmitter switches to the agreed precoding, after the Train block that carries COUNTDOWN = 0 (R63, R78). -/
def State.txSwitch (s : State) (n : Nat) : State :=
  (s.setLane n { s.lane n with last := 0 }).putB (R.AZL_LSTAT_TXPREC n)
    ((s.lane n).farPrecReq && s.on (R.AZL_LCTL_PRECALLOW n))

/-- The receiver switches at the same symbol of the far end's (R63, R78). -/
def State.rxSwitch (s : State) (n : Nat) : State :=
  (s.setLane n { s.lane n with rxLast := 0 }).putB (R.AZL_LSTAT_RXPREC n) ((s.lane n).farPrecAck && s.on (R.AZL_LCTL_PRECREQ n))

/-- `k` Train blocks sent: the running countdown falls by one for each, and at 0 the transmitter switches (R76, R78).
DEDUCED (log 14). -/
def State.countDown (s : State) (n k : Nat) : State :=
  let l := s.lane n
  if !l.counting || l.count == 0 then s
  else
    let s := s.setLane n { l with count := l.count - k }
    if l.count ≤ k then s.txSwitch n else s

/-- A request of this receiver for one tap: held until the far transmitter reports a status, then hold (R77). `st` is the
status received, `new` what the adaptation asks for. -/
def nearReq (old st new : Nat) : Nat := if st ≠ 0 then 0 else if reqOf new = 0 then old else reqOf new

/-- What the block says of the far end, and this receiver's next requests (R77); RRDY taken back at either end restarts a
countdown under way at 255 (R79). DEDUCED (log 14). -/
def State.trainNear (s : State) (n : Nat) (b : TrainBlock) (mine : Adapt) : State :=
  let l := s.lane n
  let back := !(b.rrdy && mine.rrdy) && l.count != 0
  s.setLane n { l with
    farRrdy := b.rrdy, farPrecReq := b.precReq, farPrecAck := b.precAck, farCount := b.countdown
    rqFarPre := nearReq l.rqFarPre b.stPre mine.reqPre, rqFarMain := nearReq l.rqFarMain b.stMain mine.reqMain
    rqFarPost := nearReq l.rqFarPost b.stPost mine.reqPost, askPreset := mine.preset, rrdy := mine.rrdy
    count := if back then 255 else l.count }

/-- VERIFY is entered once both countdowns have reached 0 (R75, R78). -/
def State.trained (s : State) (n : Nat) : State :=
  s.when ((s.lane n).count == 0 && (s.lane n).farCount == 0) (s.put (R.AZL_LSTAT_STATE n) 4)

/-- A Train block received, `sent` of this lane's own having gone out since the last (R76 to R79); the next of its own goes
on the line. -/
def State.trainBlock (s : State) (n : Nat) (b : TrainBlock) (sent : Nat) (mine : Adapt) : State :=
  match s.laneSt n with
  | 5 =>
    let (b, s) := s.freeBit
    s.trainInUp n b
  | 3 =>
    let s := (s.idleTo n).countDown n sent
    let s := (s.put (R.AZL_LSTAT_PROLE n) b.role).put (R.AZL_LSTAT_PLANE n) b.lane
    let s := (s.trainTaps n b).trainNear n b mine
    let s := if b.countdown = 0 then s.rxSwitch n else s
    (s.putLine n (s.idleBlock n).toList).trained n
  | _ => s

/-- TRAIN_BLOCK_RECEIVE (R77). -/
def execTrainBlockReceive (n : Fin 20) (pay : BitVec 56) (sent : Nat) (mine : Adapt) (s : State) :
    Host.Outcome State Fault Refusal :=
  .next (live s (s.when (s.laneOn n) (s.trainBlock n (trainOf pay) sent mine)))

/-- Both countdowns run out: the time of the longer one passes, each direction runs as agreed, and VERIFY is entered (R63,
R75, R78). DEDUCED (log 14). -/
def State.countdownDone (s : State) (n : Nat) : State :=
  let l := s.lane n
  let s := (s.elapse ((256 * max l.count l.farCount + 99) / 100)).idleTo n
  let s := s.countDown n l.count
  let s := (s.setLane n { s.lane n with farCount := 0 }).rxSwitch n
  s.put (R.AZL_LSTAT_STATE n) 4

/-- COUNTDOWN_COMPLETE (R78): the countdowns run once both ends are ready. DEDUCED (log 14). -/
def execCountdownComplete (n : Fin 20) (s : State) : Host.Outcome State Fault Refusal :=
  .next (live s (s.when (s.laneOn n && s.laneSt n == 3 && (s.lane n).counting) (s.countdownDone n)))

/-- Time passes until `d` ns after the lane entered its state. -/
def State.laneUntil (s : State) (n d : Nat) : State := s.elapse ((s.lane n).since + d - s.fcu.timeNs)

/-- TRAIN_TIMEOUT (R75): TRTMO has elapsed since entry to TRAIN. -/
def execTrainTimeout (n : Fin 20) (s : State) : Host.Outcome State Fault Refusal :=
  .next (live s (s.when (s.laneOn n && s.laneSt n == 3)
    ((s.laneUntil n (max 1 (s.get (R.AZL_TRCFG_TRTMO n)) * 1000000)).laneFail n)))

/-- VERIFY_COMPLETE (R75): 65,536 consecutive blocks without an invalid sync header. -/
def execVerifyComplete (n : Fin 20) (s : State) : Host.Outcome State Fault Refusal :=
  .next (live s (s.when (s.laneOn n && s.laneSt n == 4)
    ((s.elapse 167773).laneEnter n 5)))

/-- RF = 1 in 4 consecutive received Leap blocks: a lane in UP enters DOWN (R75). -/
def State.remoteFault (s : State) (n : Nat) : State :=
  let t := s.put (R.AZL_LSTAT_REMFLT n) 1
  let hit := t.arriving n
  if s.laneUp n then (t.laneDown n hit).raiseFlts (lanePage n) (chosen [(true, Flt.AZL_RF), (hit, Flt.AZL_ABT)]) else t

/-- REMOTE_FAULT (R75). -/
def execRemoteFault (n : Fin 20) (s : State) : Host.Outcome State Fault Refusal :=
  .next (live s (s.when (s.laneOn n) (s.remoteFault n)))

/-- `k` Leap blocks received with RF as given: REMFLT follows it, and the fourth in a row with RF = 1 is a remote fault
(R75, R84). DEDUCED (log 15). -/
def State.leapSeen (s : State) (n k : Nat) (rf : Bool) : State :=
  if k = 0 then s
  else
    let l := s.lane n
    let r := if rf then min 4 (l.rfRun + k) else 0
    let s := (s.setLane n { l with rfRun := r }).putB (R.AZL_LSTAT_REMFLT n) rf
    if r = 4 ∧ s.laneUp n = true then s.remoteFault n else s

/-- TRAIN_BLOCK_IN_UP (R75). -/
def execTrainBlockInUp (n : Fin 20) (inFrame : Bool) (s : State) : Host.Outcome State Fault Refusal :=
  .next (live s (s.when (s.laneOn n && s.laneUp n) (s.trainInUp n inFrame)))

/-- RETRY_HOLDOFF_EXPIRY (R75): the holdoff in DOWN or FAULT has elapsed. -/
def execRetryHoldoffExpiry (n : Fin 20) (s : State) : Host.Outcome State Fault Refusal :=
  let go := s.laneOn n && ((s.laneSt n == 6 && (s.on (R.AZL_LCTL_AUTO n) || (s.lane n).byRetrain)) ||
    (s.laneSt n == 7 && s.on (R.AZL_LCTL_AUTO n)))
  .next (live s (s.when go
    ((s.laneUntil n (max 1 (s.get (R.AZL_TRCFG_RETRY n)) * 100000)).laneWake n)))

/-- AZL.CMD.RETRAIN (R75, R84): in UP to DOWN, in DOWN or FAULT to WAKE, no effect elsewhere. Whether a frame arrives
at the time, if the node relays none, is open. DESIGN CHOICE (log 265). -/
def State.retrain (s : State) (n : Nat) : State :=
  match s.laneSt n with
  | 5 =>
    let (b, s) := s.freeBit
    let hit := s.hears n b
    let t := (s.laneDown n hit).raiseFlts (lanePage n) (chosen [(hit, Flt.AZL_ABT)])
    t.setLane n { t.lane n with byRetrain := true }
  | 6 => s.laneWake n
  | 7 => s.laneWake n
  | _ => s

/-- RETRAIN (R75). -/
def execRetrain (n : Fin 20) (s : State) : Host.Outcome State Fault Refusal :=
  .next (live s (s.cmd (lanePage n) (s.when (s.laneOn n) (s.retrain n))))

/-- AZL.CMD.CCLR (R84). -/
def State.laneClear (s : State) (n : Nat) : State :=
  s.zero [R.AZL_CNT_LOSC n, R.AZL_CNT_LOLC n, R.AZL_LEAP_DEL n, R.AZL_LEAP_INS n, R.AZL_SHERR_SHERR n,
    R.AZL_ABTC_EBC n, R.AZL_ABTC_ABT n]

/-- LANE_COUNTER_CLEAR (R84). -/
def execLaneCounterClear (n : Fin 20) (s : State) : Host.Outcome State Fault Refusal :=
  .next (live s (s.cmd (lanePage n) (s.laneClear n)))

/-- The whole ticks in UP counted at a tick instant (R440). DEDUCED (log 61). -/
def State.laneTick (s : State) (n : Nat) : State :=
  let l := s.lane n
  if s.laneUp n then s.setLane n { l with whole := if l.began then l.whole + 1 else l.whole, began := true } else s

/-- The tick instant at every lane. DEDUCED (log 61). -/
def State.lanesTick (s : State) : State := forUpTo 20 (fun n x => x.laneTick n) s

/-! ### Bad frames, Leap sites -/

/-- An invalid sync header in block lock, `gap` blocks after the last one: counted, and the SHTH-th within 64 blocks loses
block lock (R81, R84). -/
def State.badHeader (s : State) (n gap : Nat) : State × List Nat :=
  if !s.on (R.AZL_LSTAT_BLKLK n) then (s, [])
  else
    let l := s.lane n
    let a := 0 :: (l.badHdr.map (fun x => x + max 1 gap)).filter (fun x => decide (x < 64))
    let s := (s.setLane n { l with badHdr := a }).incSat (R.AZL_SHERR_SHERR n)
    if s.shTh n ≤ a.length then s.blockLoss n false else (s, [])

/-- What a receiver in block lock does with a block, and the FLT bits to be set (R68). A frame is only carried in UP.
DEDUCED (log 16). -/
def State.badBlock (s : State) (n : Nat) (b : Option Block) (inFrame : Bool) : State × List Nat :=
  let ends : State × List Nat := if s.laneUp n then (s.frameEnds n, [Flt.AZL_ABT]) else (s, [])
  match blockKind b inFrame with
  | .valid => (s, [])
  | .restart => ends
  | .invalid => if inFrame then ends else (s, chosen [(s.on (R.AZL_LSTAT_BLKLK n), Flt.AZL_CODE)])

/-- The receiver of lane `n` reads the level indices of one block or more; what it makes of the last (R61, R62, R66). -/
def State.receive (s : State) (n : Nat) (sym : List Nat) : Option Block × State :=
  let l := s.lane n
  let (b, w) := RxWire.read (s.on (R.AZL_LSTAT_RXPREC n)) (sym.length / 33 - 1) ⟨l.rxScr, l.rxLast⟩ sym
  (b, s.setLane n { l with rxScr := w.scr, rxLast := w.last })

/-- A block received on lane `n`: an invalid one, or a Start inside a frame, ends the frame as bad; between frames an invalid
one is counted in FLT.CODE. An invalid sync header counts toward loss of block lock, and in VERIFY takes the lane to
FAULT (R68, R75, R81, R331). -/
def State.invalidBlock (s : State) (n : Nat) (sym : List Nat) (inFrame : Bool) (gap : Nat) : State :=
  let (b, s) := s.receive n sym
  let (t, ks) := s.badBlock n b inFrame
  match b with
  | some _ => t.raiseFlts (lanePage n) ks
  | Option.none =>
    let (t, js) := t.badHeader n gap
    let fail := t.laneSt n == 4
    (if fail then t.laneEnter n 7 else t).raiseFlts (lanePage n) (ks ++ js ++ chosen [(fail, Flt.AZL_TRF)])

/-- INVALID_BLOCK (R68, R75, R81). DEDUCED (log 16). -/
def execInvalidBlock (n : Fin 20) (sym : List (Fin 4)) (inFrame : Bool) (gap : Nat) (s : State) :
    Host.Outcome State Fault Refusal :=
  .next (live s (s.when (s.laneOn n) (s.invalidBlock n (sym.map Fin.val) inFrame gap)))

/-- ABORT_RECEIVE (R68). DEDUCED (log 57). -/
def execAbortReceive (n : Fin 20) (s : State) : Host.Outcome State Fault Refusal :=
  .next (live s (s.when (s.laneOn n && s.laneUp n) (s.badFrame n)))

/-- A slot is being appended to the frame that came in on lane `n`, whose Leap blocks are discarded meanwhile (R95). -/
def State.appending (s : State) (n : Nat) : Bool :=
  (List.range 20).any (fun m =>
    match (s.lane m).tx with
    | some t => t.src == some n && t.appends && decide (s.now10 < t.stop)
    | Option.none => false)

/-- The elastic buffer of the path from lane `n` at a Leap site, by its occupancy in eighths of a block and
the Leap blocks of the gap (R70, R71). DEDUCED (log 59). -/
def State.leapRate (s : State) (n occ : Nat) (inFrame : Bool) (leaps : Nat) : State :=
  if occ = 0 ∨ 32 ≤ occ then
    let t := (s.incSat (R.AZL_ABTC_EBC n)).raiseFlt (lanePage n) Flt.AZL_EB
    if inFrame then t.cutRelays n
    else if occ = 0 then t.put (R.AZL_LEAP_INS n) (t.get (R.AZL_LEAP_INS n) + 2)
    else t.put (R.AZL_LEAP_DEL n) (t.get (R.AZL_LEAP_DEL n) + 2)
  else if inFrame then s
  else if s.appending n then s
  else if occ < 12 then s.incWrap (R.AZL_LEAP_INS n)
  else if 20 < occ ∧ 2 ≤ leaps then s.incWrap (R.AZL_LEAP_DEL n)
  else s

/-- Time passes until the transmitter of lane `n` has sent its frame. DEDUCED (log 59). -/
def State.gapTime (s : State) (n : Nat) : State :=
  match (s.lane n).tx with
  | some t => s.elapse ((t.stop - s.now10 + 99) / 100)
  | Option.none => s

end Sys2Proof.Machine
end

