-- ==== Sys2Proof/Machine/Frame.lean ====
section
/-! DEFINITION. Frames byte by byte: the header, the types, the frame CRC and what a relay does to it, the
cell slot, and the layouts that several chapters read or write (R85 to R108, R113). -/

namespace Sys2Proof.Machine

/-! ### Header and CRC -/

/-- Byte `i` of a frame; 0 beyond its end. -/
def byteAt (f : Frame) (i : Nat) : Nat := fieldBE f i 1

/-- VER of the header. -/
def fVer (f : Frame) : Nat := byteAt f 0 / 64
/-- TYPE of the header. -/
def fType (f : Frame) : Nat := byteAt f 0 % 64
/-- CLASS of the header. -/
def fClass (f : Frame) : Nat := byteAt f 1 / 64
/-- The ARM bit of the header. -/
def fArm (f : Frame) : Nat := byteAt f 1 / 32 % 2
/-- The ACT bit of the header. -/
def fAct (f : Frame) : Bool := bitOf (byteAt f 1) 4
/-- SRC of the header. -/
def fSrc (f : Frame) : Nat := fieldBE f 2 2 % 16384
/-- DST of the header. -/
def fDst (f : Frame) : Nat := fieldBE f 4 2 % 16384
/-- TICK of the header. -/
def fTick (f : Frame) : Nat := fieldBE f 6 2
/-- RING of the header. -/
def fRing (f : Frame) : Nat := byteAt f 8 / 16
/-- HOPS of the header. -/
def fHops (f : Frame) : Nat := byteAt f 9
/-- CNT of the header. -/
def fCnt (f : Frame) : Nat := fieldBE f 10 2

/-- The frame types of R86. -/
def tyHarvest : Nat := 0x01
def tyExtract : Nat := 0x02
def tyDown : Nat := 0x03
def tyRepeat : Nat := 0x04
def tyTraj : Nat := 0x08
def tyReport : Nat := 0x09
def tyMirror : Nat := 0x0C
def tyTiming : Nat := 0x10
def tyProbe : Nat := 0x11
def tyProbeReply : Nat := 0x12
def tyEnum : Nat := 0x20
def tyEnumReply : Nat := 0x21
def tyAssign : Nat := 0x22
def tyMailbox : Nat := 0x24
def tySlotCopy : Nat := 0x30
def tyTelemetry : Nat := 0x31

/-- The CLASS of each frame type: 0 control, 1 timing, 2 mailbox, 3 telemetry (R86). -/
def classOf (t : Nat) : Option Nat :=
  match t with
  | 0x01 | 0x02 | 0x03 | 0x04 | 0x08 | 0x09 | 0x0C => some 0
  | 0x10 | 0x11 | 0x12 => some 1
  | 0x20 | 0x21 | 0x22 | 0x24 => some 2
  | 0x30 | 0x31 => some 3
  | _ => Option.none

/-- Version, type and class of a frame are those of R86. -/
def fKnown (f : Frame) : Bool := fVer f == 1 && classOf (fType f) == some (fClass f)

/-- The frame CRC is right (R87). -/
def fCrcOk (f : Frame) : Bool :=
  decide (16 ≤ f.length) && fieldBE f (f.length - 4) 4 == (crc32c (f.take (f.length - 4))).toNat

/-- Header and body with their CRC-32C (R87). -/
def sealCrc (b : List Byte) : Frame := b ++ bytesBE 4 (crc32c b).toNat

/-- What a relay sends for a frame it changed: the recomputed CRC, every bit inverted where the incoming
CRC failed (R89). -/
def reseal (ok : Bool) (b : List Byte) : Frame :=
  let c := crc32c b
  b ++ bytesBE 4 (if ok then c else ~~~c).toNat

/-- Header and body of a frame without its CRC. -/
def stripCrc (f : Frame) : List Byte := f.take (f.length - 4)

/-- A frame with HOPS one higher, as a relay sends it (R89, R108). -/
def hopUp (f : Frame) : Frame :=
  reseal (fCrcOk f) (overlay (stripCrc f) 9 (bytesBE 1 (fHops f + 1)))

/-- What the header of a frame says beside its TICK. -/
structure Hdr where
  ty : Nat
  arm : Nat
  act : Bool
  src : Nat
  dst : Nat
  ring : Nat
  hops : Nat
  cnt : Nat
  deriving DecidableEq, Repr

/-- A frame launched in tick `t` (R85, R87). -/
def mkFrame (h : Hdr) (t : Nat) (body : List Byte) : Frame :=
  sealCrc (bytesBE 1 (64 + h.ty) ++ bytesBE 1 (64 * (classOf h.ty).getD 0 + 32 * h.arm + 16 * b2n h.act) ++
    bytesBE 2 h.src ++ bytesBE 2 h.dst ++ bytesBE 2 t ++ bytesBE 1 (16 * h.ring) ++ bytesBE 1 h.hops ++
    bytesBE 2 h.cnt ++ body)

/-- The ACT bit of the node: the active member of its pair, or a cell (R85, R317). -/
def State.actBit (s : State) : Bool := s.isK || s.get R.RED_STA_STATE == 1

/-- One of the 15,392 NodeIDs that R18 does not reserve. -/
def openNode (z : Nat) : Nat :=
  let k := z % 15392
  if k < 2 then k + 1 else if k < 32 then 0x100 + (k - 2) else 0x400 + (k - 32)

/-- A cell has no NodeID of its own, so that the source of its frames is open (R18). -/
def State.unassigned (s : State) : Bool := s.isK && !s.idValid

/-- SRC of a frame of this node's own: its NodeID; of a cell without one any that R18 does not reserve.
DESIGN CHOICE (log 36). -/
def State.srcId (s : State) : Nat := if s.unassigned then openNode (Config.free s.freeCtr) else s.nodeId

/-- A header of this node's own (R85). -/
def State.hdr (s : State) (ty : Nat) : Hdr := ⟨ty, 0, s.actBit, s.srcId, 0, 0, 0, 0⟩

/-- A frame of this node's own in the current tick. -/
def State.frame (s : State) (h : Hdr) (body : List Byte) : Frame := mkFrame h s.tick16 body

/-! ### NodeIDs (R18) -/

/-- The ring of a cell's NodeID. -/
def nodeRing (id : Nat) : Nat := id / 64 % 16
/-- The position of a cell's NodeID. -/
def nodePos (id : Nat) : Nat := id % 64
/-- Whether a NodeID names a cell. -/
def isCellId (id : Nat) : Bool := decide (0x400 ≤ id ∧ id < 0x4000)
/-- The NodeID of the cell at index 64 x ring + position of pair `p`. -/
def cellId (p i : Nat) : Nat := 0x400 * (p + 1) + i
/-- The pair of a cell's NodeID. -/
def nodePair (id : Nat) : Nat := id / 0x400 - 1

/-- The pair a module belongs to: a Section by its straps, a cell by its NodeID. -/
def State.pair (s : State) : Nat := if s.isK then nodePair s.nodeId else s.get R.SYS_STRAP_PAIR

/-- The NodeID of the other member of a Conductor's or Section's pair. -/
def State.partnerId (s : State) : Nat :=
  if s.isC then 3 - s.nodeId else if s.sideB then s.nodeId - 1 else s.nodeId + 1

/-- The NodeID under which a cell takes frames of its ring: its own, or its recovery NodeID (R386). -/
def State.ringId (s : State) : Nat := if s.idValid then s.nodeId else s.azf.recNode.getD 0

/-- The cell's ring. -/
def State.ring (s : State) : Nat := nodeRing s.ringId

/-- RING of a frame that this node sends on lane `n`: the ring of the lane, the chain number on an upper chain, and 0 where
the lane carries neither (R28, R85). -/
def State.laneRing (s : State) (n : Nat) : Nat :=
  match s.role with
  | .cell => s.ring
  | .sect => if n < 16 then n else if n = 18 ∨ n = 19 then s.pair / 2 else 0
  | .conductor => if n < 8 then n else 0
  | .none => 0

/-! ### Slots (R92, R93) -/

/-- The fields of a slot as a tick's input, from its 48 bytes. -/
def slotIn (b : List Byte) : CellIn :=
  let st := fieldBE b 10 2
  let away := decide (bitsOf st 12 2 = 0 ∨ bitsOf st 12 2 = 3) || bitOf st 11 || bitOf st 10
  { full := true, kst := if away then 3 else bitsOf st 14 2, ins := bitsOf st 14 2, cstate := bitsOf st 12 2,
    kch := fieldBE b 4 3, kdis := fieldBE b 7 3, vcap := fieldBE b 12 2,
    resid := toSigned 16 (fieldBE b 20 2), trimd := bitOf st 8, miss := bitOf st 3, bypassed := bitOf st 10,
    bytes := b }

/-- NODE of a slot. -/
def slotNode (b : List Byte) : Nat := fieldBE b 0 2 % 16384

/-- SCRC of a slot is right. -/
def slotCrcOk (b : List Byte) : Bool := decide (b.length = 48) && fieldBE b 46 2 == (crc16 (b.take 46)).toNat

/-- SCRC and SVER of a slot are right, and STICK is the tick (R96). -/
def slotOk (b : List Byte) (tick : Nat) : Bool :=
  slotCrcOk b && fieldBE b 0 2 / 16384 == 1 &&
    fieldBE b 2 2 == tick

/-- The 48-byte slots of a Harvest or Slot copy frame. -/
def frameSlots (f : Frame) : List (List Byte) :=
  (List.range ((f.length - 16) / 48)).map (fun i => slice f (12 + 48 * i) 48)

/-- The 8-byte key extracts of a Key extract frame (R97). -/
def frameExtracts (f : Frame) : List (List Byte) :=
  (List.range ((f.length - 16) / 8)).map (fun i => slice f (12 + 8 * i) 8)

/-- A key extract as a tick's input. -/
def extractIn (b : List Byte) : CellIn :=
  let k := fieldBE b 0 2 / 16384
  { full := false, kst := k, ins := if k = 3 then 0 else k, cstate := 1, kch := fieldBE b 2 3,
    kdis := fieldBE b 5 3, vcap := 0, resid := 0, trimd := false, miss := false, bypassed := false, bytes := b }

/-- The key extract formed from a slot (R97). -/
def extractOf (b : List Byte) : List Byte :=
  bytesBE 2 (16384 * (slotIn b).kst + slotNode b) ++ slice b 4 6

/-! ### Down and Repeat (R99, R100) -/

/-- SPLIT of a Down or Repeat frame. -/
def dSplit (f : Frame) : Nat := byteAt f 13
/-- LEVEL of a Down frame. -/
def dLevel (f : Frame) : Int := toSigned 16 (fieldBE f 14 2)
/-- XCNT of a Down frame. -/
def dXcnt (f : Frame) : Nat := byteAt f 36 % 32

/-- A Down frame is valid in itself (R100). -/
def downOk (f : Frame) : Bool :=
  decide (f.length = 96 ∧ dXcnt f ≤ 16 ∧ dSplit f % 128 ≤ 64) && decide ((dLevel f).natAbs ≤ 1024)

/-- The NodeIDs a Down frame names Hold (R100). -/
def dHolds (f : Frame) : List Nat :=
  (((List.range (dXcnt f)).map (fun i => fieldBE f (38 + 2 * i) 2)).filter (fun e => e / 16384 == 0)).map
    (fun e => e % 16384)

/-- KSEL of a Down frame. -/
def dKsel (f : Frame) : Nat := byteAt f 12 / 128
/-- TRV of a Down frame. -/
def dTrv (f : Frame) : Bool := bitOf (byteAt f 12) 6
/-- THR of a Down frame. -/
def dThr (f : Frame) : Nat := fieldBE f 16 3
/-- TIE of a Down frame. -/
def dTie (f : Frame) : Nat := fieldBE f 20 2 % 16384
/-- TRIM of a Down frame. -/
def dTrim (f : Frame) : Nat := fieldBE f 22 2 % 16384
/-- TOFF of a Down frame. -/
def dToff (f : Frame) : Nat := fieldBE f 24 3 % 2 ^ 20
/-- IARM of a Down frame. -/
def dIarm (f : Frame) : Int := toSigned 32 (fieldBE f 28 4)
/-- MDST of a Down frame. -/
def dMdst (f : Frame) : Nat := fieldBE f 70 2 % 16384
/-- MSEQ of a Down frame. -/
def dMseq (f : Frame) : Nat := byteAt f 72
/-- The segment index and the last index of MSEG. -/
def dSeg (f : Frame) : Nat × Nat := (byteAt f 73 / 16, byteAt f 73 % 16)
/-- The valid bytes of MDATA. -/
def dData (f : Frame) : List Byte := slice f 74 (min 16 (byteAt f 90 % 32))
/-- ACKV and MACK of a Down frame. -/
def dAck (f : Frame) : Option Nat := if bitOf (byteAt f 90) 7 then some (byteAt f 91) else Option.none

/-- A key and NodeID are selected by a threshold and tie (R131). -/
def selected (key id thr tie : Nat) : Bool := decide (thr < key ∨ (key = thr ∧ id ≤ tie))

/-- One mailbox segment of a Down frame, or none: destination, sequence, index, last, data, and the
acknowledgement it carries. -/
structure Segment where
  dst : Nat
  seq : Nat
  idx : Nat
  last : Nat
  data : List Byte
  ack : Option Nat
  deriving DecidableEq, Repr

/-- Bytes 70 to 91 of a Down frame (R99). -/
def segBytes (g : Segment) : List Byte :=
  bytesBE 2 g.dst ++ bytesBE 1 g.seq ++ bytesBE 1 (16 * g.idx + g.last) ++ padTo 16 (g.data.take 16) ++
    bytesBE 1 (128 * b2n g.ack.isSome + (g.data.take 16).length) ++ bytesBE 1 (g.ack.getD 0)

/-- The body of a Down frame (R99). -/
def downBody (c : ArmCmd) (split : Nat) (holds : List Nat) (g : Segment) : List Byte :=
  bytesBE 1 (128 * c.ksel + 64 * b2n c.trv) ++ bytesBE 1 split ++ bytesBE 2 (ofSigned 16 c.level) ++
    bytesBE 3 c.thr ++ zeros 1 ++ bytesBE 2 c.tie ++ bytesBE 2 c.trim ++ bytesBE 3 c.toff ++ zeros 1 ++
    bytesBE 4 (ofSigned 32 c.iarm) ++ zeros 4 ++ bytesBE 1 (min 16 holds.length) ++ zeros 1 ++
    padTo 32 ((holds.take 16).flatMap (bytesBE 2)) ++ segBytes g

/-- The body of a Repeat frame: SPLIT, every other field 0 (R101). -/
def repeatBody (split : Nat) : List Byte := zeros 1 ++ bytesBE 1 split ++ zeros 78

/-! ### Mailbox (R105) -/

/-- The body of a Mailbox frame. -/
def mailboxBody (seq : Nat) (ack : Option Nat) (data : List Byte) : List Byte :=
  bytesBE 1 seq ++ bytesBE 1 (ack.getD 0) ++ bytesBE 1 (128 * b2n ack.isSome) ++ zeros 1 ++
    bytesBE 2 data.length ++ data

/-! ### Timing (R113) -/

/-- CORR of a Timing frame. -/
def tCorr (f : Frame) : Nat := fieldBE f 22 4
/-- CERR of a Timing frame. -/
def tCerr (f : Frame) : Bool := bitOf (byteAt f 26) 7

/-- The bytes `b` of a Timing frame without its CRC with `d` more in CORR; a sum that does not fit sets CERR (R115). -/
def corrAdd (b : List Byte) (d : Nat) : List Byte :=
  let n := fieldBE b 22 4 + d
  let b := overlay b 22 (bytesBE 4 (min n 0xFFFFFFFF))
  if 0xFFFFFFFF < n then overlay b 26 (bytesBE 1 (byteAt b 26 % 128 + 128)) else b

/-- A Timing frame as a relay sends it: `d` more in CORR, HOPS one higher (R115). -/
def timingRelay (f : Frame) (d : Nat) : Frame :=
  reseal (fCrcOk f) (corrAdd (overlay (stripCrc f) 9 (bytesBE 1 (fHops f + 1))) d)

/-- A frame whose first bit leaves `d`, in 1/256 ns, after the instant for which it was made: a Timing frame of this
node's own says so in ORIGIN, a relayed one in CORR, a Probe reply of its own in TURN (R113, R115, R116). -/
def lateBy (own : Bool) (f : Frame) (d : Nat) : Frame :=
  if d = 0 ∨ fKnown f = false then f
  else if fType f = tyTiming then
    (if own then sealCrc (overlay (stripCrc f) 18 (bytesBE 4 (fieldBE f 18 4 + d)))
     else reseal (fCrcOk f) (corrAdd (stripCrc f) d))
  else if fType f = tyProbeReply ∧ own = true then
    sealCrc (overlay (stripCrc f) 14 (bytesBE 4 (fieldBE f 14 4 + d)))
  else f

end Sys2Proof.Machine
end

