-- ==== Sys2Proof/Machine/Pool.lean ====
section
/-! DEFINITION. The Frame Pool, the queues of the lanes, launching and relaying a frame, and the checks a
frame passes before it is consumed (R54, R55, R86, R90, R91, R120 to R123). -/

namespace Sys2Proof.Machine

/-- The AZF is powered and enabled. -/
def State.azfOn (s : State) : Bool := s.runs 0x34

/-- A lane can carry a frame: powered, in UP and in service. -/
def State.laneOk (s : State) (n : Nat) : Bool := s.runs (lanePage n) && s.laneUp n && s.inSvc n

/-! ### Buffers -/

/-- The buffers in use. -/
def State.poolUsed (s : State) : List Nat := (s.azf.queue ++ s.azf.kept).flatMap Queued.bufs

/-- The buffers held by frames of a class that satisfies `p`. -/
def State.poolOf (s : State) (p : Nat → Bool) : Nat :=
  (((s.azf.queue ++ s.azf.kept).filter (fun q => p q.cls)).flatMap Queued.bufs).length

/-- A buffer may be taken for a frame of class `cls` that already has `k` buffers (R120). -/
def State.poolMay (s : State) (cls k : Nat) : Bool :=
  let free := 16384 - s.poolUsed.length - k
  let u := s.poolOf (fun c => decide (c ≤ 1)) + (if cls ≤ 1 then k else 0)
  let m := s.poolOf (fun c => c == 2) + k
  decide (0 < free) && (decide (cls ≤ 1) ||
    (decide (s.get R.AZF_POOLCFG_CRES - u < free) &&
      (cls != 2 || decide (m < s.get R.AZF_POOLCFG_MCAP))))

/-- POOLSTA follows the buffers in use. -/
def State.poolCount (s : State) : State :=
  let free := 16384 - s.poolUsed.length
  (s.put R.AZF_POOLSTA_FREE free).put R.AZF_POOLSTA_MINFREE (min free (s.get R.AZF_POOLSTA_MINFREE))

/-- The newest queued frame of a class is dropped and counted, if there is one (R121). DEDUCED (log 71). -/
def State.poolDropNewest (s : State) (cls : Nat) : Option State :=
  match s.azf.queue.reverse.find? (fun q => q.cls == cls) with
  | Option.none => Option.none
  | some q =>
    let s : State := { s with azf := { s.azf with queue := (s.azf.queue.reverse.erase q).reverse } }
    some (if cls = 3 then s.poolCount.incSat R.AZF_DROP_TLM else s.poolCount.incSat R.AZF_DROP_MBX)

/-- A frame of class `cls` was refused a buffer: another is dropped to make room, if there is one (R121). -/
def State.poolRoom (s : State) (cls : Nat) : Option State :=
  match cls with
  | 3 => Option.none
  | 2 => s.poolDropNewest 3
  | _ =>
    match s.poolDropNewest 3 with
    | some t => some t
    | Option.none => s.poolDropNewest 2

/-- Room is made until a buffer may be taken, or none can be made. DEDUCED (log 71). -/
def State.poolAsk (s : State) (cls k : Nat) : Nat → State × Bool
  | 0 => (s, s.poolMay cls k)
  | fuel + 1 =>
    if s.poolMay cls k then (s, true)
    else
      match s.poolRoom cls with
      | Option.none => (s, false)
      | some t => t.poolAsk cls k fuel

/-- Buffers `c` to `c + n - 1`, counted modulo the pool (R427). DESIGN CHOICE (log 70). -/
def bufRun (c n : Nat) : List Nat := (List.range n).map (fun i => (c + i) % 16384)

/-- The first run of `n` consecutive free buffers from `c` on, around the pool. DESIGN CHOICE (log 70). -/
def pickRun (used : List Nat) (n c : Nat) : Nat → Nat
  | 0 => c % 16384
  | fuel + 1 => if (bufRun c n).any used.contains then pickRun used n (c + 1) fuel else c % 16384

/-- Room for `n` more buffers of a frame of class `cls` that already has `k`, each asked for in turn; how many the frame has
in the end (R120, R121). -/
def State.poolAskAll (s : State) (cls k : Nat) : Nat → State × Nat
  | 0 => (s, k)
  | n + 1 =>
    let (s, ok) := s.poolAsk cls k (s.azf.queue.length + 1)
    if !ok then
      let s := if k = 0 then s else s.incSat R.AZF_DROPC_TRUNC
      (match cls with
        | 3 => s.incSat R.AZF_DROP_TLM
        | 2 => s.incSat R.AZF_DROP_MBX
        | _ => (s.incSat R.AZF_DROPC_CTL).fcuEvent 5, k)
    else s.poolAskAll cls (k + 1) n

/-- `n` consecutive buffers for a frame of class `cls`, or how many were granted before one was refused; which free run it is
the spec leaves open (R427). DESIGN CHOICE (log 70). -/
def State.poolTake (s : State) (cls n : Nat) : State × Except Nat (List Nat) :=
  match s.poolAskAll cls 0 n with
  | (s, k) =>
    if k < n then (s, .error k)
    else
      let (c, s) := s.fresh 14
      (s, .ok (bufRun (pickRun s.poolUsed n c 16384) n))

/-- The bytes of a frame in its buffers, 256 in each. -/
def State.poolFill (s : State) (f : List Byte) : List Nat → State
  | [] => s
  | b :: t => (s.setMem (0x44000000 + 256 * b) (f.take 256)).poolFill (f.drop 256) t

/-- A frame stored in the pool, and its buffers; where it was dropped, how many of its buffers had been granted (R120, R121).
DEDUCED (log 71). -/
def State.poolStore (s : State) (cls : Nat) (f : List Byte) : State × Except Nat (List Nat) :=
  match s.poolTake cls ((f.length + 255) / 256) with
  | (s, .error k) => (s, .error k)
  | (s, .ok l) => (s.poolFill f l, .ok l)

/-- A queue entry placed by the time it came; Key extract frames of one instant stand in ring order (R97, R122). -/
def queueIn (q : Queued) : List Queued → List Queued
  | [] => [q]
  | x :: t =>
    let before := decide (q.came < x.came) || (q.came == x.came && fType q.f == tyExtract && fType x.f == tyExtract &&
      decide (fRing q.f < fRing x.f))
    if before then q :: x :: t else x :: queueIn q t

/-- A frame that comes to the pool now for lane `n`, without buffers yet. -/
def State.entry (s : State) (n : Nat) (own app : Bool) (f : Frame) : Queued :=
  { lane := n, f := f, cls := fClass f, bufs := [], own := own, app := app, came := s.now10, whole := 0, cut := Option.none }

/-- An entry of the queues. -/
def State.queued (s : State) (q : Queued) : State :=
  ({ s with azf := { s.azf with queue := queueIn q s.azf.queue } } : State).poolCount

/-- A frame waits at a lane's transmitter in its class (R122). A relayed one that is refused a buffer partway is dropped whole,
and sent only as far as it was being forwarded by then: up to the Abort that `cut`, the instant of the refusal, brings
(R121). DEDUCED (log 71). -/
def State.enqueue (s : State) (q : Queued) : State :=
  match s.poolStore q.cls q.f with
  | (s, .ok l) => s.queued { q with bufs := l }
  | (s, .error k) => s.when (!q.own && k != 0) (s.queued { q with cut := some (q.came + 8192 * k) })

/-- A frame or message kept in the pool until the drain; the first buffer, if it was not dropped. -/
def State.hold (s : State) (lane cls : Nat) (f : List Byte) : State × Option Nat :=
  match s.poolStore cls f with
  | (s, .error _) => (s, Option.none)
  | (s, .ok l) =>
    (({ s with azf := { s.azf with kept := s.azf.kept ++ [{ s.entry lane false false f with cls := cls, bufs := l }] } }
      : State).poolCount, some (l.headD 0))

/-- A frame of a firmware-consumed type, or a message, kept in the pool; its descriptor names the first
buffer (R217). -/
def State.keep (s : State) (lane cls src arg : Nat) (f : List Byte) : State :=
  match s.hold lane cls f with
  | (s, Option.none) => s
  | (s, some b) => s.dsxIssue src (arg + b)

/-! ### Launching and relaying -/

/-- A frame of a node's own may be launched `d` in 10 ps after the instant of the tick that has been reached: not between
Eve and the drain instant (R54). -/
def State.mayLaunchAt (s : State) (d : Int) : Bool :=
  !s.lock || decide (100 * (s.tickNs : Int) + d < 100 * s.eveNs ∨ 100 * (s.drainNs : Int) ≤ 100 * s.tickNs + d)

/-- A frame of a node's own may be launched now (R54). -/
def State.mayLaunch (s : State) : Bool := s.mayLaunchAt 0

/-- The Probe whose reply lane `n` awaits left `d` later than it was made for (R116). -/
def State.probeLate (s : State) (n d : Nat) : State :=
  let l := nth s.azf.links n LinkMeas.init
  let l := { l with asked := l.asked.map (fun p => (p.1, p.2 + d)) }
  { s with azf := { s.azf with links := setNth s.azf.links n l LinkMeas.init } }

/-- The transmitter of its lane begins a frame, not before it came; what names its instant on the wire is brought up to date, and a Probe reply that cannot leave within 1 us is not sent (R113, R115, R116). -/
def State.depart (s : State) (src : Option Nat) (q : Queued) : State :=
  let d := (s.startAt q.lane q.own q.came - q.came) * 256 / 100
  let g := lateBy q.own q.f d
  if q.own && fType g == tyProbeReply && decide (256000 < fieldBE g 14 4) then s
  else
    let s := if q.own && fType q.f == tyProbe && d != 0 then s.probeLate q.lane d else s
    s.startTx q.lane src q.app q.own q.came q.whole g

/-- The waiting frame a transmitter starts next: timing, control, mailbox, telemetry, and within a class the
oldest (R122). -/
def nextQueued (q : List Queued) (lane : Nat) : Option Queued :=
  let f (c : Nat) := q.find? (fun x => x.lane == lane && x.cls == c)
  match f 1, f 0, f 2, f 3 with
  | some x, _, _, _ => some x
  | Option.none, some x, _, _ => some x
  | Option.none, Option.none, some x, _ => some x
  | Option.none, Option.none, Option.none, r => r

/-- The frames that may start at the transmitter of lane `n` when it is next free: those of this node's own wait out the
time from Eve to the drain (R54). -/
def State.startable (s : State) (n : Nat) : List Queued :=
  s.azf.queue.filter (fun q => !q.own || s.mayLaunchAt ((s.startAt n true q.came : Int) - s.now10))

/-- A waiting frame starts; one that was refused a buffer goes out up to its Abort, or not at all (R121). -/
def State.startQueued (s : State) (q : Queued) : State :=
  match q.cut with
  | Option.none => s.depart Option.none q
  | some z => s.when (decide (s.startAt q.lane q.own q.came < z)) ((s.depart Option.none q).cutTxAt q.lane z)

/-- At each gap up to now the transmitter of lane `n` has started the waiting frame of the highest class (R122).
DEDUCED (log 17). -/
def State.settle (s : State) (n : Nat) : Nat → State
  | 0 => s
  | k + 1 =>
    if s.busy n || !s.laneOk n then s
    else
      match nextQueued (s.startable n) n with
      | Option.none => s
      | some q =>
        let s := ({ s with azf := { s.azf with queue := s.azf.queue.erase q } } : State).poolCount
        (s.startQueued q).settle n k

/-- Every gap up to now at the transmitter of lane `n`. -/
def State.gaps (s : State) (n : Nat) : State := s.settle n s.azf.queue.length

/-- A frame for the transmitter of lane `n`: an idle one starts it, a busy one lets it wait in its class (R122). -/
def State.offer (s : State) (n : Nat) (src : Option Nat) (app own : Bool) (f : Frame) : State :=
  let s := s.gaps n
  let q := s.entry n own app f
  if s.busy n then s.enqueue q else s.depart src q

/-- A frame of this node's own put on a lane; an open source is used up (R18). -/
def State.launch (s : State) (lane : Nat) (f : Frame) : State :=
  let t := s.when (s.azfOn && s.mayLaunch && s.laneOk lane) (s.offer lane Option.none false true f)
  t.when s.unassigned { t with freeCtr := t.freeCtr + 1 }

/-- A frame of this node's own put on each of several lanes. -/
def State.launchAll (s : State) (l : List Nat) (f : Frame) : State := forEach l (fun n x => x.launch n f) s

/-- A frame passed on from lane `n` to lane `m`: cut-through, or stored where the transmitter is busy (R122); `app` where
the cell appends its slot (R95). -/
def State.passOn (s : State) (n m : Nat) (app : Bool) (f : Frame) : State :=
  s.when (s.azfOn && s.laneOk m) (s.offer m (some n) app false f)

/-- A frame with ACT = 1 from the partner, on any lane: an active member is in dual activity, and a control frame says that the
partner is active (R323, R329). -/
def State.noteAct (s : State) (f : Frame) : State :=
  s.when ((s.isC || s.isS) && fKnown f && fAct f && fSrc f == s.partnerId && fCrcOk f)
    (let d := s.active && !s.red.dual
     ({ s with red := { s.red with
        actSeen := s.red.actSeen || fClass f == 0, dual := s.red.dual || s.active } } : State).raiseIf d 0x0B Flt.RED_DUAL)

/-- A frame longer than 4,096 bytes ends as bad (R86). -/
def tooLong (f : Frame) : Bool := decide (4096 < f.length)

/-- A frame is a copy that the cell ends: it has already received a valid one of the tick complete before
its Start (R102, R114). -/
def State.endsCopy (s : State) (f : Frame) : Bool :=
  s.isK && fKnown f && (((fType f == tyDown || fType f == tyRepeat) && s.azf.copySeen) ||
    (fType f == tyTiming && s.azf.timSeen))

/-- A frame of a type that only one link carries, or that a relay changes by a command of its own (R86, R115). -/
def ownRelay (f : Frame) : Bool :=
  fKnown f && [tyHarvest, tyTiming, tyProbe, tyProbeReply, tyEnum, tyAssign].contains (fType f)

/-- A frame relayed unchanged from lane `n` to lane `m`; an unknown one is counted, and one too long ends as bad at byte
4,097 (R86). DEDUCED (log 18, 71). -/
def State.relay (s : State) (n m : Nat) (f : Frame) : State :=
  if n = m ∨ s.laneOk n = false ∨ ownRelay f = true then s
  else
    let s := if fKnown f then s else s.incSat R.AZF_TAGERR_UNK
    if tooLong f then (s.passOn n m false (f.take 4096)).badFrame n
    else
      let s := s.noteAct f
      if s.endsCopy f then s
      else s.passOn n m false f

/-- An Enum or Assign passed on with one hop more, whatever its CRC and tick tag (R89, R90, R108). -/
def State.hopOn (s : State) (n m ty : Nat) (f : Frame) : State :=
  s.when (s.azfOn && s.laneOk n && !tooLong f && fKnown f && fType f == ty) (s.passOn n m false (hopUp f))

/-- UNKNOWN_FRAME (R86): relayed unchanged, not consumed, and counted. -/
def execUnknownFrame (n m : Fin 20) (f : Frame) (s : State) : Host.Outcome State Fault Refusal :=
  .next (live s (s.when (s.azfOn && !fKnown f) (s.relay n m f)))

/-- LEAP_SITE (R69 to R71, R75): the LSTAT of the Leap blocks received, the elastic buffer of the path from the lane, and in
a gap the next waiting frame of its transmitter. DEDUCED (log 59). -/
def execLeapSite (n : Fin 20) (occ : Fin 33) (inFrame : Bool) (leaps : Nat) (lstat : Byte) (s : State) :
    Host.Outcome State Fault Refusal :=
  .next (live s (s.when (s.laneOn n) (
    if inFrame then s.leapRate n occ true leaps
    else (((s.leapRate n occ false leaps).leapSeen n leaps (lstat.getLsbD 7)).gapTime n).gaps n)))

/-- The lanes that are partway through a frame. -/
def State.midFrame (s : State) : List (Nat × Nat) :=
  (List.range 20).filterMap (fun n =>
    match (s.lane n).tx with
    | some t => if t.midway s.now10 then some (n, t.cls) else Option.none
    | Option.none => Option.none)

/-- Everything waiting is discarded, every frame partway out is cut off, both are counted by class, and every buffer is
released (R55, R56, R120). -/
def State.azfDrain (s : State) : State :=
  let s := forUpTo 20 (fun n x => x.gaps n) s
  let cut := s.midFrame
  let cls := s.azf.queue.map Queued.cls ++ cut.map Prod.snd
  let c := (cls.filter (fun k => decide (k ≤ 1))).length
  let s := (s.addSat R.TCK_DRNC_CTL c).addSat R.TCK_DRNC_TLM (cls.length - c)
  let s := forEach cut (fun p x => x.cutTx p.1) s
  let s : State := { s with azf := { s.azf with queue := [], kept := [] } }
  let s := s.poolCount
  if c = 0 then s else s.fcuEvent 4

/-! ### Consuming a frame -/

/-- The frame, its lane and its sender pass: known, right CRC, tick tag of the current tick (R86, R87, R90).
Answers the state with the failure counted. DEDUCED (log 73). -/
def State.accepts (s : State) (n : Nat) (f : Frame) : State × Bool :=
  if !s.azfOn || !s.laneOk n then (s, false)
  else if tooLong f then (s.badFrame n, false)
  else if !fKnown f then (s.incSat R.AZF_TAGERR_UNK, false)
  else if !s.lock then (s, false)
  else if !fCrcOk f then (s.badCrc, false)
  else if fTick f != s.tick16 then (s.incSat R.AZF_TAGERR_STALE, false)
  else (s, true)

/-- A frame of type `ty` that passes `accepts` acts as `g` says. DEDUCED (log 73). -/
def State.onFrame (s : State) (n ty : Nat) (f : Frame) (g : State → State) : State :=
  let (s, ok) := s.accepts n f
  if ok && fType f == ty then g (s.noteAct f) else s

/-- FRESH of a producer's frame (R91): the state, and 2 for a new value, 1 for a repeated one, 0 for a
discard. DEDUCED (log 72). -/
def State.freshness (s : State) (key v : Nat) : State × Nat :=
  let put (x : State) (p : FreshSt) : State := { x with azf := { x.azf with fresh := alPut x.azf.fresh key p } }
  match alGet (s.azf.fresh.map (fun p => (p.1, some p.2))) key Option.none with
  | Option.none => (put s ⟨v, 0⟩, 2)
  | some p =>
    let e := diffSigned 8 v p.last
    if 4 ≤ p.olds ∨ 1 ≤ e then (put s ⟨v, 0⟩, 2)
    else if e = 0 then (put s ⟨p.last, 0⟩, 1)
    else ((put s ⟨p.last, p.olds + 1⟩).incSat R.AZF_FRESHC_OLD, 0)

/-- AZF.CMD.CCLR. -/
def State.azfClear (s : State) : State :=
  let s := s.zero [R.AZF_DROP_MBX, R.AZF_DROP_TLM, R.AZF_DROPC_TRUNC, R.AZF_DROPC_CTL, R.AZF_RXERR_SLOT,
    R.AZF_RXERR_FCRC, R.AZF_TAGERR_UNK, R.AZF_TAGERR_STALE, R.AZF_TSTA_OUTL, R.AZF_MBX_MRETX, R.AZF_MBX_MFAIL,
    R.AZF_FRESHC_OLD]
  s.put R.AZF_POOLSTA_MINFREE (s.get R.AZF_POOLSTA_FREE)

/-- AZF_COUNTER_CLEAR (R123). -/
def execAzfCounterClear (s : State) : Host.Outcome State Fault Refusal :=
  .next (live s (s.cmd 0x34 s.azfClear))

end Sys2Proof.Machine
end

