-- ==== Sys2Proof/Machine/Cell.lean ====
section
/-! DEFINITION. The cell: its slot and Harvest frame, the Down and Repeat frames it receives, the decision
of R133, the state it applies at the Strike, Hold and Orphan, and the cell's mailbox messages (R49 to R53,
R92 to R95, R103, R104, R124 to R126, R133 to R135, R147, R151). -/

namespace Sys2Proof.Machine

/-- The cell's position. -/
def State.pos (s : State) : Nat := nodePos s.ringId

/-- SPLIT in use: the last one received, or the intact split with Section A active (R94). -/
def State.splitInUse (s : State) : Nat :=
  if s.on R.AZF_SPLIT_SVALID then s.get R.AZF_SPLIT_SPLIT else (s.azf.ringN + 1) / 2

/-- The lane toward the Section of the cell's segment (R94). -/
def State.segLane (s : State) : Nat := if s.pos < s.splitInUse then 0 else 1

/-- The lane toward the segment's Section is out of service, so the cell sends toward the other end (R94). -/
def State.redirected (s : State) : Bool := !s.inSvc s.segLane

/-- The lane on which the cell harvests in this tick. -/
def State.harvLane (s : State) : Nat := if s.redirected then 1 - s.segLane else s.segLane

/-- The cell is the origin of what it sends: of its segment, or redirected (R94); when a redirected cell launches its own
Harvest frame the spec leaves open. DESIGN CHOICE (log 266). -/
def State.isOrigin (s : State) : Bool :=
  s.redirected || (if s.segLane = 0 then s.pos + 1 == min s.splitInUse s.azf.ringN else s.pos == s.splitInUse)

/-- Hops from the segment's origin. -/
def State.originDist (s : State) : Nat :=
  if s.segLane = 0 then min s.splitInUse s.azf.ringN - 1 - s.pos else s.pos - s.splitInUse

/-- FLTSUM: bit g while one of the sources 4g to 4g + 3 is severe or latched (R338). -/
def State.fltsum (s : State) : Nat :=
  (List.range 32).foldl (fun m g =>
    m + (if (List.range 4).any (fun i => s.fcuSevere (4 * g + i)) then 2 ^ g else 0)) 0

/-- INS of the slot: the state applied at the Strike, 00 once the outputs are in high impedance or gates off (R245, R442). -/
def State.slotIns (s : State) : Nat := if s.hiz || s.appl == 3 then 0 else s.cell.insNow

/-- STAT of the slot (R93). -/
def State.slotStat (s : State) (upcrc : Bool) : Nat :=
  s.slotIns * 2 ^ 14 + s.cstate * 2 ^ 12 + b2n s.bypReq * 2 ^ 11 + b2n s.bypAux * 2 ^ 10 +
    b2n (s.on R.PWM_SCFG_FB) * 2 ^ 9 + b2n s.cell.trimd * 2 ^ 8 + b2n upcrc * 2 ^ 7 +
    b2n (!s.inSvc 0) * 2 ^ 6 + b2n (!s.inSvc 1) * 2 ^ 5 + b2n s.sevg * 2 ^ 4 + b2n s.cell.miss * 2 ^ 3

/-- Bytes 30 and 31 of the slot: the acknowledgement of mailbox segments (R92, R104). -/
def State.slotAck (s : State) : List Byte :=
  let up := b2n (s.azf.outbox != []) * 4
  match s.azf.segRx with
  | some r => if r.got = 0 then bytesBE 1 r.seq ++ bytesBE 1 up
    else bytesBE 1 r.seq ++ bytesBE 1 (16 * (r.got - 1) + 8 + up)
  | Option.none => zeros 1 ++ bytesBE 1 up

/-- What the slot takes from the registers as they hold it: TSW, TCAP and VAUX (R265), and the estimates of ALM.KEST0 and
KEST1 (R343), in the order of the slot. -/
def State.auxNow (s : State) : List Nat :=
  [R.ADC_SLOTA_TSW, R.ADC_SLOTB_TCAP, R.ADC_SLOTA_VAUX, R.ALM_KEST0_CEST, R.ALM_KEST0_ESR, R.ALM_KEST1_VDRIFT,
    R.ALM_KEST1_TCYC].map s.get

/-- The same for the slot: as it stood at instant 400 (R265, R343). -/
def State.slotAux (s : State) : List Nat := s.cell.aux.getD s.auxNow

/-- The cell's slot (R92, R258, R265); APP, which the spec leaves to the cell application, is the free
value `app`. DESIGN CHOICE (log 82). -/
def State.slot (s : State) (upcrc : Bool) (app : Nat) : List Byte :=
  let b := bytesBE 2 (16384 + s.nodeId) ++ bytesBE 2 s.tick16 ++ bytesBE 3 (s.get R.PWM_KCH_KEY) ++
    bytesBE 3 (s.get R.PWM_KDIS_KEY) ++ bytesBE 2 (s.slotStat upcrc) ++ bytesBE 2 s.cell.vcap ++
    (s.slotAux.take 3).flatMap (bytesBE 2) ++ bytesBE 2 s.cell.residNow ++ bytesBE 2 s.cell.swcnt ++
    bytesBE 4 s.fltsum ++ bytesBE 1 (nth s.azf.laneEvents 0 0) ++ bytesBE 1 (nth s.azf.laneEvents 1 0) ++
    s.slotAck ++ (s.slotAux.drop 3).flatMap (bytesBE 2) ++ bytesBE 6 app
  b ++ bytesBE 2 (crc16 b).toNat

/-- The cell adds a slot in this tick (R24, R95, R237, R256, R265). DEDUCED (log 50). -/
def State.hasSlot (s : State) : Bool :=
  s.isK && s.azfOn && s.idValid && s.lock && !s.azf.slotSent && !s.cell.reversed && s.strikeMode && s.cell.vcapOk

/-- The cell launches a Harvest frame of its own (R95). DESIGN CHOICE (log 82). -/
def State.harvestOwn (s : State) : State :=
  let (app, s) := s.fresh 48
  let f := s.frame { s.hdr tyHarvest with ring := s.ring, cnt := 1 } (s.slot false app)
  let s : State := { s with azf := { s.azf with slotSent := true } }
  s.launch s.harvLane f

/-- What the tick's slot takes from the registers is latched (R265, R343). -/
def State.latchAux (s : State) : State :=
  s.when s.isK { s with cell := { s.cell with aux := some s.auxNow } }

/-- HARVEST_OPEN (R95): at instant 400 the origin cell launches its Harvest frame. -/
def execHarvestOpen (s : State) : Host.Outcome State Fault Refusal :=
  .next (live s (s.when s.lock (
    let t := (s.toInstant 400).latchAux
    if t.hasSlot && t.isOrigin then t.harvestOwn else t)))

/-- ORIGIN_TIMEOUT (R95): no Harvest Start has reached the cell by 400 + 34 d + 40. -/
def execOriginTimeout (s : State) : Host.Outcome State Fault Refusal :=
  .next (live s (s.when (s.hasSlot && !s.isOrigin && !s.azf.harvSeen)
    ((s.toInstant (440 + 34 * s.originDist)).harvestOwn)))

/-- A Harvest frame passes the cell: in its direction of harvest the first one with the tag of the tick takes the cell's
slot; any other is relayed unchanged. One of either direction counts as the Harvest Start awaited (R95).
DESIGN CHOICE (log 22, 82). -/
def State.harvestPass (s : State) (n : Nat) (f : Frame) : State :=
  let m := 1 - n
  let take := s.hasSlot && s.harvLane == m && fTick f == s.tick16
  let s : State := { s with azf := { s.azf with harvSeen := s.azf.harvSeen || fTick f == s.tick16 } }
  if !take then s.passOn n m false f
  else
    let (app, s) := s.fresh 48
    let ok := fCrcOk f
    let b := overlay (stripCrc f) 10 (bytesBE 2 (fCnt f + 1)) ++ s.slot (!ok) app
    let s : State := { s with azf := { s.azf with slotSent := true } }
    s.passOn n m true (reseal ok b)

/-- HARVEST_FRAME_RELAY (R95). -/
def execHarvestFrameRelay (n : Fin 20) (f : Frame) (s : State) : Host.Outcome State Fault Refusal :=
  .next (live s (s.when (s.isK && s.azfOn && decide (n.val ≤ 1) && s.laneOk n && fKnown f && fType f == tyHarvest)
    (if tooLong f then s.badFrame n else s.harvestPass n f)))

/-! ### The decision (R133) -/

/-- The row from 5 on that a valid Down frame gives, and the state decided; 4 stands for Hold (R133). -/
def State.downRow (s : State) (f : Frame) : Nat × Nat :=
  let key := if dKsel f = 1 then s.get R.PWM_KDIS_KEY else s.get R.PWM_KCH_KEY
  if (dHolds f).contains s.nodeId then (5, 4)
  else if s.cstate = 0 then (6, 0)
  else if dLevel f = 0 then (7, 0)
  else if dLevel f < 0 ∧ s.on R.PWM_SCFG_FB = false then (8, 0)
  else if selected key s.nodeId (dThr f) (dTie f) then (9, if dLevel f < 0 then 2 else 1)
  else if dTrv f && dTrim f == s.nodeId then (10, 0)
  else (11, 0)

/-- The row of R133 that decides, and the state; 4 stands for Hold and 3 for all gates off. -/
def State.cellRow (s : State) : Nat × Nat :=
  match s.cell.cmd with
  | .none => (1, 4)
  | .repeat => (2, 4)
  | .down =>
    if s.cstate == 3 || s.cell.leavePend then (3, 3)
    else if s.bypReq || s.bypAux then (4, 0)
    else (s.cell.decRow, s.cell.decNext)

/-- A decided state with Hold made the state at the end of the current tick, an insertion as trim cell
included (R133). DEDUCED (log 48). -/
def State.heldCode (s : State) (c : Nat) : Nat := if c = 4 then s.appl else c

/-- PWM.IDEC shows the decision. -/
def State.showDecision (s : State) : State :=
  let (row, c) := s.cellRow
  ((s.put R.PWM_IDEC_ROW row).put R.PWM_IDEC_NEXT (s.heldCode c)).putB R.PWM_IDEC_TRIMP (row == 10)

/-! ### Down and Repeat at the cell -/

/-- RING and SRC of a frame are the cell's own ring and a Section of its own pair (R103). -/
def State.fromMyPair (s : State) (f : Frame) : Bool :=
  let p := nodePair s.ringId
  isCellId s.ringId && fRing f == s.ring && (fSrc f == 0x100 + 2 * p || fSrc f == 0x101 + 2 * p)

/-- The Mailbox frame by which a recovery cell acknowledges (R386). DEDUCED (log 83). -/
def State.recoveryAck (s : State) (dst : Nat) : State :=
  match s.azf.segRx with
  | Option.none => s
  | some r =>
    s.launch s.segLane (s.frame { s.hdr tyMailbox with src := s.ringId, dst := dst, ring := s.ring }
      (mailboxBody 0 (some r.seq) (bytesBE 1 (16 * (r.got - 1)))))

/-- A mailbox segment for this cell: accepted in order, delivered at the last (R104). -/
def State.segment (s : State) (f : Frame) : State :=
  let (i, last) := dSeg f
  let r := match s.azf.segRx with
    | some r => if r.seq = dMseq f then r else ⟨dMseq f, 0, [], false⟩
    | Option.none => ⟨dMseq f, 0, [], false⟩
  let ok := !r.done && i == r.got
  let r' : SegRx := if ok then { r with got := i + 1, data := r.data ++ dData f, done := i == last } else r
  let s : State := { s with azf := { s.azf with segRx := some r' } }
  if !ok then s
  else
    let s := if r'.done then s.keep 0 2 0x34 0 r'.data else s
    if s.imgFail then
      ({ s with cell := { s.cell with recAck := r'.done } } : State).recoveryAck (fSrc f)
    else s

/-- The mailbox part of a valid Down frame addressed to this cell; an empty segment that carries an
acknowledgement is only that. DESIGN CHOICE (log 23). -/
def State.downMail (s : State) (f : Frame) : State :=
  if dMdst f != s.ringId || !s.takesPart then s
  else
    let s : State := match dAck f with
      | some q => { s with azf := { s.azf with outbox := s.azf.outbox.filter (fun m => m.seq != q) } }
      | Option.none => s
    if dData f = [] ∧ (dAck f).isSome = true then s else s.segment f

/-- The command part of a valid Down frame: the decision for the next Strike (R133, R134). -/
def State.downDecide (s : State) (f : Frame) : State :=
  let (row, next) := s.downRow f
  let s : State := { s with cell := { s.cell with
    cmd := .down, decRow := row, decNext := next, planNeg := decide (dLevel f < 0), planToff := dToff f,
    planIarm := dIarm f } }
  s.showDecision

/-- SPLIT of a valid Down or Repeat frame is taken (R94, R101), and the command counts as received. -/
def State.takeSplit (s : State) (f : Frame) : State :=
  let s := (s.put R.AZF_SPLIT_SVALID 1).put R.AZF_SPLIT_SPLIT (dSplit f % 128)
  { s with azf := { s.azf with cmdSeen := true } }

/-- A valid Down or Repeat frame of the tick is complete at the cell, whoever it is for (R102). -/
def State.sawCopy (s : State) (ok : Bool) : State :=
  s.when (s.isK && ok) { s with azf := { s.azf with copySeen := true } }

/-- A Down or Repeat frame complete before Eve at a cell it is for (R40, R100, R103). -/
def State.cmdOk (s : State) (f : Frame) : Bool :=
  s.isK && decide (s.tickNs < s.eveNs) && s.fromMyPair f && decide (f.length = 96) && !s.azf.cmdSeen

/-- DOWN_FRAME_RECEIVE (R40). DEDUCED (log 83). -/
def execDownFrameReceive (n : Fin 20) (f : Frame) (s : State) : Host.Outcome State Fault Refusal :=
  .next (live s (s.onFrame n tyDown f (fun s =>
    let s := s.sawCopy (downOk f)
    s.when (s.cmdOk f && downOk f) (
    let s := s.takeSplit f
    let again := s.imgFail && s.cell.recAck
    let s : State := { s with cell := { s.cell with recAck := false } }
    let s := if again then s.recoveryAck (fSrc f) else s
    let s := s.downMail f
    if s.idValid then s.downDecide f else s))))

/-- REPEAT_FRAME_RECEIVE (R49). -/
def execRepeatFrameReceive (n : Fin 20) (f : Frame) (s : State) : Host.Outcome State Fault Refusal :=
  .next (live s (s.onFrame n tyRepeat f (fun s =>
    let s := s.sawCopy (decide (f.length = 96))
    s.when (s.cmdOk f) (
    let s := s.takeSplit f
    if s.idValid then ({ s with cell := { s.cell with cmd := .repeat } } : State).showDecision else s))))

/-! ### The cell at the Strike -/

/-- Entry to Orphan (R52, R247, R332). -/
def State.orphan (s : State) : State :=
  if s.cstate = 3 then s
  else ((s.put R.TCK_STAT_CSTATE 3).setByp 0 true).fcuEvent 0x11

/-- A Rejoin takes effect: Await with gates off, the ORPH source cleared (R53). -/
def State.rejoined (s : State) : State :=
  ((s.put R.TCK_STAT_CSTATE 0).put R.TCK_HOLD_HCNT 0).setByp 0 false

/-- The hold count of the Strike that ends a tick with the command `cmd`; a cell without a confirmed NodeID is in Await unless it is Orphan (R51, R52,
R110). DEDUCED (log 48). -/
def State.holdCount (s : State) (cmd : CellCmd) : State :=
  let cs := s.cstate
  if !s.idValid then (if cs = 3 then s else s.put R.TCK_STAT_CSTATE 0)
  else match cmd with
  | .none =>
    if cs = 1 ∨ cs = 2 then
      let n := s.get R.TCK_HOLD_HCNT + 1
      if s.get R.TCK_HOLD_HOLDLIM < n then s.orphan
      else (s.put R.TCK_HOLD_HCNT n).put R.TCK_STAT_CSTATE 2
    else s
  | .repeat => (s.put R.TCK_HOLD_HCNT 0).put R.TCK_STAT_CSTATE (if cs = 2 then 1 else cs)
  | .down => (s.put R.TCK_HOLD_HCNT 0).put R.TCK_STAT_CSTATE (if cs = 3 then 3 else 1)

/-- The cell applies at the Strike what it decided (R133 to R135, R52, R53). DEDUCED (log 48, 50). -/
def State.cellStrike (s : State) : State :=
  let (row, code) := s.cellRow
  let old := s.cell
  let back := old.rejoinPend && s.cstate == 3
  let s : State := { s with cell := { old with
    cmd := .none, leavePend := false, rejoinPend := false, trim := false, trimDue := false, trimRes := Option.none } }
  let s := if old.leavePend then s.orphan else s
  let s := if back then s.rejoined else s.holdCount old.cmd
  let off := s.cstate == 3 || (s.cstate == 0) || !s.idValid || s.cell.reversed
  let next := if back || off then 3 else s.heldCode code
  let trim := row == 10 && !back && !off
  let s := ((s.put R.PWM_IDEC_ROW row).put R.PWM_IDEC_NEXT next).putB R.PWM_IDEC_TRIMP trim
  let resid := s.get R.PWM_IRES_RESID
  let s := s.strikeTransition next
  let s := s.put R.PWM_ITOFF_TOFF (if trim then s.cell.planToff else 0)
  { s with cell := { s.cell with
    insNow := s.insCode, ins := s.insCode != 0 || trim, trimd := old.trim, residNow := if old.trim then resid else 0,
    miss := old.cmd == .none, vcapOk := false, aux := Option.none
    trim := trim, trimDue := trim, trimNeg := s.cell.planNeg, trimIarm := s.cell.planIarm } }

/-! ### Leave and Rejoin -/

/-- A Rejoin at the cell: it cancels a pending Leave, ends Orphan at the next Strike, and has no effect
otherwise (R53). -/
def State.rejoin (s : State) : State :=
  if !s.isK then s
  else if s.cell.leavePend then ({ s with cell := { s.cell with leavePend := false } } : State).showDecision
  else s.when (s.cstate == 3) { s with cell := { s.cell with rejoinPend := true } }

/-- LEAVE_MESSAGE (R147). -/
def execLeaveMessage (s : State) : Host.Outcome State Fault Refusal := .next (live s s.leave)

/-- REJOIN_MESSAGE (R53). -/
def execRejoinMessage (s : State) : Host.Outcome State Fault Refusal := .next (live s s.rejoin)

/-- ICMD_LEAVE (R151). -/
def execIcmdLeave (s : State) : Host.Outcome State Fault Refusal := .next (live s (s.cmd 0x14 s.leave))

/-- ICMD_REJOIN (R151). -/
def execIcmdRejoin (s : State) : Host.Outcome State Fault Refusal := .next (live s (s.cmd 0x14 s.rejoin))

end Sys2Proof.Machine
end

