-- ==== Sys2Proof/Machine/Tbs.lean ====
section
/-! DEFINITION. The timebase: servo, step refusal and acceptance, holdover and captures (R268 to R281). -/

namespace Sys2Proof.Machine

/-- TBS.CFG.SRC. -/
def State.tbsSrc (s : State) : Nat := s.get R.TBS_CFG_SRC

/-- FM of R275: FMAX ppm in FADJ units; 0 acts as 1 and above 400 as 400. -/
def State.tbsFm (s : State) : Int :=
  let f := min 400 (max 1 (s.get R.TBS_FMAX_FMAX))
  ((f * 43980465 / 10 : Nat) : Int)

/-- `i` limited to -m to m. -/
def clampInt (m i : Int) : Int := if i < -m then -m else if i > m then m else i

/-- JUMPLIM in 1/256 ns; 0 acts as 1 (R276). -/
def State.tbsJump (s : State) : Int := ((max 1 (s.get R.TBS_CFG_JUMPLIM) * 256000 : Nat) : Int)

/-- HOLDTMO in ns; 0 acts as 1 (R278). -/
def State.tbsTimeout (s : State) : Nat := max 1 (s.get R.TBS_CFG_HOLDTMO) * 100000000

/-- In HOLD and REFUSED, FADJ equals the integral term, clamped (R274); `flt` is the flag of its cause, raised in the same
cycle. -/
def State.tbsCoast (s : State) (flt : Nat) : State :=
  let i := s.getS R.TBS_FINT_VAL
  let a := clampInt s.tbsFm i
  (s.putS R.TBS_FADJ_VAL a).raiseFlts 6 (flt :: chosen [(a != i, Flt.TBS_FSAT)])

/-- No run of refused offsets is under way (R277). -/
def State.tbsUnref (s : State) : State := { s with tbs := { s.tbs with lastRef := Option.none, confirm := 0 } }

/-- The servo's law for an accepted offset (R275). -/
def State.tbsServo (s : State) (o : Int) : State :=
  let fm := s.tbsFm
  let i0 := s.getS R.TBS_FINT_VAL - o * s.get R.TBS_GAIN_GI
  let i := clampInt fm i0
  let a0 := i - o * s.get R.TBS_GAIN_GP
  let a := clampInt fm a0
  let s := (s.putS R.TBS_FINT_VAL i).putS R.TBS_FADJ_VAL a
  let s := s.tbsUnref
  (s.put R.TBS_STA_STATE 2).raiseIf (i != i0 || a != a0) 6 Flt.TBS_FSAT

/-- A step of system time by the offset `o`, counted, to TRACK (R276, R277). -/
def State.tbsAccept (s : State) (o : Int) : State :=
  (((s.tbsStep o).incSat R.TBS_CNT_STEPC).put R.TBS_STA_STATE 2).tbsUnref

/-- An offset refused: PEND follows it, and three consecutive refused offsets within 100 ns of one
another are accepted where AUTOACC is set (R276, R277). -/
def State.tbsPend (s : State) (o : Int) : State :=
  let s := s.put R.TBS_PEND_PEND (ofSigned 64 o)
  let near := match s.tbs.lastRef with
    | some p => decide ((o - p).natAbs ≤ 25600)
    | Option.none => false
  let n := if near then s.tbs.confirm + 1 else 1
  let s : State := { s with tbs := { s.tbs with lastRef := some o, confirm := n } }
  if s.on R.TBS_CFG_AUTOACC && decide (3 ≤ n) then s.tbsAccept o else s

/-- The refusal of an offset in TRACK or HOLD (R276). DEDUCED (log 155). -/
def State.tbsRefuse (s : State) (o : Int) : State :=
  let s := s.fcuEvent 0x0C
  (((s.incSat R.TBS_CNT_REFC).put R.TBS_STA_STATE 4).tbsCoast Flt.TBS_JREF).tbsPend o

/-- An offset handled by the servo in its state (R274). -/
def State.tbsHandle (s : State) (o : Int) : State :=
  let s : State := { s with tbs := { s.tbs with sinceOfs := 0 } }
  match s.get R.TBS_STA_STATE with
  | 0 => ((s.tbsStep o).tbsUnref).put R.TBS_STA_STATE 2
  | 2 | 3 => if decide ((o.natAbs : Int) ≤ s.tbsJump) then s.tbsServo o else s.tbsRefuse o
  | 4 => s.tbsPend o
  | _ => s

/-- An offset delivered by firmware: applied only with SRC 00, else kept in TBS.MON (R273). -/
def State.tbsDeliver (s : State) (o : Int) : State :=
  if !s.en 6 then s
  else if s.tbsSrc = 0 then s.tbsHandle o
  else s.putS R.TBS_MON_MON (satSigned 32 o)

/-- A node with SRC = 01 delivers the offset formed under R279. -/
def State.tbsNode (s : State) (o : Int) : State :=
  s.when (s.en 6 && s.tbsSrc == 1) (s.tbsHandle o)

/-- The capture of system time by SNAP (R270). -/
def State.tbsSnap (s : State) : State :=
  let u := s.tbsNow
  ((s.put R.TBS_SNAPS_SEC (secOf u)).put R.TBS_SNAPN_NS (nsOf u)).put R.TBS_SNAPF_SUB (subOf u)

/-- The capture of system time at every local Strike, in the phase in which it comes (R269, R270). -/
def State.tbsStrike (s : State) : State :=
  let u := s.tbsAt (4 * s.tbs.rem + s.tck.frac / 2 ^ 38)
  (((s.put R.TBS_STRKS_SEC (secOf u)).put R.TBS_STRKN_NS (nsOf u)).put R.TBS_STRKF_SUB (subOf u)).put
    R.TBS_STRKF_TICK s.tick16

/-- What a commit of TBS.CFG.SRC does to the servo state, given SRC before it (R274, R278).
DEDUCED (log 155). -/
def State.tbsSrcChange (s : State) (old : Nat) : State :=
  let new := s.tbsSrc
  if new = old then s
  else if 2 ≤ new then s.tbsUnref.put R.TBS_STA_STATE 1
  else match s.get R.TBS_STA_STATE with
    | 0 => s
    | 1 => s.tbsUnref.put R.TBS_STA_STATE 0
    | _ => s.tbsUnref.put R.TBS_STA_STATE 2

/-- TFLG.HOLDOVER as the active Conductor sets it (R280). -/
def State.tbsHoldover (s : State) : Bool := s.get R.TBS_STA_STATE != 2 || decide (2 ≤ s.tbsSrc)

/-- The low word of TBS.OFSIN written: it is applied with the pending high word, and the 64-bit value
is delivered as one offset (R11, R273). -/
def State.ofsinWrite (s : State) (v : Nat) : State :=
  let a := R.TBS_OFSIN_OFS.word
  let hi := alGet s.pendHigh a (s.get R.TBS_OFSIN_OFS / 2 ^ 32)
  let o := hi * 2 ^ 32 + v % 2 ^ 32
  let s := s.put R.TBS_OFSIN_OFS o
  ({ s with pendHigh := alPut s.pendHigh a hi }).tbsDeliver (toSigned 64 o)

/-- OFFSET_DELIVERY (R273). -/
def execOffsetDelivery (v : W32) (s : State) : Host.Outcome State Fault Refusal :=
  .next (live s (s.cmd 6 (s.ofsinWrite v.toNat)))

/-- ACCEPT or RESUME outside REFUSED changes nothing and sets TBS.STA.CMDREF (R276). -/
def State.tbsCommand (s t : State) : State :=
  if s.get R.TBS_STA_STATE = 4 then t else s.put R.TBS_STA_CMDREF 1

/-- The action of TBS.CMD.ACCEPT. -/
def State.tbsAcceptCmd (s : State) : State := s.tbsCommand (s.tbsAccept (toSigned 64 (s.get R.TBS_PEND_PEND)))

/-- The action of TBS.CMD.RESUME: PEND is discarded and TRACK entered without a step. DEDUCED (log 155). -/
def State.tbsResumeCmd (s : State) : State :=
  s.tbsCommand ((s.put R.TBS_PEND_PEND 0).put R.TBS_STA_STATE 2).tbsUnref

/-- ACCEPT (R276). -/
def execAccept (s : State) : Host.Outcome State Fault Refusal := .next (live s (s.cmd 6 s.tbsAcceptCmd))

/-- RESUME (R276). -/
def execResume (s : State) : Host.Outcome State Fault Refusal := .next (live s (s.cmd 6 s.tbsResumeCmd))

/-- SNAP (R270). -/
def execSnap (s : State) : Host.Outcome State Fault Refusal := .next (live s (s.cmd 6 s.tbsSnap))

/-- TBS.CMD.CCLR. -/
def State.tbsClear (s : State) : State := s.zero [R.TBS_CNT_REFC, R.TBS_CNT_STEPC]

/-- TBS_COUNTER_CLEAR (R290). -/
def execTbsCounterClear (s : State) : Host.Outcome State Fault Refusal := .next (live s (s.cmd 6 s.tbsClear))

/-- The expiry of HOLDTMO in TRACK (R278). -/
def State.tbsHold (s : State) : State :=
  s.when (s.en 6 && s.get R.TBS_STA_STATE == 2 && decide (s.tbsTimeout ≤ s.tbs.sinceOfs))
    ((s.put R.TBS_STA_STATE 3).tbsCoast Flt.TBS_HTMO)

/-- HOLD_TIMEOUT (R278), `dt` ns after the previous command: HOLD when no offset has come for
HOLDTMO. -/
def execHoldTimeout (dt : Nat) (s : State) : Host.Outcome State Fault Refusal :=
  .next (live s (s.elapse dt).tbsHold)

end Sys2Proof.Machine
end

