-- ==== Sys2Proof/Machine/Rse.lean ====
section
/-! DEFINITION. The Section's account of its arms: the slots and key extracts it accepts, breaks and SPLIT,
the level count, rank selection, the residue, and the losses (R94 to R98, R112, R127 to R150). -/

namespace Sys2Proof.Machine

/-! ### Rings, arms, cell table -/

/-- The arm that owns a ring (R30). PRESUMED (log 79). -/
def armOf (r : Nat) : Nat := if Config.twoArm && decide (8 ≤ r) then 1 else 0

/-- The arms of the Section's arm mode. -/
def arms : List Nat := if Config.twoArm then [0, 1] else [0]

/-- Entry `i` of the cell table, 64 x ring + position. -/
def State.ent (s : State) (i : Nat) : CellEnt := alGet s.rse.cells i CellEnt.init

/-- Entry `i` of the cell table replaced. -/
def State.setEnt (s : State) (i : Nat) (e : CellEnt) : State :=
  { s with rse := { s.rse with cells := alPut s.rse.cells i e } }

/-- RSE instance `a`. -/
def State.inst (s : State) (a : Nat) : RseInst := nth s.rse.inst a RseInst.init

/-- RSE instance `a` replaced. -/
def State.setInst (s : State) (a : Nat) (x : RseInst) : State :=
  { s with rse := { s.rse with inst := setNth s.rse.inst a x RseInst.init } }

/-- The configured length of a ring: positions present in the map. -/
def State.ringLen (s : State) (r : Nat) : Nat :=
  ((List.range 64).filter (fun p => (s.ent (64 * r + p)).pres)).length

/-- The rings of an arm that the map fills. -/
def State.armRings (s : State) (a : Nat) : List Nat :=
  (List.range 16).filter (fun r => armOf r == a && s.ringLen r != 0)

/-- The confirmed cells of an arm, by index. -/
def State.armCells (s : State) (a : Nat) : List Nat := s.azf.conf.filter (fun i => armOf (i / 64) == a)

/-- The index of a cell of this pair in the table, if a NodeID names one. -/
def State.cellIdx (s : State) (node : Nat) : Option Nat :=
  if isCellId node && nodePair node == s.pair then some (node % 1024) else Option.none

/-- The active Section of its pair. -/
def State.actS (s : State) : Bool := s.isS && s.active && s.azfOn

/-- RSE instance `a` is enabled. -/
def State.rseEn (s : State) (a : Nat) : Bool := s.runs 0x0F && s.on (R.RSE_CFG_EN a)

/-- The arms that have a Decide phase in a tick, as the state of the member says (R38). -/
def State.decideArms (s : State) : Nat :=
  (arms.filter (fun a => s.isS && s.active && s.rseEn a)).foldl (fun m a => m + 2 ^ a) 0

/-- The partner lane that carries the relay of a ring: the one R27 assigns, or the remaining one.
DEDUCED (log 80). -/
def State.partnerLane (s : State) (r : Nat) : Option Nat :=
  let a := if r < 8 then 16 else 17
  if s.laneOk a then some a else if s.laneOk (33 - a) then some (33 - a) else Option.none

/-! ### Breaks and SPLIT (R112, R140) -/

/-- The breaks of a ring: break b lies between positions b - 1 and b. DEDUCED (log 80). -/
def State.breaks (s : State) (r : Nat) : List Nat :=
  let n := s.ringLen r
  let own := if s.inSvc r then [] else [if s.sideB then n else 0]
  let far := if (s.partnerLane r).isSome && !s.azf.partnerOut.contains r then [] else [if s.sideB then 0 else n]
  own ++ far ++ (List.range n).flatMap (fun p =>
    let e := s.ent (64 * r + p)
    (if e.l0dn then [p] else []) ++ (if e.l1dn then [p + 1] else []))

/-- SPLIT of a ring (R112); in the tick of its yield a Section forms it as if its partner were active
(R327). DEDUCED (log 95). -/
def State.splitOf (s : State) (r : Nat) : Nat :=
  let n := s.ringLen r
  match s.breaks r with
  | [] => if s.sideB != s.red.yieldReq then n / 2 else (n + 1) / 2
  | b :: t => t.foldl min b

/-- Position `p` of a ring is connected to an end (R140). -/
def State.reachable (s : State) (i : Nat) : Bool :=
  let b := s.breaks (i / 64)
  b.all (fun x => decide (i % 64 < x)) || b.all (fun x => decide (x ≤ i % 64))

/-- AZF.RINGSTA of a ring replaced: 0 not enumerated, 1 intact, 2 folded, 3 refused. -/
def State.setRing (s : State) (r v : Nat) : State :=
  let w := s.get R.AZF_RINGSTA_RSr
  s.put R.AZF_RINGSTA_RSr (w - bitsOf w (2 * r) 2 * 2 ^ (2 * r) + v * 2 ^ (2 * r))

/-- AZF.RINGSTA follows the breaks of the enumerated rings. -/
def State.ringFold (s : State) : State :=
  forUpTo 16 (fun r x =>
    let v := bitsOf (x.get R.AZF_RINGSTA_RSr) (2 * r) 2
    if v = 1 ∨ v = 2 then x.setRing r (if x.breaks r = [] then 1 else 2) else x) s

/-! ### Slots and key extracts -/

/-- What an accepted full slot says beside the tick's input: link state, state, bypass run. A cell that has reported
BYPASSED for 1,000 of them is permanently bypassed until it shows that it has rejoined: Await after Orphan (R53, R112,
R145). DEDUCED (log 98). -/
def State.noteSlot (s : State) (i : Nat) (c : CellIn) : State :=
  let e := s.ent i
  let st := fieldBE c.bytes 10 2
  let byp := if c.bypassed then e.byp + 1 else 0
  s.setEnt i { e with
    cstate := c.cstate, l0dn := bitOf st 6, l1dn := bitOf st 5, byp := byp
    gone := (e.gone && !(e.cstate == 3 && c.cstate == 0)) || decide (1000 ≤ byp) }

/-- The acknowledgement a slot carries advances the message in progress to that cell (R104).
DEDUCED (log 98). -/
def State.noteAck (s : State) (node : Nat) (b : List Byte) : State :=
  let k := fieldBE b 31 1
  let f (m : SegTx) : SegTx :=
    if m.dst == node && bitOf k 3 && m.seq == fieldBE b 30 1 && decide (m.acked < k / 16 + 1) then
      { m with acked := k / 16 + 1, stall := 0, next := max m.next (k / 16 + 1) } else m
  let l := (s.azf.segTx.map f).filter (fun m => decide (16 * m.acked < max 1 m.data.length))
  { s with azf := { s.azf with segTx := l } }

/-- A slot or key extract counts for this tick: the second one of a cell rejects both (R96). -/
def State.take (s : State) (i : Nat) (c : CellIn) : State :=
  if s.rse.dup.contains i then s.incSat R.AZF_RXERR_SLOT
  else if alHas s.rse.acc i then
    ({ s with rse := { s.rse with acc := alDel s.rse.acc i, dup := i :: s.rse.dup } } : State).addSat
      R.AZF_RXERR_SLOT 2
  else { s with rse := { s.rse with acc := alPut s.rse.acc i c } }

/-- A slot passes R96 apart from the cut-off: its cell's index. -/
def State.slotPass (s : State) (ring : Nat) (b : List Byte) : Option Nat :=
  match s.cellIdx (slotNode b) with
  | Option.none => Option.none
  | some i =>
    if slotOk b s.tick16 && i / 64 == ring && s.azf.conf.contains i then some i else Option.none

/-- An instant `after` bytes before now, in 10 ps of the tick: a frame byte lasts 32 of them (R60). -/
def State.bytesAgo (s : State) (after : Nat) : Int := 100 * s.tickNs - 32 * after

/-- What arrived `after` bytes before now came before the harvest cut-off (R38). -/
def State.beforeCut (s : State) (after : Nat) : Bool := decide (s.bytesAgo after < 100 * s.cutNs)

/-- One slot of a received Harvest frame, of which `after` bytes followed it (R96). DEDUCED (log 49, 98). -/
def State.slotTake (s : State) (ring : Nat) (b : List Byte) (after : Nat) : State :=
  match s.slotPass ring b with
  | Option.none => s.badSlot (!slotCrcOk b)
  | some i =>
    if s.active && !s.beforeCut after then s.incSat R.AZF_RXERR_SLOT
    else if s.rse.dup.contains i || alHas s.rse.acc i then s.take i (slotIn b)
    else ((s.take i (slotIn b)).noteSlot i (slotIn b)).noteAck (slotNode b) b

/-- A frame of this Section for the partner (R97, R98). -/
def State.toPartner (s : State) (ty ring cnt : Nat) (body : List Byte) : Frame :=
  s.frame { s.hdr ty with dst := s.partnerId, arm := armOf ring, ring := ring, cnt := cnt } body

/-- The standby keeps in the Frame Pool, for its partner, one Key extract frame with the key extracts of the slots of a
Harvest frame that pass; `after` are the bytes of the frame that followed its first slot that passes. It waits in the order
of the first extracts, and its transmission ends with the Harvest frame (R97). DEDUCED (log 24). -/
def State.forwardExtracts (s : State) (ring after : Nat) (l : List (List Byte)) : State :=
  match s.partnerLane ring with
  | Option.none => s
  | some p => s.when (l != []) (s.enqueue
      { s.entry p true false (s.toPartner tyExtract ring l.length (l.flatMap extractOf)) with
        came := s.now10 - 32 * after, whole := s.now10 })

/-- The member forwards key extracts and slot copies (R317). -/
def State.forwards (s : State) : Bool :=
  s.isS && (s.get R.RED_STA_STATE == 0 || s.get R.RED_STA_STATE == 2 || s.get R.RED_STA_STATE == 3)

/-- A Harvest frame at a Section takes its buffers until the drain, and each slot stands for itself, whatever the frame's
CRC (R96, R120). DEDUCED (log 24). -/
def State.harvestIn (s : State) (f : Frame) : State :=
  let ok := fCrcOk f
  let s := if ok then s else s.badCrc
  if ok && fTick f != s.tick16 then s.incSat R.AZF_TAGERR_STALE
  else
    match s.hold 0 0 f with
    | (s, Option.none) => s
    | (s, some _) =>
      let l := frameSlots f
      let ok (b : List Byte) : Bool := (s.slotPass (fRing f) b).isSome
      let after := 4 + 48 * ((l.dropWhile (fun b => !ok b)).length - 1)
      let pass := l.filter ok
      let s := forEach ((List.range l.length).zip l) (fun e x =>
        x.slotTake (fRing f) e.2 (4 + 48 * (l.length - 1 - e.1))) s
      if s.forwards then s.forwardExtracts (fRing f) after pass else s

/-- HARVEST_FRAME_RECEIVE (R96). -/
def execHarvestFrameReceive (n : Fin 20) (f : Frame) (s : State) : Host.Outcome State Fault Refusal :=
  .next (live s (s.when (s.isS && s.azfOn && s.lock && decide (n.val < 16) && s.laneOk n)
    (if tooLong f then s.badFrame n
     else if fKnown f && fType f == tyHarvest then s.harvestIn f else s)))

/-- One key extract of the partner, of whose frame `after` bytes followed it. DEDUCED (log 49). -/
def State.extractTake (s : State) (ring : Nat) (b : List Byte) (after : Nat) : State :=
  match s.cellIdx (slotNode b) with
  | Option.none => s
  | some i => s.when (i / 64 == ring && s.azf.conf.contains i && s.beforeCut after) (s.take i (extractIn b))

/-- KEY_EXTRACT_RECEIVE (R97). -/
def execKeyExtractReceive (n : Fin 20) (f : Frame) (s : State) : Host.Outcome State Fault Refusal :=
  .next (live s (s.when (s.actS && (n.val == 16 || n.val == 17)) (s.onFrame n tyExtract f (fun s =>
    s.when (fSrc f == s.partnerId) (
      let l := frameExtracts f
      forEach ((List.range l.length).zip l) (fun e x =>
        x.extractTake (fRing f) e.2 (4 + 8 * (l.length - 1 - e.1))) s)))))

/-- SLOT_COPY_SEND (R98): the accepted full slots of each ring, in telemetry class. -/
def State.slotCopies (s : State) : State :=
  forUpTo 16 (fun r x =>
    let l := (x.rse.acc.filter (fun p => p.1 / 64 == r && p.2.full)).map (fun p => p.2.bytes)
    match x.partnerLane r with
    | Option.none => x
    | some p => x.when (l != []) (x.launch p (x.toPartner tySlotCopy r l.length l.flatten))) s

/-- SLOT_COPY_SEND (R98). -/
def execSlotCopySend (s : State) : Host.Outcome State Fault Refusal :=
  .next (live s (s.when (s.forwards && s.lock) s.slotCopies))

/-- One slot of a slot copy: kept for the Decide of the next tick (R127, R136). -/
def State.copyIn (s : State) (ring : Nat) (b : List Byte) : State :=
  match s.slotPass ring b with
  | Option.none => s.badSlot (!slotCrcOk b)
  | some i =>
    if alHas s.rse.copies i then s
    else
      let s : State := { s with rse := { s.rse with copies := alPut s.rse.copies i (slotIn b) } }
      (s.noteSlot i (slotIn b)).noteAck (slotNode b) b

/-- SLOT_COPY_RECEIVE (R127): a firmware-consumed type, whose VCAP and RESID the Section takes. -/
def execSlotCopyReceive (n : Fin 20) (f : Frame) (s : State) : Host.Outcome State Fault Refusal :=
  .next (live s (s.when (s.actS && (n.val == 16 || n.val == 17)) (s.onFrame n tySlotCopy f (fun s =>
    s.when (fSrc f == s.partnerId) (
      let s := forEach (frameSlots f) (fun b x => x.copyIn (fRing f) b) s
      s.keep n 3 (0x20 + n) (tySlotCopy * 2 ^ 16) f)))))

/-! ### Expectation and Decide begin (R38) -/

/-- Every slot and key extract expected of an arm has arrived. -/
def State.allIn (s : State) (a : Nat) : Bool :=
  (s.armCells a).all (fun i => !s.reachable i || alHas s.rse.acc i)

/-- An arm expects none in the tick. -/
def State.expectsNone (s : State) (a : Nat) : Bool := (s.armCells a).all (fun i => !s.reachable i)

/-! ### Accounting (R138 to R146) -/

/-- The state a slot or key extract shows: +1, -1 or 0. -/
def stOf (code : Nat) : Int := if code = 1 then 1 else if code = 2 then -1 else 0

/-- The state actually applied at the Strike, as reported (R144). -/
def CellIn.applied (c : CellIn) : Int := stOf c.ins

/-- The accounted state from an accepted slot (R138, R145). -/
def State.settled (s : State) (a i : Nat) (c : CellIn) : Int :=
  let x := s.inst a
  if c.kst = 3 then 0
  else if cellId s.pair i = x.trimNow ∧ x.dirs.headD 0 ≠ 0 then x.dirs.headD 0
  else c.applied

/-- A cell of the arm is accounted from this tick's input, or as lost (R138, R140, R141).
DEDUCED (log 48, 94). -/
def State.account (s : State) (a i : Nat) : State :=
  let e := s.ent i
  let e := if e.left then { e with est := 0 } else e
  match alGet (s.rse.acc.map (fun p => (p.1, some p.2))) i Option.none with
  | some c =>
    let again := e.left && (if c.full then c.cstate != 3 else c.kst != 3)
    let e := { e with est := s.settled a i c, lost := 0, away := 0, unreach := false }
    s.setEnt i (if again then { e with left := false, leaveSent := false, leaveAgain := true }
      else if c.kst != 3 then { e with leaveSent := false } else e)
  | Option.none =>
    let e := { e with lost := min 0xFFFF (e.lost + 1) }
    if s.reachable i then s.setEnt i { e with away := 0, unreach := false }
    else if s.get R.TCK_HOLD_HOLDLIM < e.away + 1 then
      s.setEnt i { e with away := e.away + 1, unreach := true, est := 0 }
    else s.setEnt i { e with away := e.away + 1 }

/-- The cells of an arm that were not accepted and are reachable, by ring: those to be named Hold (R138). -/
def State.lostOf (s : State) (r : Nat) : List Nat :=
  s.azf.conf.filter (fun i => i / 64 == r && !alHas s.rse.acc i && s.reachable i)

/-- The rings of an arm held as a whole (R139). -/
def State.ringHolds (s : State) (a : Nat) : List Nat :=
  (s.armRings a).filter (fun r => decide (16 < (s.lostOf r).length))

/-- The accepted cells of an arm whose KST is not 11 (NACC of R127). -/
def State.naccOf (s : State) (a : Nat) : List (Nat × CellIn) :=
  s.rse.acc.filter (fun p => armOf (p.1 / 64) == a && p.2.kst != 3)

/-- VCAP of a cell for the tick: its near-half slot, or the slot copy of the previous tick (R127). -/
def State.vcapOf (s : State) (p : Nat × CellIn) : Option Nat :=
  if p.2.full then some p.2.vcap
  else (alGet (s.rse.prev.map (fun q => (q.1, some q.2))) p.1 Option.none).map CellIn.vcap

/-- The sum of the accounted states of the cells that satisfy `p`. -/
def State.estSum (s : State) (l : List Nat) (p : Nat → Bool) : Int :=
  (l.filter p).foldl (fun a i => a + (s.ent i).est) 0

/-- The counts of an arm's Report (R107), with NINS, NCAND and NHOLD as given; without an accepted VCAP the spec states no
VMIN and VMAX. DESIGN CHOICE (log 268). -/
def State.reportOf (s : State) (a : Nat) (nins : Int) (ncand nhold : Nat) : ArmRep :=
  let v := (s.naccOf a).filterMap s.vcapOf
  let cells := s.armCells a
  { nins := nins, vsum := v.foldl (fun x y => x + y) 0, vmin := match v with
      | [] => 0
      | x :: t => t.foldl min x
    vmax := v.foldl max 0, ncand := ncand, nlost := (cells.filter (fun i => !alHas s.rse.acc i)).length,
    nhold := nhold
    norph := (cells.filter (fun i => (s.ent i).unreach || (s.ent i).left ||
      (alHas s.rse.acc i && (s.ent i).cstate == 3))).length
    nbyp := (cells.filter (fun i => (s.ent i).gone)).length }

/-! ### Residue (R136, R144) -/

/-- ε: the state applied at the Strike less LEVEL + h, without the trim cell (R143, R144).
DEDUCED (log 92). -/
def State.epsilon (s : State) (a : Nat) : Option Int :=
  let x := s.inst a
  x.expNow.map (fun e =>
    (s.armCells a).foldl (fun t i =>
      if cellId s.pair i = x.trimNow then t
      else t + (match alGet (s.rse.acc.map (fun p => (p.1, some p.2))) i Option.none with
        | some c => c.applied
        | Option.none => (s.ent i).est)) 0 - e)

/-- The trim residues that reach this Decide, in Q12.20: near-half slots of this tick, far-half slot copies
of the last one (R136). DEDUCED (log 93). -/
def State.residues (s : State) (a : Nat) : Int :=
  let x := s.inst a
  let sum (l : List (Nat × CellIn)) (d : Int) : Int :=
    l.foldl (fun t p => if armOf (p.1 / 64) == a && p.2.full && p.2.trimd then t + d * (p.2.resid * 64) else t) 0
  sum s.rse.acc (nth x.dirs 1 0) + sum s.rse.prev (nth x.dirs 2 0)

/-- RHOMAX in Q12.20 levels. -/
def State.rhoMax (s : State) (a : Nat) : Int := (min 64 (max 1 (s.get (R.RSE_CFG_RHOMAX a))) : Nat) * 2 ^ 20

/-- Steps 1 to 3 of R136, with ε measured: the residue that enters N'. DEDUCED (log 92). -/
def State.residue (s : State) (a : Nat) : State × Int :=
  let x := s.inst a
  let eps := s.epsilon a
  let r := (if x.clr then 0 else x.rho) + s.residues a
  let r := if s.on (R.RSE_CFG_ECOMP a) then r - eps.getD 0 * 2 ^ 20 else r
  let r := clampInt (s.rhoMax a) r
  let nmiss := (s.rse.acc.filter (fun p => armOf (p.1 / 64) == a && p.2.full && p.2.miss)).length
  let s := s.setInst a { x with clr := false }
  let s := s.put (R.RSE_ERR_NMISS a) nmiss
  match eps with
  | Option.none => (s, r)
  | some e =>
    let s := s.putS (R.RSE_ERR_EPS a) e
    (if e = 0 then s else s.put (R.RSE_FLG_EPS a) 1, r)

/-! ### Level count and rank selection (R127 to R131) -/

/-- The fraction plans of R128. -/
inductive Plan where
  | carry | up | trim
  deriving DecidableEq, Repr

/-- TPq at the Strike where the command applies (R128, R149). -/
def State.nextTpq (s : State) : Nat := if s.tck.tpLeft = 1 then 40 * s.get R.TCK_PNEW_PNEW else s.tpq

/-- The fraction `f` of a level, UQ0.20, quantised: plan, residual in Q12.20, TOFF (R128). -/
def fractionPlan (trimEn : Bool) (tpq pminq f : Nat) : Plan × Int × Nat :=
  let toff := ((2 ^ 20 - f) * tpq + 2 ^ 19) / 2 ^ 20
  let p := tpq - toff
  if !trimEn || decide (p < pminq) then (.carry, f, 0)
  else if toff < pminq then (.up, (f : Int) - 2 ^ 20, 0)
  else (.trim, divNear ((f : Int) * tpq - (p : Int) * 2 ^ 20) tpq, toff)

/-- One step of the bit-serial search for the key of rank `need`, from bit `b` down (R131). -/
def selKey (l : List (Nat × Nat)) : Nat → Nat → Nat → List (Nat × Nat) × Nat × Nat
  | 0, t, need => (l, t, need)
  | b + 1, t, need =>
    let ones := l.filter (fun c => bitOf c.1 b)
    if need ≤ ones.length then selKey ones b (t + 2 ^ b) need
    else selKey (l.filter (fun c => !bitOf c.1 b)) b t (need - ones.length)

/-- The search for the NodeID of rank `need` among equal keys (R131). -/
def selTie (l : List (Nat × Nat)) : Nat → Nat → Nat → Nat
  | 0, t, _ => t
  | b + 1, t, need =>
    let zeros := l.filter (fun c => !bitOf c.2 b)
    if need ≤ zeros.length then selTie zeros b t need
    else selTie (l.filter (fun c => bitOf c.2 b)) b (t + 2 ^ b) (need - zeros.length)

/-- select(m) over candidates (key, NodeID): threshold and tie (R131). -/
def selectRank (l : List (Nat × Nat)) (m : Nat) : Nat × Nat :=
  let (c, t, need) := selKey l 24 0 m
  (t, selTie c 14 0 need)

/-- KSEL (R130). -/
def kselOf (iarm sigma : Int) (idb old : Nat) : Nat :=
  if iarm.natAbs < 1000 * idb then old else if 0 ≤ iarm * sigma then 0 else 1

/-- What the registers of an instance show of the last command, in the order of `showLast` (R146, R150). -/
def State.lastShown (s : State) (a : Nat) : List Nat :=
  [R.RSE_THR_KSEL a, R.RSE_THR_TRV a, R.RSE_THR_THR a, R.RSE_IDS_TRIM a, R.RSE_IDS_TIE a, R.RSE_TOFF_TOFF a, R.RSE_LEV_NINS a,
    R.RSE_LEV_LEVEL a].map s.get

/-- The registers of an instance show a command again (R146). DEDUCED (log 97). -/
def State.showLast (s : State) (a : Nat) (l : List Nat) : State :=
  forEach ([R.RSE_THR_KSEL a, R.RSE_THR_TRV a, R.RSE_THR_THR a, R.RSE_IDS_TRIM a, R.RSE_IDS_TIE a, R.RSE_TOFF_TOFF a,
    R.RSE_LEV_NINS a, R.RSE_LEV_LEVEL a].zip l) (fun p x => x.put p.1 p.2) s

/-- The command of an arm (R127 to R131): `nf` levels are wanted, `rho` is the residue after step 3. With no
Vmean formed since enable KSEL stays and NPRIME is 0. DEDUCED (log 90). DESIGN CHOICE (log 272). -/
def State.command (s : State) (a : Nat) (nf rho : Int) (has : Bool) : ArmCmd × Int × Int × Bool × Nat :=
  let x := s.inst a
  let cells := s.armCells a
  let rhold := s.ringHolds a
  let inHold (i : Nat) := rhold.contains (i / 64)
  let lost := (s.armRings a).filterMap (fun r => if rhold.contains r then Option.none else some (r, s.lostOf r))
  let named := lost.flatMap (fun p => p.2)
  let h := s.estSum cells (fun i => inHold i || named.contains i ||
    (!alHas s.rse.acc i && !s.reachable i && !(s.ent i).unreach))
  let cand0 := (s.naccOf a).filter (fun p => !inHold p.1 && !(s.ent p.1).gone)
  let iarm := toSigned 32 (s.get (R.CLE_OUT_U (s.get (R.RSE_CFG_IARMSEL a))))
  let n' := if has then clampInt (1024 * 2 ^ 20) (nf + rho) else 0
  let sg : Int := if 0 ≤ n' then 1 else -1
  let f := n'.natAbs % 2 ^ 20
  let (plan, r, toff) := fractionPlan (s.on (R.RSE_CFG_TRIMEN a)) s.nextTpq
    (40 * max 1 (s.get (R.RSE_TRIM_PMIN a))) f
  let k0 : Nat := n'.natAbs / 2 ^ 20 + (if plan = .up then 1 else 0)
  let d : Int := if has then sg * k0 - h else 0
  let sigma : Int := if 0 ≤ d then 1 else -1
  let cand := if 0 ≤ sigma then cand0 else cand0.filter (fun p => (s.ent p.1).fb)
  let k := min d.natAbs cand.length
  let sat := decide (cand.length < d.natAbs)
  let level := sigma * k
  let stands := plan == .trim && has && level != 0 && sigma == sg && decide (k < cand.length) && !sat
  let r := if plan == .trim && !stands then (f : Int) else r
  let ksel := if has then kselOf iarm sigma (s.get (R.RSE_TRIM_IDB a)) x.ksel else x.ksel
  let pool := cand.map (fun p => (if ksel = 1 then p.2.kdis else p.2.kch, cellId s.pair p.1))
  let (thr, tie) := if k = 0 then (0xFFFFFF, 0) else selectRank pool k
  let trim := if stands then (selectRank pool (k + 1)).2 else 0
  let state (p : Nat × CellIn) : Nat × Int :=
    let id := cellId s.pair p.1
    let key := if ksel = 1 then p.2.kdis else p.2.kch
    (p.1, if (cand.any (fun q => q.1 == p.1)) && selected key id thr tie then sigma
      else if stands && id == trim then sg else 0)
  let rep := s.reportOf a (level + h) cand.length named.length
  ({ ksel := ksel, trv := stands, thr := thr, tie := tie, trim := trim, toff := if stands then toff else 0,
     level := level, nins := level + h, iarm := iarm, rhold := rhold, names := lost, after := cand0.map state,
     rho3 := rho, rep := rep, cands := cand.map (fun p => p.1), prior := s.lastShown a },
   n', if has then sg * r else rho, sat, (cells.filter (fun i => inHold i || named.contains i)).length)

/-- The level count and rank selection of an arm, with its results in the registers (R127 to R131, R150).
DEDUCED (log 90, 91, 92). -/
def State.levelCount (s : State) (a : Nat) : State :=
  let (s, rho) := s.residue a
  let s := forEach (s.armCells a) (fun i x => x.account a i) s
  let v := (s.naccOf a).filterMap s.vcapOf
  let x := s.inst a
  let vm := if v = [] then x.vmean else some (v.foldl (fun p q => p + q) 0, v.length)
  let vref := toSigned 32 (s.get (R.CLE_OUT_U (s.get (R.RSE_CFG_VREFSEL a))))
  let (nf, s) : Int × State := match vm with
    | Option.none => (0, s)
    | some (sum, n) =>
      if sum = 0 then
        let (z, s) := s.fresh 32
        (toSigned 32 z, s)
      else ((vref * n * 8192).tdiv sum, s)
  let (c, n', rho4, sat, nheld) := s.command a nf rho vm.isSome
  let s := s.setInst a { s.inst a with rho := rho4, vmean := vm, cmd := some c }
  let s := forEach (s.armCells a) (fun i y => y.setEnt i { y.ent i with
    cand := c.cands.contains i, held := c.rhold.contains (i / 64) ||
      c.names.any (fun p => p.2.contains i) }) s
  let s := ((s.putS (R.RSE_RHO_RHO a) rho4).put (R.RSE_THR_KSEL a) c.ksel).putB (R.RSE_THR_TRV a) c.trv
  let s := ((s.put (R.RSE_THR_THR a) c.thr).put (R.RSE_IDS_TRIM a) c.trim).put (R.RSE_IDS_TIE a) c.tie
  let s := ((s.put (R.RSE_TOFF_TOFF a) c.toff).putS (R.RSE_LEV_NINS a) c.nins).putS (R.RSE_LEV_LEVEL a) c.level
  let s := ((s.put (R.RSE_CNT_NHELD a) nheld).put (R.RSE_CNT_NCAND a) c.rep.ncand).putS (R.RSE_NUM_NPRIME a) n'
  let s := if sat then (s.put (R.RSE_FLG_SAT a) 1).incSat (R.RSE_STCNT_SATC a) else s
  { s with rse := { s.rse with counted := setBitN s.rse.counted a } }

/-- The rings held as a whole, as the launch of their Repeat frames shows and counts them (R139). -/
def State.showRingHolds (s : State) (a : Nat) (l : List Nat) : State :=
  let s := s.put (R.RSE_RHOLD_RINGS a) (l.foldl (fun m r => m + 2 ^ r) 0)
  if l = [] then s else (s.put (R.RSE_FLG_RHOLD a) 1).addSat (R.RSE_STCNT_RHC a) l.length

/-- The candidates of an arm of which no ring is held: KST is not 11 and the cell is not permanently bypassed (R127, R145). -/
def State.candsOf (s : State) (a : Nat) : List (Nat × CellIn) := (s.naccOf a).filter (fun p => !(s.ent p.1).gone)

/-- An arm shows the candidates `l` of the tick and no cell and no ring held (R150). DEDUCED (log 97). -/
def State.showNone (s : State) (a : Nat) (l : List Nat) : State :=
  let s := forEach (s.armCells a) (fun i x => x.setEnt i { x.ent i with cand := l.contains i, held := false }) s
  ((s.put (R.RSE_RHOLD_RINGS a) 0).put (R.RSE_CNT_NHELD a) 0).put (R.RSE_CNT_NCAND a) l.length

/-- The accounting of an arm whose tick's frames are overrun Repeats: every cell at its held state (R146).
DEDUCED (log 97). -/
def State.overrun (s : State) (a : Nat) : State :=
  let done := bitOf s.rse.counted a
  let s := if done then
      let s := match (s.inst a).cmd with
        | some c => s.showLast a c.prior
        | Option.none => s
      let rho := match (s.inst a).cmd with
        | some c => c.rho3
        | Option.none => (s.inst a).rho
      (s.setInst a { s.inst a with rho := rho, cmd := Option.none }).putS (R.RSE_RHO_RHO a) rho
    else
      let (s, rho) := if s.rseEn a then s.residue a else (s, (s.inst a).rho)
      let s := forEach (s.armCells a) (fun i x => x.account a i) s
      (s.setInst a { s.inst a with rho := rho }).putS (R.RSE_RHO_RHO a) rho
  let s := s.showNone a ((s.candsOf a).map Prod.fst)
  let e := s.estSum (s.armCells a) (fun _ => true)
  s.setInst a { s.inst a with expNext := some e, trimNext := 0, dirNext := 0, cmd := Option.none }

/-! ### The standby's table (R148) -/

/-- The standby accounts the cells of a ring from the slots it accepted and the command it relays.
DEDUCED (log 96). -/
def State.observe (s : State) (f : Frame) : State :=
  let r := fRing f
  let a := armOf r
  let cells := s.azf.conf.filter (fun i => i / 64 == r)
  let s := forEach cells (fun i x => if alHas x.rse.acc i then x.account a i else x) s
  if fType f != tyDown then s
  else
    let sg : Int := if dLevel f < 0 then -1 else 1
    let g (i : Nat) (x : State) : State :=
      match alGet (x.rse.acc.map (fun p => (p.1, some p.2))) i Option.none with
      | Option.none => x
      | some c =>
        let id := cellId x.pair i
        let key := if dKsel f = 1 then c.kdis else c.kch
        if c.kst = 3 ∨ (dHolds f).contains id = true then x
        else
            let e : Int := if dLevel f = 0 ∨ (dLevel f < 0 ∧ (x.ent i).fb = false) then 0
              else if selected key id (dThr f) (dTie f) || (dTrv f && dTrim f == id) then sg else 0
            x.setEnt i { x.ent i with est := e }
    let s := forEach cells g s
    s.setInst a { s.inst a with
      ksel := dKsel f, trimNext := if dTrv f then dTrim f else 0, dirNext := if dTrv f then sg else 0 }

/-- FRAME_RELAY (R122): forwarded cut-through, or stored and queued in its class; the standby keeps its cell
table from the commands it relays onto its ring lanes (R148). DEDUCED (log 96). -/
def execFrameRelay (n m : Fin 20) (f : Frame) (s : State) : Host.Outcome State Fault Refusal :=
  .next (live s (s.when s.azfOn (
    let t := s.relay n m f
    let sees := s.forwards && s.lock && (n.val == 16 || n.val == 17) && decide (m.val < 16) && fKnown f &&
      fCrcOk f && fTick f == s.tick16 && fSrc f == s.partnerId && fRing f == m.val
    if sees && fType f == tyDown && downOk f then t.observe f
    else if sees && fType f == tyRepeat then t.observe f
    else t)))

/-! ### Commands of the page -/

/-- RSE.CMD.RHOCLR of an instance (R150). -/
def State.rhoClear (s : State) (a : Nat) : State := s.setInst a { s.inst a with clr := true }

/-- RHO_CLEAR (R150). -/
def execRhoClear (i : Fin 2) (s : State) : Host.Outcome State Fault Refusal :=
  .next (live s (s.cmd 0x0F (s.rhoClear i)))

/-- RSE.CMD.TCLR (R150). -/
def State.rseClear (s : State) : State :=
  s.zero ([0, 1].flatMap (fun a => [R.RSE_STCNT_SATC a, R.RSE_STCNT_RHC a, R.RSE_ERR_NMISS a, R.RSE_ERR_EPS a]))

/-- RSE_COUNTER_CLEAR (R150). -/
def execRseCounterClear (s : State) : Host.Outcome State Fault Refusal :=
  .next (live s (s.cmd 0x0F s.rseClear))

end Sys2Proof.Machine
end

