-- ==== Sys2Proof/Machine/Cle.lean ====
section
/-! DEFINITION. The control-law engine and the profile generator (R152 to R180). -/

namespace Sys2Proof.Machine

/-! ### Trajectories (R45, R46) -/

/-- The trajectory of an arm in use. -/
def State.traj (s : State) (a : Nat) : Option Traj := alGet (s.azf.trajs.map (fun p => (p.1, some p.2))) a Option.none

/-- Ticks since k0 of a trajectory. -/
def State.trajAge (s : State) (t : Traj) : Int := diffSigned 16 s.tick16 t.k0

/-- A trajectory is held: M further ticks after its period have passed, and it stays held (R46).
PRESUMED (log 46). -/
def State.trajHeld (s : State) (t : Traj) : Bool := t.raised || decide ((2 * t.m : Nat) ≤ s.trajAge t)

/-- r = V + S (k - k0), exact and saturated, held at its last evaluated value (R45, R46).
PRESUMED (log 46). -/
def State.trajValue (s : State) (t : Traj) (q : Int × Int) : Int :=
  satSigned 32 (q.1 + q.2 * (if s.trajHeld t then ((2 * t.m : Nat) - 1 : Int) else s.trajAge t))

/-- A trajectory that has arrived in time and has begun takes the place of the last one. -/
def State.trajTake (s : State) (a : Nat) : State :=
  match alGet (s.azf.trajNew.map (fun p => (p.1, some p.2))) a Option.none with
  | Option.none => s
  | some t =>
    if s.trajAge t < 0 then s
    else { s with azf := { s.azf with trajs := alPut s.azf.trajs a t, trajNew := alDel s.azf.trajNew a } }

/-! ### Instance memory (R155) -/

/-- The base address of instance `i`. -/
def cleBase (i : Nat) : Nat := 0x41000000 + 0x2000 * i

/-- The word of instance `i` at an offset. -/
def State.cleWord (s : State) (i o : Nat) : Nat := s.mem32 (cleBase i + o)

/-- The same as a signed number. -/
def State.cleInt (s : State) (i o : Nat) : Int := toSigned 32 (s.cleWord i o)

/-- Offsets a write reaches (R165). -/
def cleWritable (o : Nat) : Bool := decide (o < 0x1540 ∨ (0x1600 ≤ o ∧ o < 0x1640) ∨ (0x1680 ≤ o ∧ o < 0x1720))

/-- Dimensions of an instance: NX, NU, NY, NR. -/
def State.nx (s : State) (i : Nat) : Nat := s.get (R.CLE_IDIM_NX i)
def State.nu (s : State) (i : Nat) : Nat := s.get (R.CLE_IDIM_NU i)
def State.ny (s : State) (i : Nat) : Nat := s.get (R.CLE_IDIM_NY i)
def State.nr (s : State) (i : Nat) : Nat := s.get (R.CLE_IDIM_NR i)

/-- The instance a channel names. -/
def State.cleInst (s : State) (n : Nat) : Nat := s.get (R.CLE_CINST_INST n)

/-! ### Triggers and the queue (R162 to R164) -/

/-- Channels evaluate: powered and enabled, Strikes generated, and the member active (R317). -/
def State.cleOn (s : State) : Bool := s.runs 0x0E && s.lock && s.active

/-- The channel is due in this tick (R162). -/
def State.cleDue (s : State) (n : Nat) : Bool :=
  s.on (R.CLE_CCFG_EN n) && (s.get (R.CLE_CCFG_TRG n) == 3 ||
    (s.tick + 16 - s.get (R.CLE_CCFG_PHASE n)) % (s.get (R.CLE_CCFG_DM1 n) + 1) ==
      16 % (s.get (R.CLE_CCFG_DM1 n) + 1))

/-- An evaluation is skipped at Eve or after it (R164). -/
def State.cleLate (s : State) (n : Nat) : State := (s.put (R.CLE_CFLG_LATE n) 1).incSat R.CLE_SKIPC_SKIP

/-- A trigger of channel `n`; one after Eve of a channel that still runs is late, not busy (R163, R164).
DESIGN CHOICE (log 273). -/
def State.cleTrig (s : State) (n : Nat) : State :=
  if !s.cleOn then s
  else if s.eveNs ≤ s.tickNs then s.cleLate n
  else if s.cle.queue.any (fun q => q.ch == n) || (s.cle.run.map CleRun.ch == some n) then
    (s.put (R.CLE_CFLG_BUSY n) 1).incSat R.CLE_SKIPC_SKIP
  else { s with cle := { s.cle with queue := s.cle.queue ++ [⟨n, s.get (R.CLE_CCFG_TRG n) == 1, s.tickNs⟩] } }

/-- CLE_TRIGGER (R162): the instant OFS of a TRG 00 channel that is due. -/
def execCleTrigger (n : Fin 32) (s : State) : Host.Outcome State Fault Refusal :=
  let o := s.get (R.CLE_CCFG_OFS n) * 10
  .next (live s (s.when (s.cleOn && s.cleDue n && s.get (R.CLE_CCFG_TRG n) == 0 && decide (o < s.eveNs) &&
    decide (s.tickNs ≤ o)) ((s.toInstant o).cleTrig n)))

/-- CLE.CMD.RUN naming channel `n` (R162). -/
def State.cleRunCmd (s : State) (n : Nat) : State := s.when (s.cleDue n && s.get (R.CLE_CCFG_TRG n) == 3) (s.cleTrig n)

/-- CLE_RUN (R162). -/
def execCleRun (n : Fin 32) (s : State) : Host.Outcome State Fault Refusal :=
  .next (live s (s.cmd 0x0E (s.when (s.runs 0x0E) ((s.put R.CLE_CMD_CHAN n).cleRunCmd n))))

/-- TRG 01 channels of an arm that are due in this tick. -/
def State.decideChannels (s : State) (a : Nat) : List Nat :=
  (List.range 32).filter (fun n => s.cleDue n && s.get (R.CLE_CCFG_TRG n) == 1 && s.get (R.CLE_CCFG_ARM n) == a)

/-- Decide begin triggers the TRG 01 channels of the arm (R162). -/
def State.cleDecide (s : State) (a : Nat) : State := forEach (s.decideChannels a) (fun n x => x.cleTrig n) s

/-- A due TRG 01 channel, whose arm begins Decide in the tick, has not completed yet (R163).
DEDUCED (log 105). -/
def State.cleHoldOff (s : State) : Bool :=
  decide (320 ≤ s.tickNs) && [0, 1].any (fun a => bitOf s.rse.allowed a &&
    (s.decideChannels a).any (fun n => !s.cle.finished.contains n))

/-- The queued evaluation that starts next, if one may: of two arms that begin Decide together, arm 0 first (R163).
DEDUCED (log 105). -/
def State.cleNext (s : State) : Option CleReq :=
  let place (q : CleReq) : Nat := (if q.decide then s.get (R.CLE_CCFG_ARM q.ch) else 0) * 32 + q.ch
  let before (a b : CleReq) : Bool :=
    (a.decide && !b.decide) || (a.decide == b.decide && decide (a.ns < b.ns ∨ (a.ns = b.ns ∧ place a < place b)))
  let q := if s.cleHoldOff then s.cle.queue.filter CleReq.decide else s.cle.queue
  match q with
  | [] => Option.none
  | x :: t => some (t.foldl (fun m c => if before c m then c else m) x)

/-! ### Inputs (R168 to R170) -/

/-- The value of a source, whether it exists, and the mark of its freshness: SEQ, OSEQ, or 1 while fresh. -/
structure CleSrc where
  v : Int
  ok : Bool
  mark : Nat
  deriving DecidableEq, Repr

/-- What an input-map word names (R168, R169); an INDEX beyond those that R168 lists names a source that does not exist.
DESIGN CHOICE (log 274). -/
def State.cleSource (s : State) (w : Nat) : CleSrc :=
  let i := w % 256
  match bitsOf w 8 2 with
  | 0 => if i < 128 then ⟨toSigned 32 (s.get (R.CLE_MEAS_VAL i)), true, s.get (R.CLE_MEAS_SEQ i)⟩ else ⟨0, false, 0⟩
  | 1 => ⟨toSigned 32 (s.get (R.CLE_OUT_U i)), true, s.get (R.CLE_CST_OSEQ (i / 8))⟩
  | 2 =>
    if 16 ≤ i then ⟨0, false, 0⟩
    else
      match s.traj (i / 8) with
      | Option.none => ⟨0, false, 0⟩
      | some t =>
        if t.q.length ≤ i % 8 then ⟨0, false, 0⟩
        else ⟨s.trajValue t (nth t.q (i % 8) (0, 0)), true, b2n (!s.trajHeld t)⟩
  | _ => if i < 16 then ⟨nth s.cle.pgnOut i 0, true, b2n (s.on (R.PGN_PCFG_EN i))⟩ else ⟨0, false, 0⟩

/-- Input `j` of instance `i` as kept. -/
def State.cleInput (s : State) (i j : Nat) : CleIn := alGet s.cle.inputs (16 * i + j) ⟨⟨0, 0⟩, 0, 0⟩

/-- The OSEQ of a channel at the last evaluation of instance `i` (R169). -/
def State.oseqAt (s : State) (i ch : Nat) : Nat := nth (alGet s.cle.oseqs i []) ch 0

/-- An input is fresh, and what is kept of it afterwards; `last` is the mark of its source at the last evaluation of the
instance (R91, R169). DEDUCED (log 72, 106). -/
def freshInput (first : Bool) (ty last : Nat) (c : CleSrc) (p : CleIn) : Bool × CleIn :=
  if !c.ok then (false, p)
  else
    match ty with
    | 0 =>
      let e := diffSigned 8 c.mark p.seq.last
      if first || decide (4 ≤ p.seq.olds) || decide (1 ≤ e) then (true, { p with seq := ⟨c.mark, 0⟩ })
      else if e = 0 then (false, { p with seq := ⟨p.seq.last, 0⟩ })
      else (false, { p with seq := ⟨p.seq.last, p.seq.olds + 1⟩ })
    | 1 => (first || c.mark != last, p)
    | _ => (first || c.mark == 1, p)

/-- Input `j` of instance `i` latched: its value, whether it is lost, whether it is frozen, whether it was not
fresh, and the state that keeps its history (R168 to R170). DEDUCED (log 106). -/
def State.latchY (s : State) (first : Bool) (i j : Nat) : (Int × Bool × Bool × Bool) × State :=
  let w := s.cleWord i (0x16C0 + 4 * j)
  let c := s.cleSource w
  let (fresh, p) := freshInput first (bitsOf w 8 2) (s.oseqAt i (w % 256 / 8)) c (s.cleInput i j)
  let chk := bitOf w 31
  let p := if !(fresh && chk) then p
    else if ((s.get (R.CLE_IFR_FRZWIN i) : Nat) : Int) < ((c.v - p.ref).natAbs : Int) then { p with ref := c.v, cnt := 0 }
    else { p with cnt := min 255 (p.cnt + 1) }
  let n := s.get (R.CLE_IFR_FRZN i)
  let frozen := chk && n != 0 && decide (n ≤ p.cnt)
  ((c.v, chk && (!fresh || frozen), frozen, chk && !fresh),
   { s with cle := { s.cle with inputs := alPut s.cle.inputs (16 * i + j) p } })

/-- All measured inputs of an instance latched. -/
def State.latchAll (s : State) (first : Bool) (i : Nat) : List (Int × Bool × Bool × Bool) × State :=
  (List.range (s.ny i)).foldl (fun (l, x) j =>
    let (v, x) := x.latchY first i j
    (l ++ [v], x)) ([], s)

/-- CLE_EVALUATION_START (R163): the unit takes the first evaluation of the queue and latches its inputs; after Eve
none starts (R164). DEDUCED (log 105). -/
def State.cleStart (s : State) : State :=
  if s.cle.run.isSome || decide (s.eveNs ≤ s.tickNs) then s
  else
    match s.cleNext with
    | Option.none => s
    | some q =>
      let i := s.cleInst q.ch
      let (l, s) := s.latchAll (s.cle.first.contains q.ch) i
      let r := (List.range (s.nr i)).map (fun k => (s.cleSource (s.cleWord i (0x1700 + 4 * k))).v)
      let s := s.put (R.CLE_CST_TSTART q.ch) (s.tickNs / 10)
      { s with cle := { s.cle with
        queue := s.cle.queue.erase q
        first := s.cle.first.filter (fun c => c != q.ch)
        oseqs := alPut s.cle.oseqs i ((List.range 32).map (fun c => s.get (R.CLE_CST_OSEQ c)))
        run := some {
          ch := q.ch, inst := i, y := l.map (fun p => p.1), r := r
          x := (List.range (s.nx i)).map (fun k => s.cleInt i (0x1600 + 4 * k))
          lost := l.map (fun p => p.2.1), frozen := l.any (fun p => p.2.2.1), stale := l.any (fun p => p.2.2.2)
          writes := [] } } }

/-- CLE_EVALUATION_START (R163). -/
def execCleEvaluationStart (s : State) : Host.Outcome State Fault Refusal := .next (live s (s.when s.cleOn s.cleStart))

/-! ### The evaluation (R153, R156 to R159) -/

/-- What an evaluation reads of an instance: the word at an offset, and the shift of coefficient word w. -/
structure CleMem where
  word : Nat → Nat
  shift : Nat → Nat

/-- A term: the exact product of the coefficient at offset `o`, rounded with that coefficient's own shift
(R157). -/
def term (w : CleMem) (o : Nat) (v : Int) : Int := rhe (toSigned 32 (w.word o) * v) (w.shift (o / 4))

/-- A row of a matrix of width `cols` at offset `base`, times a vector (R157). -/
def rowTimes (w : CleMem) (base cols row : Nat) (v : List Int) : Int :=
  (v.zipIdx).foldl (fun a p => a + term w (base + 4 * (cols * row + p.2)) p.1) 0

/-- An accumulator through its output shift, saturated to 32 bits (R159), and whether it saturated. -/
def outShift (acc : Int) (sh : Nat) : Int × Bool :=
  let v := rhe acc sh
  (satSigned 32 v, satSigned 32 v != v)

/-- The clamp of u (R159). -/
def clampU (v lo hi : Int) : Int := max (min v hi) lo

/-- The result of an evaluation: u, the new state, whether anything saturated or was clamped. -/
structure CleResult where
  u : List Int
  x : List Int
  sat : Bool
  deriving DecidableEq, Repr

/-- The three phases of an evaluation over what it reads (R153, R158). -/
def evaluate (w : CleMem) (nx nu : Nat) (she shu shx : Nat) (y r x : List Int) (lost : List Bool) : CleResult :=
  let e := (y.zipIdx).map (fun p => outShift (p.1 - rowTimes w 0x600 16 p.2 x) she)
  let ev := (e.zip lost).map (fun p => if p.2 then 0 else p.1.1)
  let u := (List.range nu).map (fun m =>
    let a := outShift (rowTimes w 0x1000 8 m r - rowTimes w 0xE00 16 m x) shu
    let c := clampU a.1 (toSigned 32 (w.word (0x1680 + 8 * m))) (toSigned 32 (w.word (0x1684 + 8 * m)))
    (c, a.2 || c != a.1))
  let uv := u.map (fun p => p.1)
  let n := (List.range nx).map (fun k =>
    outShift (rowTimes w 0 16 k x + rowTimes w 0x400 8 k uv + rowTimes w 0xA00 16 k ev) shx)
  { u := uv, x := n.map (fun p => p.1),
    sat := e.any (fun p => p.2) || u.any (fun p => p.2) || n.any (fun p => p.2) }

/-- SIG cycles of an evaluation, 1 ns each (R160). -/
def State.cleCycles (s : State) (i : Nat) : Nat :=
  let up (n : Nat) : Nat := (n + 15) / 16
  12 + up (s.ny i * s.nx i) + up (s.nu i * (s.nx i + s.nr i)) + up (s.nx i * (s.nx i + s.nu i + s.ny i))

/-- The phase that reads the coefficient, or the limit, at an offset: C in phase 1, K, F and the limits in phase 2, A, B and L in
phase 3 (R153, R158, R161). -/
def clePhase (o : Nat) : Nat :=
  if 0x600 ≤ o ∧ o < 0xA00 then 1
  else if (0xE00 ≤ o ∧ o < 0x1100) ∨ 0x1680 ≤ o then 2
  else 3

/-- The entry at offset `o` had been read when a write came. -/
def CleWr.after (w : CleWr) (o : Nat) : Bool :=
  decide (clePhase o < w.phase) || (clePhase o == w.phase && bitOf w.read (o / 4))

/-- What the word at offset `o` of instance `i` held when the evaluation read the entry at offset `entry`: what it held before
the first write of it that came after that read (R161). -/
def State.cleSeen (s : State) (i : Nat) (writes : List CleWr) (entry o : Nat) : Nat :=
  match writes.find? (fun w => w.off == o && w.after entry) with
  | some w => w.was
  | Option.none => s.cleWord i o

/-- What an evaluation reads: each coefficient, shift and limit once, as its term is formed (R161). DEDUCED (log 107). -/
def cleMem (s : State) (i : Nat) (writes : List CleWr) : CleMem :=
  { word := fun o => s.cleSeen i writes o o
    shift := fun w => s.cleSeen i writes (4 * w) (0x1100 + w / 4 * 4) / 2 ^ (8 * (w % 4)) % 32 }

/-- A counted write landed between the first and the last coefficient read (R165). -/
def cleMixed (writes : List CleWr) : Bool := writes.any (fun w => w.counted && decide (1 ≤ w.phase ∧ w.phase ≤ 3))

/-- Words written from an offset of an instance on, each 4 bytes. -/
def State.cleWrite (s : State) (i o : Nat) (l : List Int) : State :=
  (l.zipIdx).foldl (fun x p => x.setMem32 (cleBase i + o + 4 * p.2) (ofSigned 32 p.1)) s

/-- The output indices of a channel (R154). -/
def State.cleOutputs (s : State) (n : Nat) (u : List Int) : State :=
  forUpTo 8 (fun m x => x.putS (R.CLE_OUT_U (8 * n + m)) (nth u m 0)) s

/-- The count of coasting evaluations, and the coast-limit source raised once an episode (R171). -/
def State.coast (s : State) (i : Nat) (lost : Bool) : State :=
  let old := s.get (R.CLE_IST_COAST i)
  let lim := max 1 (s.get (R.CLE_IFR_COASTLIM i))
  if !lost then s.put (R.CLE_IST_COAST i) 0
  else
    let s := s.incSat (R.CLE_IST_COAST i)
    if old < lim ∧ lim ≤ old + 1 then (s.putBit R.CLE_COASTF_COAST i true).fcuEvent 6 else s

/-- The last cycle of an evaluation: results, outputs, OSEQ and the marks (R159, R161, R165, R171); one that
COASTACT holds is not marked saturated. DEDUCED (log 107). DESIGN CHOICE (log 275). -/
def State.cleFinish (s : State) (run : CleRun) : State :=
  let i := run.inst
  let n := run.ch
  let s := s.elapse (s.cleCycles i)
  let res := evaluate (cleMem s i run.writes) (s.nx i) (s.nu i) (s.get (R.CLE_ICFG_SHE i))
    (s.get (R.CLE_ICFG_SHU i)) (s.get (R.CLE_ICFG_SHX i)) run.y run.r run.x run.lost
  let lost := run.lost.any id
  let s := s.coast i lost
  let stay := lost && s.on (R.CLE_ICFG_COASTACT i) &&
    decide (max 1 (s.get (R.CLE_IFR_COASTLIM i)) ≤ s.get (R.CLE_IST_COAST i))
  let mix := cleMixed run.writes
  let s := if stay then s.cleOutputs n ((List.range (s.nu i)).map (fun m => s.cleInt i (0x1640 + 4 * m)))
    else ((s.cleWrite i 0x1600 res.x).cleWrite i 0x1640 res.u).cleOutputs n res.u
  let sat := res.sat && !stay
  let s := ((s.incWrap (R.CLE_CST_OSEQ n)).putB (R.CLE_IST_USAT i) sat).putB (R.CLE_IST_LOST i) run.stale
  let s := (s.putB (R.CLE_IST_FROZ i) run.frozen).putB (R.CLE_IST_MIXL i) mix
  let s := if sat then s.put (R.CLE_CFLG_SAT n) 1 else s
  let s := if mix then (s.put (R.CLE_CFLG_MIX n) 1).incSat R.CLE_SKIPC_MIXC else s
  let s : State := { s with cle := { s.cle with run := Option.none, finished := n :: s.cle.finished } }
  forUpTo 32 (fun k x => x.when (k != n && x.cleDue k && x.get (R.CLE_CCFG_TRG k) == 2 &&
    x.get (R.CLE_CCFG_SRCCH k) == n) (x.cleTrig k)) s

/-- Eve removes the evaluations that have not started (R164). -/
def State.cleEve (s : State) : State :=
  let l := s.cle.queue.map CleReq.ch
  forEach l (fun n x => x.cleLate n) { s with cle := { s.cle with queue := [] } }

/-! ### The window -/

/-- How far an evaluation has read when the next write of its instance comes: open within the phase order, and not less far
than at the write before (R161, R165). DEDUCED (log 107). -/
def cleReach (writes : List CleWr) (z : Nat) : Nat × Nat :=
  let (p, m) : Nat × Nat := match writes.getLast? with
    | some w => (w.phase, w.read)
    | Option.none => (0, 0)
  let q := p + z % 8 % (5 - p)
  let n := z / 8 % 2 ^ 1536
  (q, if q = p then Nat.lor m n else if q = 1 then Nat.lor n (2 ^ 384) else n)

/-- A write of the word at an offset of an instance, noted where the evaluation under way is of that instance. -/
def State.cleNote (s : State) (i o : Nat) (counted : Bool) : State :=
  match s.cle.run with
  | Option.none => s
  | some r =>
    if r.inst = i then
      let (z, s) := s.fresh 2048
      let g := cleReach r.writes z
      { s with cle := { s.cle with run := some { r with
          writes := r.writes ++ [⟨g.1, g.2, o, s.cleWord i o, counted⟩] } } }
    else s

/-- A 32-bit write into the coefficient window, counted where a core or an engine makes it (R155, R165).
DEDUCED (log 108). -/
def State.cleStore (s : State) (ini : Initiator) (a v : Nat) : State :=
  let i := (a - 0x41000000) / 0x2000
  let o := (a - 0x41000000) % 0x2000
  if !cleWritable o then s
  else
    let s := (s.cleNote i o (ini != .debug)).setMem32 a v
    if ini = .debug then s else s.incWrap (R.CLE_IST_WCNT i)

/-- The word of the coefficient window at an address: a reserved one reads 0 (R155). -/
def State.cleRead (s : State) (a : Nat) : Nat :=
  let o := (a - 0x41000000) % 0x2000
  if cleWritable o ∨ (0x1640 ≤ o ∧ o < 0x1660) then s.mem32 a else 0

/-- An access of the coefficient window is refused: gated, or not a naturally aligned word (R16, R155). -/
def State.cleBad (s : State) (a size : Nat) : Bool :=
  s.gated 0x0E || size != 4 || a % 4 != 0 || decide (a < 0x41000000 ∨ 0x41040000 ≤ a)

/-- CLE.CMD.CCLR. -/
def State.cleClear (s : State) : State := s.zero [R.CLE_SKIPC_SKIP, R.CLE_SKIPC_MIXC]

/-- CLE_COUNTER_CLEAR (R179). -/
def execCleCounterClear (s : State) : Host.Outcome State Fault Refusal :=
  .next (live s (s.cmd 0x0E s.cleClear))

/-! ### Commits of the CLE page (R167, R178) -/

/-- Staged dimensions are allowed. -/
def cleDimsOk (nx nu ny nr : Nat) : Bool :=
  decide (1 ≤ nx ∧ nx ≤ 16 ∧ 1 ≤ nu ∧ nu ≤ 8 ∧ 1 ≤ nr ∧ nr ≤ 8 ∧ 1 ≤ ny ∧ ny ≤ 16)

/-- State transfer from instance `a` to instance `b` (R167). DEDUCED (log 109). -/
def State.cleTransfer (s : State) (a b : Nat) : State :=
  if s.nx a = s.nx b ∧ s.nu a = s.nu b then
    (s.cleWrite b 0x1600 ((List.range (s.nx a)).map (fun k => s.cleInt a (0x1600 + 4 * k)))).cleWrite b 0x1640
      ((List.range (s.nu a)).map (fun k => s.cleInt a (0x1640 + 4 * k)))
  else s.put R.CLE_FLG_XFERR 1

/-! ### Profile generator (R172 to R177) -/

/-- The floor of the square root of a number below 4^n. -/
def isqrtAux (v : Nat) : Nat → Nat → Nat
  | 0, r => r
  | n + 1, r => if (r + 2 ^ n) * (r + 2 ^ n) ≤ v then isqrtAux v n (r + 2 ^ n) else isqrtAux v n r

/-- The floor of the square root of a number below 2^130. -/
def isqrt (v : Nat) : Nat := isqrtAux v 65 0

/-- c of R173. -/
def pgnC (amax jmax : Nat) : Nat := if jmax = 0 then 0 else min (2 ^ 63 - 1) (amax * amax / (2 * jmax))

/-- Order, velocity, acceleration and OVS of a profile generator channel. -/
structure PgnVal where
  p : Int
  v : Int
  a : Int
  ovs : Bool
  deriving DecidableEq, Repr

/-- One step of a channel toward its target (R174). -/
def pgnStep (tgt : Int) (vmax amax jmax : Nat) (o : PgnVal) : PgnVal :=
  let x := satSigned 64 (tgt - o.p)
  if x = 0 ∧ o.v = 0 ∧ o.a = 0 then o
  else
    let c := pgnC amax jmax
    let vs := isqrt (c * c + 2 * amax * x.natAbs) - c
    let vs := max vs (min x.natAbs amax)
    let vd : Int := x.sign * (min vmax vs : Nat)
    let ad := clampInt (amax : Nat) (vd - o.v)
    let a := if jmax = 0 then ad else o.a + clampInt (jmax : Nat) (ad - o.a)
    let v := o.v + a
    let v := if o.v.natAbs ≤ vmax then clampInt (vmax : Nat) v else v
    let p := satSigned 64 (o.p + v)
    let xn := tgt - p
    if xn = 0 ∨ xn.sign ≠ x.sign then
      if v.natAbs ≤ amax then { o with p := tgt, v := 0, a := 0 } else ⟨p, v, a, true⟩
    else ⟨p, v, a, o.ovs⟩

/-- Channel `c` takes a step or a preset at this Strike (R172, R177). DEDUCED (log 110). -/
def State.pgnChannel (s : State) (c : Nat) : State :=
  let d := s.get (R.PGN_PCFG_DM1 c) + 1
  if !s.on (R.PGN_PCFG_EN c) || (s.tick + 16 - s.get (R.PGN_PCFG_PHASE c)) % d != 16 % d then s
  else
    let tgt := s.getS (R.PGN_TGT_TGT c)
    let vmax := s.get (R.PGN_VMAX_VMAX c)
    let amax := s.get (R.PGN_AMAX_AMAX c)
    let o : PgnVal := ⟨s.getS (R.PGN_P_P c), s.getS (R.PGN_V_V c), s.getS (R.PGN_A_A c), s.on (R.PGN_PSTA_OVS c)⟩
    let n : PgnVal := if bitOf s.cle.preset c then { o with p := tgt, v := 0, a := 0 }
      else pgnStep tgt vmax amax (s.get (R.PGN_JMAX_JMAX c)) o
    let at' := n.p == tgt && n.v == 0 && n.a == 0
    let s := ((s.putS (R.PGN_P_P c) n.p).putS (R.PGN_V_V c) n.v).putS (R.PGN_A_A c) n.a
    let s := ((s.putB (R.PGN_PSTA_OVS c) n.ovs).putB (R.PGN_PSTA_AT c) at').putB (R.PGN_PSTA_MOVING c) (!at')
    let s := (s.putB (R.PGN_PSTA_VOL c) (decide (vmax < n.v.natAbs))).putB (R.PGN_PSTA_AOL c)
      (decide (amax < n.a.natAbs))
    { s with cle := { s.cle with preset := clrBitN s.cle.preset c } }

/-- The step of every channel that is due, in the active member (R174, R317). DEDUCED (log 110). -/
def State.pgnStrike (s : State) : State :=
  s.when (s.runs 0x0D && s.lock && s.active) (forUpTo 16 (fun c x => x.pgnChannel c) s)

/-- PGN_PUBLISH (R172): at instant 60 the outputs of the enabled channels are published (R177). -/
def execPgnPublish (s : State) : Host.Outcome State Fault Refusal :=
  .next (live s (s.when (s.runs 0x0D && s.lock) (
    let t := s.toInstant 60
    { t with cle := { t.cle with pgnOut := (List.range 16).map (fun c =>
        if t.on (R.PGN_PCFG_EN c) then satSigned 32 (rhe (t.getS (R.PGN_P_P c)) 32) else nth t.cle.pgnOut c 0) } })))

/-- PGN.CMD.PRESET (R177). -/
def State.pgnPreset (s : State) (bits : Nat) : State :=
  { s with cle := { s.cle with preset := Nat.lor s.cle.preset (bits % 65536) } }

/-- PGN_PRESET (R177). -/
def execPgnPreset (bits : BitVec 16) (s : State) : Host.Outcome State Fault Refusal :=
  .next (live s (s.cmd 0x0D (s.pgnPreset bits.toNat)))

/-- Staged limits are allowed (R173). -/
def pgnLimitsOk (vmax amax jmax : Nat) : Bool :=
  decide (vmax ≠ 0 ∧ amax ≠ 0 ∧ vmax < 2 ^ 63 ∧ amax < 2 ^ 63 ∧ jmax < 2 ^ 63)

end Sys2Proof.Machine
end

