-- ==== Sys2Proof/Machine/Fault.lean ====
section
/-! DEFINITION. The commands of the fault collection unit (R335, R340, R350) and of the memory scrub (R208,
R215, R348, R435). -/

namespace Sys2Proof.Machine

/-- FCU_EVENT (R335). -/
def execFcuEvent (src : Fin 128) (dt : Nat) (s : State) : Host.Outcome State Fault Refusal :=
  .next (live s ((s.elapse dt).fcuEvent src))

/-- The quiet period of a source in SEVERE has passed since its last event (R335, R339). -/
def State.quietOver (s : State) (n : Nat) : Bool :=
  s.get (R.FCU_SST_STATE n) == 2 && decide ((s.fcuSrc n).quiet ≤ usSince s.fcuTime (s.fcuSrc n).last)

/-- QUIET_PERIOD_EXPIRY (R335). -/
def execQuietPeriodExpiry (src : Fin 128) (dt : Nat) (s : State) : Host.Outcome State Fault Refusal :=
  let t := s.elapse dt
  .next (live s (t.when (t.quietOver src) (t.fcuRecover src)))

/-- The recoveries of a source older than 24 h leave RCNT (R335). -/
def State.ageRecoveries (s : State) (n : Nat) : State :=
  let r := s.fcuRecent n
  (s.setFcuSrc n { s.fcuSrc n with recs := r }).put (R.FCU_SST_RCNT n) r.length

/-- RECOVERY_AGEING (R335). -/
def execRecoveryAgeing (src : Fin 128) (dt : Nat) (s : State) : Host.Outcome State Fault Refusal :=
  .next (live s ((s.elapse dt).ageRecoveries src))

/-- FCU.CMD.UNL with SRC: CLEAR, RCNT 0, no history; no effect unless LATCHED (R334, R335, R350). -/
def State.unlatch (s : State) (n : Nat) : State :=
  let s := s.put R.FCU_CMD_SRC n
  if s.get (R.FCU_SST_STATE n) != 3 then s
  else
    let s := s.setFcuSrc n { s.fcuSrc n with times := [], recs := [] }
    ((s.put (R.FCU_SST_STATE n) 0).put (R.FCU_SST_RCNT n) 0).fcuLog n 4 0 0

/-- UNLATCH (R350). -/
def execUnlatch (src : Fin 128) (s : State) : Host.Outcome State Fault Refusal := .next (live s (s.unlatch src))

/-- LOST_CLEAR (R350). -/
def execLostClear (s : State) : Host.Outcome State Fault Refusal := .next (live s (s.put R.FCU_LOST_LOST 0))

/-- A write of FCU.LOGRD: UNREAD becomes (LOGWR - LOGRD) mod 1,024 (R340). -/
def State.logrd (s : State) (v : Nat) : State :=
  let s := s.put R.FCU_LOGRD_IDX v
  s.put R.FCU_LOGWR_UNREAD ((s.get R.FCU_LOGWR_IDX + 1024 - v % 1024) % 1024)

/-- LOGRD_WRITE (R340). -/
def execLogrdWrite (v : W32) (s : State) : Host.Outcome State Fault Refusal := .next (live s (s.logrd v.toNat))

/-- Word `w` of the log entry that FCU.LOGIDX names (R340, R350). -/
def State.logWord (s : State) (w : Nat) : Nat :=
  let e := alGet s.fcu.log (s.get R.FCU_LOGIDX_IDX) ⟨0, 0, 0, 0⟩
  match w with
  | 0 => e.w0
  | 1 => e.w1
  | 2 => e.w2
  | _ => e.w3

/-- FCU.SEVk: the sources of group `k` in SEVERE or LATCHED. -/
def State.sevWord (s : State) (k : Nat) : Nat :=
  (List.range 32).foldl (fun m j => m + (if s.fcuSevere (32 * k + j) then 2 ^ j else 0)) 0

/-- FCU.GSTA. -/
def State.gsta (s : State) : Nat :=
  let n := ((List.range 128).filter s.fcuSevere).length
  min 255 n * 256 + b2n ((List.range 128).any (fun n => s.get (R.FCU_SST_STATE n) == 3)) * 2 + b2n s.sevg

/-! ### Scrubbing (R348) -/

/-- The address of word `w` of a memory (R155, R182, R213, R427). -/
def scrubAddr (m : ScrubMem) (w : Nat) : Nat :=
  match m with
  | .localSram c => 0x09000000 + 0x10000 * c + 4 * (w % 0x4000)
  | .l2 => 0x20000000 + 4 * (w % 0x80000)
  | .cleWindow => 0x41000000 + 4 * (w % 0x10000)
  | .framePool => 0x44000000 + 4 * (w % 0x100000)
  | .seX n => 0x42000000 + 0x100000 * n + 4 * (w % 0x4000)
  | .seY n => 0x42040000 + 0x100000 * n + 4 * (w % 0x4000)
  | .seP n => 0x42080000 + 0x100000 * n + 4 * (w % 0x2000)

/-- The signal engine and memory number of a memory, for the memories of an engine (R208). -/
def scrubEngine (m : ScrubMem) : Option (Nat × Nat) :=
  match m with
  | .seX n => some (n, 0)
  | .seY n => some (n, 1)
  | .seP n => some (n, 2)
  | _ => Option.none

/-- The memory is powered (R16). DEDUCED (log 207). -/
def State.scrubbed (s : State) (m : ScrubMem) : Bool :=
  match m with
  | .localSram c => !s.coreGated c
  | .l2 => true
  | .cleWindow => !s.gated 0x0E
  | .framePool => !s.gated 0x34
  | .seX n | .seY n | .seP n => !s.gated (0x10 + n)

/-- What a scrub of an on-chip memory found: a single-bit error is corrected in place (R208, R215, R348). -/
def State.sramScrub (s : State) (m : ScrubMem) (w : Nat) (err : MemErr) : State :=
  match s.eccAt (scrubAddr m w) err, scrubEngine m with
  | .none, _ => s
  | .corrected, some (n, _) => ((s.heal (scrubAddr m w)).incSat (R.SE_ECC_CEC n)).raiseFlt (0x10 + n) Flt.SE_CE
  | .corrected, Option.none => (s.heal (scrubAddr m w)).fcuEvent 0
  | .uncorrectable, some (n, k) =>
    (((s.markBad (scrubAddr m w)).put (R.SE_ECC_MEM n) k).put (R.SE_ECC_ADDR n) w).fcuEvent 1
  | .uncorrectable, Option.none => (s.markBad (scrubAddr m w)).fcuEvent 1

/-- SRAM_SCRUB (R348). -/
def execSramScrub (mem : ScrubMem) (word : Nat) (err : MemErr) (s : State) : Host.Outcome State Fault Refusal :=
  .next (live s (s.when (s.scrubbed mem) (s.sramScrub mem word err)))

/-- What an error found in the DRAM row of an address, by access or by scrub, raises (R215, R343, R435). -/
def State.dramNote (s : State) (addr : Nat) (e : MemErr) : State :=
  match e with
  | .none => s
  | .corrected => (((s.incSat R.MEMC_CEC_CEC).hourly (fun a => { a with dce := a.dce + 1 })).fcuEvent 0).raiseFlt 0x0A
      Flt.MEMC_CE
  | .uncorrectable => ((s.put R.MEMC_UEA_ADDR (addr / 64 * 64)).fcuEvent 1).raiseFlt 0x0A Flt.MEMC_UE

/-- An access reads the row of address `a` and meets the error `e`, or the one that stands there: counted where it is
corrected, recorded where it is not (R215). -/
def State.ramMeet (s : State) (a : Nat) (dram : Bool) (e : MemErr) : State :=
  let t := s.eccMark a e
  if dram then t.dramNote a (s.eccAt a e)
  else match s.eccAt a e with
    | .none => t
    | .corrected => t.fcuEvent 0
    | .uncorrectable => t.fcuEvent 1

/-- An address of the DRAM (R213). -/
def isDram (a : Nat) : Bool := decide (0x800000000 ≤ a ∧ a ≤ 0x9FFFFFFFF)

/-- The rows that hold any of the `n` bytes at `a`. -/
def rowsAt (a n : Nat) : List Nat :=
  ((List.range (n / 8 + 2)).map (fun i => rowOf a + 8 * i)).filter (fun r => decide (0 < n ∧ r < a + n))

/-- A block reads `n` bytes at `a`: it meets the errors that stand in their rows, and the bytes of a row with an uncorrectable
one are open (R215, R435). DEDUCED (log 271). -/
def State.blockRead (s : State) (a n : Nat) : List Byte × State :=
  let t := forEach (rowsAt a n) (fun r x => x.ramMeet r (isDram r) .none) s
  if (rowsAt a n).any s.badRow then
    let (junk, t) := t.openBytes n
    ((List.range n).map (fun i => if s.badRow (a + i) then nth junk i 0 else s.memByte (a + i)), t)
  else (s.memBytes a n, t)

/-- A block stores bytes at `a`: a row written whole holds no error any more, one written in part is read first and keeps an
uncorrectable one (R214, R215, R435). DEDUCED (log 271). -/
def State.blockStore (s : State) (a : Nat) (l : List Byte) : State :=
  let e := a + l.length
  (forEach (rowsAt a l.length) (fun r x =>
    if a ≤ r ∧ r + 8 ≤ e then x.heal r
    else if x.badRow r then x.ramMeet r (isDram r) .none
    else (x.ramMeet r (isDram r) .none).heal r) s).storeMem a l

/-- The rows of the 64-byte burst that holds an address. -/
def burstRows (addr : Nat) : List Nat := (List.range 8).map (fun i => addr / 64 * 64 + 8 * i)

/-- What the scrub of a burst finds: the new error, or the worst that stands in its rows. DEDUCED (log 207). -/
def State.burstErr (s : State) (addr : Nat) (err : MemErr) : MemErr :=
  if err = .uncorrectable || (burstRows addr).any s.badRow then .uncorrectable
  else if err = .corrected || (burstRows addr).any s.softRow then .corrected
  else .none

/-- The rows of a burst after its scrub: a single-bit error is corrected in place (R348). -/
def State.burstMend (s : State) (addr : Nat) (err : MemErr) : State :=
  let s := forEach (burstRows addr) (fun r x => if x.badRow r then x else x.heal r) s
  if err = .uncorrectable then s.markBad addr else s

/-- The MEMC scrubs one burst (R215, R348, R435). -/
def State.dramScrub (s : State) (addr : Nat) (err : MemErr) (passEnd : Bool) : State :=
  let s := s.put R.MEMC_STA_SCRB 1
  let s := (s.burstMend addr err).dramNote addr (s.burstErr addr err)
  if passEnd then (s.incWrap R.MEMC_SCRB_PASS).put R.MEMC_STA_SCRB 0 else s

/-- DRAM_SCRUB (R348). -/
def execDramScrub (addr : Nat) (err : MemErr) (passEnd : Bool) (s : State) : Host.Outcome State Fault Refusal :=
  .next (live s (s.when (!s.gated 0x0A && decide (0x800000000 ≤ addr ∧ addr ≤ 0x9FFFFFFFF))
    (s.dramScrub addr err passEnd)))

end Sys2Proof.Machine
end

