-- ==== Sys2Proof/Machine/Alm.lean ====
section
/-! DEFINITION. The Almanac unit: its region of the flash, the entries, what it accumulates, and plans (R341 to
R346, R351). -/

namespace Sys2Proof.Machine

/-! ### The region (R341) -/

/-- The entries the region holds. -/
def almEntries : Nat := 349184

/-- The flash address of entry `i`. -/
def almAddr (i : Nat) : Nat := 0x02000000 + 65536 * (i / 682) + 64 + 96 * (i % 682)

/-- The entry a flash address lies in. -/
def almIndexOf (a : Nat) : Option Nat :=
  let o := a - 0x02000000
  let r := o % 65536
  if a < 0x02000000 ∨ 0x04000000 ≤ a ∨ r < 64 ∨ 682 ≤ (r - 64) / 96 then Option.none
  else some (682 * (o / 65536) + (r - 64) / 96)

/-- The next free index: one above the highest entry in which anything is programmed. -/
def State.almNext (s : State) : Nat :=
  s.flash.foldl (fun m c => match almIndexOf c.1 with
    | some i => max m (i + 1)
    | Option.none => m) 0

/-- The bytes of entry `i`. -/
def State.almEntry (s : State) (i : Nat) : List Byte := s.flashBytes (almAddr i) 96

/-- The CRC of an entry is right (R342). -/
def almOk (b : List Byte) : Bool := natLE (slice b 92 4) == (crc32c (b.take 92)).toNat

/-- The newest good entry below index `i` that satisfies `p`, with its index. -/
def State.almLast (s : State) (p : List Byte → Bool) : Nat → Option (Nat × List Byte)
  | 0 => Option.none
  | i + 1 =>
    let b := s.almEntry i
    if almOk b && p b then some (i, b) else s.almLast p i

/-- The header of sector `n` (R341). -/
def almHeader (n : Nat) : List Byte :=
  let b := bytesLE 2 0xA15C ++ bytesLE 2 n ++ bytesLE 8 Config.serial.toNat ++ zeros 48
  b ++ bytesLE 4 (crc32c b).toNat

/-! ### Forming an entry (R342) -/

/-- A count as an entry field of `n` bytes; where it does not fit the spec states no value.
DEDUCED (log 200). -/
def State.almField (s : State) (n v : Nat) : List Byte × State :=
  if v < 2 ^ (8 * n) then (bytesLE n v, s)
  else let (z, s) := s.fresh (8 * n)
    (bytesLE n z, s)

/-- TMAX, TMIN and TMEAN. The rounding of the mean, and the values of an hour without a sample, are open.
DEDUCED (log 200). -/
def State.almTemps (s : State) : List Byte × State :=
  let a := s.alm
  let (z, s) := s.fresh 48
  if a.tcnt = 0 then (bytesLE 6 z, s)
  else
    let q := a.tsum / (a.tcnt : Int)
    let up := decide (a.tsum % (a.tcnt : Int) ≠ 0) && bitOf z 0
    (bytesLE 2 (ofSigned 16 a.tmax) ++ bytesLE 2 (ofSigned 16 a.tmin) ++
      bytesLE 2 (ofSigned 16 (if up then q + 1 else q)), s)

/-- An entry: kind, bytes 20 to 23 and 32 to 33 as given, the plan bytes. DEDUCED (log 200). -/
def State.almForm (s : State) (kind pdc pds vstr : Nat) (plan : List Byte) : List Byte × State :=
  let a := s.alm
  let (temps, s) := s.almTemps
  let (vinx, s) := s.almField 2 a.vinx
  let (dce, s) := s.almField 2 (if s.isK then 0 else a.dce)
  let (llol, s) := s.almField 2 a.llol
  let (lcrc, s) := s.almField 2 a.lcrc
  let (swc, s) := s.almField 4 a.swc
  let (fsev, s) := s.almField 2 a.fsev
  let (flat, s) := s.almField 2 a.flat
  let k : List Byte := if s.isK then
      bytesLE 2 (s.get R.ALM_KEST0_CEST) ++ bytesLE 2 (s.get R.ALM_KEST0_ESR) ++
        bytesLE 2 (s.get R.ALM_KEST1_VDRIFT) ++ bytesLE 2 (s.get R.ALM_KEST1_TCYC)
    else zeros 8
  let flags := b2n (s.get R.TBS_STA_STATE == 2) + (if kind = 2 then 256 * s.get R.PWR_RSTC_CAUSE else 0)
  let b := bytesLE 1 kind ++ bytesLE 1 (s.get R.SYS_STRAP_ROLE) ++ bytesLE 2 s.nodeId ++ bytesLE 4 a.seq ++
    bytesLE 4 (s.get R.ALM_POH_POH) ++ bytesLE 6 (secOf s.tbsNow) ++ bytesLE 2 flags ++ bytesLE 2 pdc ++
    bytesLE 2 pds ++ temps ++ vinx ++ bytesLE 2 vstr ++ a.drf.flatMap (bytesLE 1) ++ dce ++ llol ++ lcrc ++ swc ++
    k ++ (if s.isK then a.srf.flatMap (bytesLE 1) else zeros 4) ++ zeros 4 ++ padTo 16 (plan.take 16) ++ fsev ++
    flat ++ zeros 8
  (b ++ bytesLE 4 (crc32c b).toNat, { s with alm := { s.alm with seq := a.seq + 1 } })

/-! ### Programming (R344) -/

/-- The next waiting entry is programmed; a full region takes none. DEDUCED (log 201). -/
def State.almStart (s : State) : State :=
  match s.alm.prog, s.alm.waiting with
  | Option.none, b :: t =>
    if s.get R.ALM_STA_WIDX < almEntries then
      ({ s with alm := { s.alm with prog := some b, second := false, waiting := t } } : State).put R.ALM_STA_BUSY 1
    else ({ s with alm := { s.alm with waiting := t } } : State).fcuEvent 0x12
  | _, _ => s

/-- An entry goes to the region. DEDUCED (log 201, 204). -/
def State.almAppend (s : State) (b : List Byte) : State :=
  ({ s with alm := { s.alm with waiting := s.alm.waiting ++ [b] } } : State).almStart

/-- Bytes at entry index `i`, with the sector's header before its first entry (R341). -/
def State.almPlace (s : State) (i : Nat) (b : List Byte) : State :=
  let s := if i % 682 = 0 then s.setFlash (0x02000000 + 65536 * (i / 682)) (almHeader (i / 682)) else s
  s.setFlash (almAddr i) b

/-- Bytes whose CRC fails (R344). -/
def almTorn (b : List Byte) : List Byte := if almOk b then setNth b 95 (nth b 95 0 ^^^ 1#8) 0 else b

/-- Bytes at the next index, which advances; a region that is now full, and a program that has failed, are reported in one
cycle (R331, R341, R344). -/
def State.almPut (s : State) (b : List Byte) (failed : Bool) : State :=
  let i := s.get R.ALM_STA_WIDX
  let full := decide (i + 1 = almEntries)
  let s := (s.almPlace i b).put R.ALM_STA_WIDX (i + 1)
  let s := if full then s.put R.ALM_STA_FULL 1 else s
  let s := if full || failed then s.fcuEvent 0x12 else s
  s.raiseFlts 4 (chosen [(failed, Flt.ALM_WFAIL), (full, Flt.ALM_FULL)])

/-- The program under way ends (R344): verified, or failed and tried once more at the next index.
DEDUCED (log 201, 204). -/
def State.almDone (s : State) (ok : Bool) : State :=
  match s.alm.prog with
  | Option.none => s
  | some b =>
    if ok then
      ((({ s with alm := { s.alm with prog := Option.none } } : State).put R.ALM_STA_BUSY 0).almPut b false).almStart
    else
      let again := !s.alm.second
      let (junk, s) := s.openBytes 96
      let s := (s.incSat R.ALM_WCNT_WFC).almPut junk true
      if again && decide (s.get R.ALM_STA_WIDX < almEntries) then
        { s with alm := { s.alm with second := true } }
      else (({ s with alm := { s.alm with prog := Option.none } } : State).put R.ALM_STA_BUSY 0).almStart

/-- ALMANAC_PROGRAM_DONE (R344). -/
def execAlmanacProgramDone (ok : Bool) (s : State) : Host.Outcome State Fault Refusal :=
  .next (live s (s.almDone ok))

/-- What the ALM does when the module comes out of reset: the next index, the powered hours, the sequence and
the stored plan from the region (R345, Power-up state). DESIGN CHOICE (log 8). DEDUCED (log 201, 202). -/
def State.almBoot (s : State) : State :=
  let n := s.almNext
  let last := s.almLast (fun _ => true) n
  let plan := match s.almLast (fun b => b.headD 0 == 3#8) n with
    | some (_, b) => natLE (slice b 72 4)
    | Option.none => Config.firstPlan % 2 ^ 18
  let seq := match last with
    | some (i, b) => natLE (slice b 4 4) + (n - i)
    | Option.none => n
  let s := (s.put R.ALM_STA_WIDX n).putB R.ALM_STA_FULL (decide (almEntries ≤ n))
  let s := match last with
    | some (_, b) => s.put R.ALM_POH_POH (natLE (slice b 8 4))
    | Option.none => s
  let s := ((s.put R.ALM_PLAN_GBC (plan % 256)).put R.ALM_PLAN_GBS (plan / 256 % 256)).put R.ALM_PLAN_DREF
    (plan / 65536 % 4)
  let s := ((s.put R.ALM_GB_GBC (plan % 256)).put R.ALM_GB_GBS (plan / 256 % 256)).put R.ALM_GB_DREF
    (min 2 (plan / 65536 % 4))
  { s with alm := { s.alm with seq := seq, rel := s.fcu.timeNs, hour := s.fcu.timeNs } }

/-! ### Accumulating (R343) -/

/-- Time passes up to an instant of FCU.TIME given in ns. -/
def State.toTime (s : State) (ns : Nat) : State := s.elapse (ns - s.fcu.timeNs)

/-- The end of a powered hour: POH, the entry, and a new hour. DEDUCED (log 203). -/
def State.hourEnd (s : State) (pdc pds vstr : Nat) : State :=
  let s := (s.toTime (s.alm.hour + 3600000000000)).chopCount
  let s := s.incSat R.ALM_POH_POH
  let (b, s) := s.almForm 1 pdc pds vstr []
  ({ s with alm := { s.alm with
      llol := 0, lcrc := 0, swc := 0, dce := 0, vinx := 0, fsev := 0, flat := 0, tmax := 0, tmin := 0, tsum := 0
      tcnt := 0, drf := [0, 0, 0, 0], srf := [0, 0, 0, 0], hour := s.fcu.timeNs } } : State).almAppend b

/-- HOURLY_ENTRY (R343). -/
def execHourlyEntry (pdc pds vstr : BitVec 16) (s : State) : Host.Outcome State Fault Refusal :=
  .next (live s (s.hourEnd pdc.toNat pds.toNat vstr.toNat))

/-- The start entry, 1 s after reset release; the path-delay margins and the stress of its hour so far are open. -/
def State.startEntry (s : State) : State :=
  if s.alm.started then s
  else
    let s := s.toTime (s.alm.rel + 1000000000)
    let (z, s) := s.fresh 48
    let (b, s) := s.almForm 2 (z % 65536) (z / 65536 % 65536) (z / 2 ^ 32) []
    ({ s with alm := { s.alm with started := true } } : State).almAppend b

/-- START_ENTRY (R343). -/
def execStartEntry (s : State) : Host.Outcome State Fault Refusal := .next (live s s.startEntry)

/-- The next turning point enters a list, newest first: a sample that goes on in the same direction replaces
the last one. DEDUCED (log 203). -/
def turnPush (x : Int) : List Int → List Int
  | [] => [x]
  | [a] => if x = a then [a] else [x, a]
  | a :: b :: t => if x = a then a :: b :: t
    else if (b < a ∧ a < x) ∨ (a < b ∧ x < a) then x :: b :: t else x :: a :: b :: t

/-- The class of a range in 1/16 K: 2 to 5 K, 5 to 10 K, 10 to 20 K, above 20 K. DEDUCED (log 203). -/
def rainClass (r : Nat) : Option Nat :=
  if r < 32 then Option.none else if r < 80 then some 0 else if r < 160 then some 1 else if r ≤ 320 then some 2
  else some 3

/-- The four-point method: an inner range between two that are not smaller is a full cycle and is removed.
DEDUCED (log 203). -/
def rainflow (c : List Nat) : Nat → List Int → List Nat × List Int
  | n + 1, d :: x :: y :: a :: t =>
    let r := (x - y).natAbs
    if r ≤ (d - x).natAbs ∧ r ≤ (y - a).natAbs then
      rainflow (match rainClass r with
        | some k => setNth c k (satNat 8 (nth c k 0 + 1)) 0
        | Option.none => c) n (d :: a :: t)
    else (c, d :: x :: y :: a :: t)
  | _, l => (c, l)

/-- One temperature sample of the hour (R343). -/
def State.tempSample (s : State) (tdie : Nat) : State :=
  let s := s.put R.ALM_TDIE_TDIE tdie
  let t := toSigned 16 tdie
  let a := s.alm
  let (drf, dt) := let l := turnPush t a.dTurn
    rainflow a.drf l.length l
  let (srf, st) := if s.isK then
      let l := turnPush (s.getS R.ADC_SLOTA_TSW) a.sTurn
      rainflow a.srf l.length l
    else (a.srf, a.sTurn)
  { s with alm := { a with
    tmax := if a.tcnt = 0 then t else max a.tmax t
    tmin := if a.tcnt = 0 then t else min a.tmin t
    tsum := a.tsum + t, tcnt := a.tcnt + 1, drf := drf, dTurn := dt, srf := srf, sTurn := st } }

/-- TEMPERATURE_SAMPLE (R343). -/
def execTemperatureSample (tdie : BitVec 16) (s : State) : Host.Outcome State Fault Refusal :=
  .next (live s (s.tempSample tdie.toNat))

/-! ### Plans (R345, R346) -/

/-- EPOPEN (R345). -/
def execEpOpen (s : State) : Host.Outcome State Fault Refusal := .next (live s (s.put R.ALM_STA_EPOCH 1))

/-- EPCLOSE (R345). -/
def execEpClose (s : State) : Host.Outcome State Fault Refusal := .next (live s (s.put R.ALM_STA_EPOCH 0))

/-- A plan may apply now: before LOCK first becomes 1 after reset, or within a maintenance epoch. -/
def State.planTime (s : State) : Bool := s.on R.ALM_STA_EPOCH || (!s.alm.locked && !s.lock)

/-- The staged plan is accepted (R345, R346). -/
def State.planOk (s : State) : Bool :=
  s.planTime && decide (Config.gbMinCore % 256 ≤ s.stagedOf R.ALM_PLAN_GBC ∧
    Config.gbMinSig % 256 ≤ s.stagedOf R.ALM_PLAN_GBS)

/-- The word of ALM.PLAN. DEDUCED (log 202). -/
def planWord (gbc gbs dref : Nat) : Nat := gbc + 256 * gbs + 65536 * dref

/-- The staged plan applies: the refresh rate at once, the guard bands by ramping, and a KIND 3 entry (R342,
R345). DEDUCED (log 202). -/
def State.planApply (s : State) : State :=
  let old := planWord (s.get R.ALM_PLAN_GBC) (s.get R.ALM_PLAN_GBS) (s.get R.ALM_PLAN_DREF)
  let c := s.stagedOf R.ALM_PLAN_GBC
  let g := s.stagedOf R.ALM_PLAN_GBS
  let d := s.stagedOf R.ALM_PLAN_DREF
  let s := ((s.put R.ALM_PLAN_GBC c).put R.ALM_PLAN_GBS g).put R.ALM_PLAN_DREF d
  let s := s.put R.ALM_GB_DREF (min 2 d)
  let (z, s) := s.fresh 48
  let (b, s) := s.almForm 3 (z % 65536) (z / 65536 % 65536) (z / 2 ^ 32)
    (bytesLE 8 old ++ bytesLE 8 (planWord c g d))
  s.almAppend b

/-- One step of 1 mV toward a target. -/
def stepTo (v t : Nat) : Nat := if v < t then v + 1 else if t < v then v - 1 else v

/-- Each ramping rail moves 1 mV (R346). DEDUCED (log 202). -/
def State.guardStep (s : State) : State :=
  (s.put R.ALM_GB_GBC (stepTo (s.get R.ALM_GB_GBC) (s.get R.ALM_PLAN_GBC))).put R.ALM_GB_GBS
    (stepTo (s.get R.ALM_GB_GBS) (s.get R.ALM_PLAN_GBS))

/-- GUARD_BAND_STEP (R346). -/
def execGuardBandStep (s : State) : Host.Outcome State Fault Refusal := .next (live s s.guardStep)

/-- A read of ALM.RDATA: the word, and RIDX.WORD advances from 23 to 0 (R351). Words above 23 and entries outside
the region are open. DEDUCED (log 205). -/
def State.rdata (s : State) : Nat × State :=
  let w := s.get R.ALM_RIDX_WORD
  let e := s.get R.ALM_RIDX_ENTRY
  let t := s.put R.ALM_RIDX_WORD (if w = 23 then 0 else w + 1)
  if w ≤ 23 ∧ e < almEntries then (natLE (s.flashBytes (almAddr e + 4 * w) 4), t) else t.fresh 32

/-- RDATA_READ (R351). -/
def execRdataRead (s : State) : Host.Outcome State Fault Refusal :=
  .next (live s (let (v, t) := s.rdata
    { t with resp := ⟨false, BitVec.ofNat 32 v⟩ }))

end Sys2Proof.Machine
end

