-- ==== Sys2Proof/Machine/Dsx.lean ====
section
/-! DEFINITION. The dispatcher's slots, the control cores' side of it, their special registers, and the
performance monitor (R210 to R234). -/

namespace Sys2Proof.Machine

/-! ### Placement (R220 to R222) -/

/-- The slot of core `c` replaced. -/
def State.setSlot (s : State) (c : Nat) (d : Option Desc) : State :=
  { s with dsx := { s.dsx with slots := setNth s.dsx.slots c d Option.none } }

/-- What core `c` holds replaced. -/
def State.setHeld (s : State) (c : Nat) (h : Option Held) : State :=
  { s with dsx := { s.dsx with held := setNth s.dsx.held c h Option.none } }

/-- The queue replaced. -/
def State.setQueue (s : State) (q : List Desc) : State := { s with dsx := { s.dsx with queue := q } }

/-- A descriptor belongs to an order domain. -/
def inDomain (dom : Nat) (d : Desc) : Bool := !d.unord && d.dom == dom

/-- Core `c` holds a domain: in its slot or held (R221). -/
def State.holdsDom (s : State) (c dom : Nat) : Bool :=
  (match s.slotOf c with
    | some d => inDomain dom d
    | Option.none => false) ||
  (match s.heldOf c with
    | some h => inDomain dom h.d
    | Option.none => false)

/-- A descriptor is eligible for the slot of core `c` (R221). DEDUCED (log 126). -/
def State.eligible (s : State) (c : Nat) (d : Desc) : Bool :=
  bitOf d.cmask c && (d.unord || (List.range 8).all (fun x => x == c || !s.holdsDom x d.dom))

/-- The effective priority of a descriptor: the highest of any that waits behind it in its domain (R220). -/
def effPrio (q : List Desc) (d : Desc) : Nat :=
  if d.unord then d.prio else (q.filter (inDomain d.dom)).foldl (fun m x => min m x.prio) d.prio

/-- The waiting descriptors that may be placed next: the unordered ones and the oldest of each domain. -/
def frontOf (q : List Desc) : List Desc :=
  q.filter (fun d => d.unord || (q.find? (inDomain d.dom)) == some d)

/-- The descriptor of highest effective priority, the oldest on equal priority. -/
def bestOf (q : List Desc) : List Desc → Option Desc
  | [] => Option.none
  | d :: t =>
    match bestOf q t with
    | Option.none => some d
    | some e => if effPrio q e < effPrio q d then some e else some d

/-- The empty slot of core `c` is filled (R221). DEDUCED (log 126). -/
def State.fillSlot (s : State) (c : Nat) : State :=
  if (s.slotOf c).isSome then s
  else
    let q := s.dsx.queue
    match bestOf q ((frontOf q).filter (s.eligible c)) with
    | Option.none => s
    | some d => (s.setQueue (q.erase d)).setSlot c (some d)

/-- A descriptor back in the queue, in issue order. -/
def requeue (d : Desc) : List Desc → List Desc
  | [] => [d]
  | e :: t => if d.id < e.id then d :: e :: t else e :: requeue d t

/-- The slot that a waiting descriptor displaces: of the qualifying ones the one of lowest priority, then the
highest core number (R222). -/
def State.victim (s : State) (d : Desc) : Option Nat :=
  let p := effPrio s.dsx.queue d
  (List.range 8).foldl (fun v c =>
    match s.slotOf c with
    | Option.none => v
    | some x =>
      let e := effPrio s.dsx.queue x
      if s.eligible c d && decide (p < e) then
        (match v with
          | Option.none => some c
          | some w =>
            let f := ((s.slotOf w).map (effPrio s.dsx.queue)).getD 0
            if f ≤ e then some c else some w)
      else v) Option.none

/-- One displacement, if a waiting descriptor can displace a slotted one (R222). -/
def State.displace (s : State) : State :=
  let q := s.dsx.queue
  match bestOf q ((frontOf q).filter (fun d => (s.victim d).isSome)) with
  | Option.none => s
  | some d =>
    match s.victim d with
    | Option.none => s
    | some c =>
      match s.slotOf c with
      | Option.none => s
      | some x => (s.setQueue (requeue x (q.erase d))).setSlot c (some d)

/-- Every empty slot is filled, the lowest core first, and waiting descriptors of higher priority displace
slotted ones until none can. -/
def State.place (s : State) : State :=
  forUpTo 64 (fun _ x => forUpTo 8 (fun c y => y.fillSlot c) x.displace) (forUpTo 8 (fun c y => y.fillSlot c) s)

/-- SLOT_FILL (R221). -/
def execSlotFill (s : State) : Host.Outcome State Fault Refusal := .next (live s s.place.irqs)

/-- SOURCE_EVENT (R219). -/
def execSourceEvent (src : Fin 256) (arg : BitVec 24) (s : State) : Host.Outcome State Fault Refusal :=
  .next (live s (s.dsxIssue src arg.toNat))

/-- POST (R217). -/
def execPost (num : Fin 64) (arg : BitVec 24) (s : State) : Host.Outcome State Fault Refusal :=
  .next (live s (s.cmd 8 (s.dsxIssue (0x80 + num) arg.toNat)))

/-- A descriptor as its 64-bit word (R218). -/
def Desc.word (d : Desc) : Nat :=
  d.tick * 2 ^ 48 + d.src * 2 ^ 40 + d.dom * 2 ^ 32 + d.prio * 2 ^ 26 + 2 ^ 25 + b2n d.unord * 2 ^ 24 + d.arg

/-- Descriptors that satisfy `p` leave the queue and the slots; answers how many they were. -/
def State.removeDesc (s : State) (p : Desc → Bool) : State × Nat :=
  let inSlot (o : Option Desc) : Bool := match o with
    | some d => p d
    | Option.none => false
  ({ s with dsx := { s.dsx with
      queue := s.dsx.queue.filter (fun d => !p d)
      slots := s.dsx.slots.map (fun o => if inSlot o then Option.none else o) } },
   (s.dsx.queue.filter p).length + (s.dsx.slots.filter inSlot).length)

/-- DSX.CANCEL (R225). -/
def State.dsxCancel (s : State) (src : Nat) (same : Bool) : State :=
  let (s, n) := s.removeDesc (fun d => d.src == src)
  let s := (s.put R.DSX_CANCEL_SRC src).addSat R.DSX_CNCL_CANC n
  if same then s.incSat R.DSX_CNCL_SAME else s

/-- CANCEL (R225). -/
def execCancel (src : Fin 256) (sameCycle : Bool) (s : State) : Host.Outcome State Fault Refusal :=
  .next (live s (s.cmd 8 (s.dsxCancel src sameCycle)))

/-- The drain instant at the dispatcher (R226). -/
def State.dsxDrain (s : State) : State :=
  let (s, n) := s.removeDesc (fun d => decide (0x20 ≤ d.src ∧ d.src ≤ 0x34))
  s.addSat R.DSX_DRN_DRN n

/-- DSX.CMD.CCLR (R233). -/
def State.dsxClear (s : State) : State :=
  (s.zero [R.DSX_DROP_POOL, R.DSX_CNCL_CANC, R.DSX_CNCL_SAME, R.DSX_DRN_DRN]).put R.DSX_POOL_MINFREE s.dsxFree

/-- DSX_COUNTER_CLEAR (R233). -/
def execDsxCounterClear (s : State) : Host.Outcome State Fault Refusal := .next (live s (s.cmd 8 s.dsxClear))

/-! ### Timers (R217, R233) -/

/-- The interval of a timer in ns; INTV 0 acts as 1. -/
def State.tmrNs (s : State) (n : Nat) : Nat := 10 * max 1 (s.get (R.DSX_TMRCFG_INTV n))

/-- The countdown of timer `n`, or none where it does not run. -/
def State.setTimer (s : State) (n : Nat) (v : Option Nat) : State :=
  { s with dsx := { s.dsx with timers := match v with
    | some x => alPut s.dsx.timers n x
    | Option.none => alDel s.dsx.timers n } }

/-- A write of DSX.TMRCFGn (R233). -/
def State.timerWrite (s : State) (n v : Nat) : State :=
  let s := ((s.put (R.DSX_TMRCFG_EN n) (bitsOf v 31 1)).put (R.DSX_TMRCFG_PER n) (bitsOf v 30 1)).put
    (R.DSX_TMRCFG_INTV n) (bitsOf v 0 30)
  if bitOf v 31 then s.setTimer n (some (s.tmrNs n)) else s.setTimer n Option.none

/-- TIMER_CONFIGURE (R233). -/
def execTimerConfigure (n : Fin 16) (v : W32) (s : State) : Host.Outcome State Fault Refusal :=
  .next (live s (s.cmd 8 (s.timerWrite n v.toNat)))

/-- Timer `n` reaches its expiry. DEDUCED (log 127). -/
def State.timerExpire (s : State) (n : Nat) : State :=
  match alGet (s.dsx.timers.map (fun p => (p.1, some p.2))) n Option.none with
  | Option.none => s
  | some left =>
    let s := s.elapse left
    let s := s.setTimer n (if s.on (R.DSX_TMRCFG_PER n) then some (s.tmrNs n) else Option.none)
    s.dsxIssue n 1

/-- TIMER_EXPIRY (R217). -/
def execTimerExpiry (n : Fin 16) (s : State) : Host.Outcome State Fault Refusal := .next (live s (s.timerExpire n))

/-! ### Cores -/

/-- A count of `k` events of a code at the counters of core `c`, which executes in the mode of its state: all of them count
the event that freezes them (R230, R231). DEDUCED (log 129). -/
def State.pmuCount (s : State) (c code k : Nat) : State :=
  s.when (s.en 9 && !s.on (R.PMU_PCTL_FRZ c) && !s.coreHalted c) <| forUpTo 6 (fun j x =>
    let sel := if (x.core c).user then x.on (R.PMU_EVSEL_UMODE c j) else x.on (R.PMU_EVSEL_MMODE c j)
    if x.get (R.PMU_EVSEL_EVT c j) = code ∧ sel = true then
      let v := x.get (R.PMU_CNT_CNT c j) + k
      let x := x.put (R.PMU_CNT_CNT c j) v
      if v < 2 ^ 48 then x
      else
        let x := x.putBit (R.PMU_OVF_OV c) j true
        if x.on (R.PMU_PCTL_FZOV c) then x.put (R.PMU_PCTL_FRZ c) 1 else x
    else x) s

/-- A read of mdsxtake: the held descriptor completes, and the slot's is held (R223). -/
def State.mdsxTake (s : State) (c : Nat) : State :=
  let d := s.slotOf c
  let s := (s.setHeld c (d.map (fun x => ⟨x, s.fcu.timeNs, false⟩))).setSlot c Option.none
  let s := s.setRd c ((d.map Desc.word).getD 0)
  if d.isSome then s.pmuCount c 0x0E 1 else s

/-- What CSR mdsxdone reads as (R223). -/
def State.mdsxDone (s : State) (c : Nat) : Nat := ((s.heldOf c).map (fun h => h.d.word)).getD 0

/-- An access of core `c` at `pc` to a CSR of machine mode: illegal in U mode (R223). -/
def State.machineCsr (s : State) (c : Nat) (umode : Bool) (pc : BitVec 64) (f : State → State) : State :=
  s.when (s.coreOn c) (if umode then (s.atInsn c true pc).illegal c else (f (s.atInsn c false pc)).irqs)

/-- MDSXTAKE (R223). -/
def execMdsxTake (c : Fin 8) (umode : Bool) (pc : BitVec 64) (s : State) : Host.Outcome State Fault Refusal :=
  .next (live s (s.machineCsr c umode pc (fun s => s.mdsxTake c)))

/-- MDSXDONE_READ (R223). -/
def execMdsxDoneRead (c : Fin 8) (umode : Bool) (pc : BitVec 64) (s : State) : Host.Outcome State Fault Refusal :=
  .next (live s (s.machineCsr c umode pc (fun s => s.setRd c (s.mdsxDone c))))

/-- MDSXDONE_WRITE (R223). -/
def execMdsxDoneWrite (c : Fin 8) (umode : Bool) (pc : BitVec 64) (s : State) : Host.Outcome State Fault Refusal :=
  .next (live s (s.machineCsr c umode pc (fun s => s.setHeld c Option.none)))

/-- TIME_CSR_READ (R211): illegal in either mode. -/
def execTimeCsrRead (c : Fin 8) (umode : Bool) (pc : BitVec 64) (s : State) : Host.Outcome State Fault Refusal :=
  .next (live s (s.when (s.coreOn c) ((s.atInsn c umode pc).illegal c)))

/-- FENCE_I (R214): the executing core's instruction cache is coherent with completed writes. -/
def execFenceI (c : Fin 8) (s : State) : Host.Outcome State Fault Refusal :=
  .next (live s (s.when (s.coreOn c) (s.setCore c { s.core c with stale := [] })))

/-- A held descriptor exceeds DSX.WDG.LIMIT (R227). -/
def State.watchdog (s : State) (c : Nat) : State :=
  match s.heldOf c with
  | Option.none => s
  | some h =>
    let lim := s.get R.DSX_WDG_LIMIT
    if lim = 0 ∨ h.fired = true then s
    else
      let s := s.elapse (h.since + lim * 10 + 1 - s.fcu.timeNs)
      ((s.setHeld c (some { h with fired := true })).putBit R.DSX_WFLG_WDG c true).fcuEvent 9

/-- DISPATCH_WATCHDOG (R227). -/
def execDispatchWatchdog (c : Fin 8) (s : State) : Host.Outcome State Fault Refusal := .next (live s (s.watchdog c))

/-- A core as it starts at `pc`; what the performance monitor keeps of it is not the core's (R216, R232). -/
def CoreState.start (k : CoreState) (pc : BitVec 64) : CoreState :=
  { CoreState.init with
    on := true, pc := pc, stale := k.stale, psb := k.psb, psbSeq := k.psbSeq, lfsr := k.lfsr, interval := k.interval }

/-- A core held in reset starts in M mode at DSX.CBOOT; CC2 to CC7 are gated in role K (R216, R233). -/
def State.coreStart (s : State) (c : Nat) : State :=
  s.when (decide (1 ≤ c ∧ c < 8) && !s.running c && !s.coreGated c)
    ((s.putBit R.DSX_CRUN_RUNNING c true).setCore c ((s.core c).start (BitVec.ofNat 64 (4 * s.get R.DSX_CBOOT_ADDR))))

/-- CORE_START (R216). -/
def execCoreStart (c : Fin 8) (s : State) : Host.Outcome State Fault Refusal := .next (live s (s.cmd 8 (s.coreStart c)))

/-! ### Performance counters and the sampling buffer -/

/-- Counter `j` of core `c` counts: powered, not halted nor frozen, an event of R230 and a mode selected. -/
def State.counts (s : State) (c j : Nat) : Bool :=
  s.coreOn c && !s.coreHalted c && s.en 9 && !s.on (R.PMU_PCTL_FRZ c) &&
    (s.on (R.PMU_EVSEL_UMODE c j) || s.on (R.PMU_EVSEL_MMODE c j)) &&
    decide (1 ≤ s.get (R.PMU_EVSEL_EVT c j) ∧ s.get (R.PMU_EVSEL_EVT c j) ≤ 0x10)

/-- A counter wraps from its largest value (R231). DEDUCED (log 129). -/
def State.counterWrap (s : State) (c j : Nat) : State :=
  let s := (s.put (R.PMU_CNT_CNT c j) 0).putBit (R.PMU_OVF_OV c) j true
  if s.on (R.PMU_PCTL_FZOV c) then s.put (R.PMU_PCTL_FRZ c) 1 else s

/-- COUNTER_WRAP (R231). -/
def execCounterWrap (c : Fin 8) (j : Fin 6) (s : State) : Host.Outcome State Fault Refusal :=
  .next (live s (s.when (s.counts c j) (s.counterWrap c j).irqs))

/-- COUNTER_WRITE (R231). -/
def execCounterWrite (c : Fin 8) (j : Fin 6) (v : BitVec 48) (s : State) : Host.Outcome State Fault Refusal :=
  .next (live s (s.cmd 9 (s.when (!s.coreGated c) (s.put (R.PMU_CNT_CNT c j) v.toNat))))

/-- One step of the dither register: x^16 + x^15 + x^13 + x^4 + 1 (R232). DEDUCED (log 130). -/
def lfsrStep (v : Nat) : Nat :=
  let b := (b2n (bitOf v 15) + b2n (bitOf v 14) + b2n (bitOf v 12) + b2n (bitOf v 3)) % 2
  (2 * v + b) % 65536

/-- A sampling interval begins: PERIOD plus the dither (R232). DEDUCED (log 130). -/
def State.psbInterval (s : State) (c : Nat) : State :=
  let k := s.core c
  let v := lfsrStep k.lfsr
  s.setCore c { k with lfsr := v, interval := max 1 (s.get (R.PMU_PSBCFG_PERIOD c)) + v % 2 ^ s.get (R.PMU_PSBCFG_DITHER c) }

/-- PSBTHR.THR as it acts (R234). -/
def State.psbThr (s : State) (c : Nat) : Nat := min 64 (max 1 (s.get (R.PMU_PSBTHR_THR c)))

/-- The last instruction of an interval retires: its record is written, or lost (R232). -/
def State.psbSample (s : State) (c : Nat) (r : PsbRec) : State :=
  let s := s.psbInterval c
  let k := s.core c
  if 64 ≤ k.psb.length then (s.incSat (R.PMU_PSBLOST_LOST c)).put (R.PMU_OVF_PSBFULL c) 1
  else
    let k := { k with psb := k.psb ++ [⟨r, k.psbSeq⟩], psbSeq := (k.psbSeq + 1) % 65536 }
    let s := s.setCore c k
    if k.psb.length = s.psbThr c then s.put (R.PMU_OVF_PSBTH c) 1 else s

/-- PSB_SAMPLE (R232). -/
def execPsbSample (c : Fin 8) (r : PsbRec) (s : State) : Host.Outcome State Fault Refusal :=
  .next (live s (s.when (s.coreOn c && !s.coreHalted c && s.en 9 && s.on (R.PMU_PSBCFG_EN c) &&
    decide (s.get (R.PMU_PSBCFG_CLASS c) ≤ 4)) (s.psbSample c r).irqs))

/-- Word `w` of the oldest record (R232). -/
def State.psbWord (s : State) (c w : Nat) : Nat :=
  match (s.core c).psb with
  | [] => 0
  | e :: _ =>
    match w with
    | 0 => e.r.pc.toNat % 2 ^ 32
    | 1 => e.r.pc.toNat / 2 ^ 32
    | 2 => e.r.insn.toNat
    | _ => e.r.lat.toNat + e.r.flags * 2 ^ 16

/-- A read of PSBRD3 removes the oldest record (R232). -/
def State.psbRemove (s : State) (c : Nat) : State := s.setCore c { s.core c with psb := (s.core c).psb.tail }

/-- PSB_READ (R232). -/
def execPsbRead (c : Fin 8) (s : State) : Host.Outcome State Fault Refusal :=
  .next (live s (if s.coreGated c then { s with resp := ⟨false, 0⟩ }
    else { s.psbRemove c with resp := ⟨false, BitVec.ofNat 32 (s.psbWord c 3)⟩ }))

/-- A write of PMU.PSBCFG: EN from 0 to 1 empties the store and seeds the dither (R232).
DEDUCED (log 130). -/
def State.psbConfigure (s : State) (c v : Nat) : State :=
  let start := bitOf v 31 && !s.on (R.PMU_PSBCFG_EN c)
  let s := (((s.put (R.PMU_PSBCFG_EN c) (bitsOf v 31 1)).put (R.PMU_PSBCFG_IE c) (bitsOf v 30 1)).put
    (R.PMU_PSBCFG_CLASS c) (bitsOf v 27 3)).put (R.PMU_PSBCFG_DITHER c) (bitsOf v 24 3)
  let s := s.put (R.PMU_PSBCFG_PERIOD c) (bitsOf v 0 20)
  if start then
    ((s.setCore c { s.core c with psb := [], psbSeq := 0, lfsr := c + 1 }).put (R.PMU_PSBLOST_LOST c) 0).psbInterval c
  else s

/-- PSB_ENABLE (R232). -/
def execPsbEnable (c : Fin 8) (v : W32) (s : State) : Host.Outcome State Fault Refusal :=
  .next (live s (s.cmd 9 (s.when (!s.coreGated c) (s.psbConfigure c v.toNat))))

end Sys2Proof.Machine
end

