-- ==== Sys2Proof/Machine/Eth.lean ====
section
/-! DEFINITION. The Ethernet MACs: descriptor rings in DRAM, timestamps, timed launch and the departure
capture FIFO (R282 to R291, R436, R437). -/

namespace Sys2Proof.Machine

/-- The page of MAC `m`. -/
def ethPage (m : Nat) : Nat := 0x19 + m

/-- MAC `m`. -/
def State.mac (s : State) (m : Nat) : EthState := nth s.eth m EthState.init

/-- MAC `m` replaced. -/
def State.setMac (s : State) (m : Nat) (x : EthState) : State :=
  { s with eth := setNth s.eth m x EthState.init }

/-- The entries of a ring: values outside 2 to 4,096 are clamped (R436). -/
def ethRingLen (n : Nat) : Nat := min 4096 (max 2 n)

/-- Entries of the transmit ring. -/
def State.txLen (s : State) (m : Nat) : Nat := ethRingLen (s.get (R.ETH_TXRL_LEN m))
/-- Entries of the receive ring. -/
def State.rxLen (s : State) (m : Nat) : Nat := ethRingLen (s.get (R.ETH_RXRL_LEN m))

/-- The address of descriptor `i` of the transmit ring (R436, R437). -/
def State.txDesc (s : State) (m i : Nat) : Nat := s.get (R.ETH_TXRB_BASE m) * 32 + 32 * i
/-- The address of descriptor `i` of the receive ring. -/
def State.rxDesc (s : State) (m i : Nat) : Nat := s.get (R.ETH_RXRB_BASE m) * 32 + 32 * i

/-- A little-endian field of `n` bytes at offset `o` of a descriptor. -/
def descLE (d : List Byte) (o n : Nat) : Nat := natLE (slice d o n)

/-- The system time with a correction in 1/16 ns added, in 2^-40 ns (R283). -/
def stampAt (u : Nat) (cor : Int) : Nat := (((u : Int) + cor * 2 ^ 36) % (tbsModulus : Int)).toNat

/-- The departure timestamp now (R283). -/
def State.txStamp (s : State) (m : Nat) : Nat := stampAt s.tbsNow (s.getS (R.ETH_TSCOR_TXC m))
/-- The receive timestamp now. -/
def State.rxStamp (s : State) (m : Nat) : Nat := stampAt s.tbsNow (s.getS (R.ETH_TSCOR_RXC m))

/-- The difference of R286 in ns: seconds as low 32 bits, read signed. -/
def timeDiff (sa na sb nb : Nat) : Int :=
  diffSigned 32 (sa % 2 ^ 32) (sb % 2 ^ 32) * 1000000000 + ((na : Int) - nb)

/-- Launch time less present time (R287, R289). -/
def State.launchD (s : State) (sec ns : Nat) : Int := timeDiff sec ns (secOf s.tbsNow) (nsOf s.tbsNow)

/-- Launch time less a timestamp, in 2^-40 ns. -/
def launchLeft (sec ns u : Nat) : Int := timeDiff sec ns (secOf u) (nsOf u) * 2 ^ 40 - ((u % 2 ^ 40 : Nat) : Int)

/-- The ns until the corrected departure timestamp of a frame that starts then lies in [L, L + 8 ns), L being the launch
time: the end of the first TIME cycle that brings the timestamp to L (R269, R287). DEDUCED (log 158). -/
def State.launchWait (s : State) (m sec ns : Nat) : Nat :=
  let left := launchLeft sec ns (stampAt s.tbs.units (s.getS (R.ETH_TSCOR_TXC m)))
  let first := 4 * 2 ^ 40 + s.tbs.fadj
  let cycle := (4 * 2 ^ 40 + s.fadj).toNat
  if left ≤ 0 then 0 else 4 * (1 + ((left - first).toNat + cycle - 1) / cycle) - s.tbs.rem

/-- `v` added to the 8-byte correctionField at byte `i` of a frame. -/
def addCorrection (f : Frame) (i : Nat) (v : Int) : Frame :=
  overlay f i (bytesBE 8 (ofSigned 64 (toSigned 64 (fieldBE f i 8) + v)))

/-- TSMODE of a control word (R285). -/
def ctlMode (ctl : Nat) : Nat := bitsOf ctl 29 2
/-- LAUNCH of a control word. -/
def ctlLaunch (ctl : Nat) : Bool := bitOf ctl 31
/-- TSOFS of a control word. -/
def ctlOfs (ctl : Nat) : Nat := bitsOf ctl 16 12

/-- Whether the insertion of a descriptor is refused: the field would extend past the frame's last byte,
or TSMODE is 11 while LAUNCH is 1 (R285). DEDUCED (log 157). -/
def insertRefused (f : Frame) (ctl : Nat) : Bool :=
  let o := ctlOfs ctl
  match ctlMode ctl with
  | 2 => decide (f.length < o + 10) || (bitOf ctl 28 && decide (o < 26 ∨ f.length < o - 26 + 8))
  | 3 => ctlLaunch ctl || decide (f.length < o + 8)
  | _ => false

/-- The frame as it departs at `u` (R285). -/
def insertStamp (f : Frame) (ctl sec ns u : Nat) : Frame :=
  let o := ctlOfs ctl
  match ctlMode ctl with
  | 2 =>
    let g := overlay f o (bytesBE 6 (secOf u) ++ bytesBE 4 (nsOf u))
    if bitOf ctl 28 then addCorrection g (o - 26) ((subOf u * 2 ^ 8 : Nat) : Int) else g
  | 3 =>
    addCorrection f o (timeDiff (secOf u) (nsOf u) sec ns * 2 ^ 16 + ((subOf u * 2 ^ 8 : Nat) : Int))
  | _ => f

/-- The departure capture: TAG and timestamp into the FIFO of 16, or a count of the loss (R285, R291).
DEDUCED (log 157). -/
def State.capture (s : State) (m ctl u : Nat) : State :=
  if ctlMode ctl = 0 then s
  else
    let x := s.mac m
    if 16 ≤ x.fifo.length then s.incSat (R.ETH_TSCNT_TXOVF m)
    else s.setMac m { x with fifo := x.fifo ++ [⟨ctl % 65536, secOf u, nsOf u, subOf u⟩] }

/-- A frame with the FCS that the MAC appends, least significant byte first (R285, R437). PRESUMED (log 35). -/
def withFcs (f : Frame) : Frame := f ++ bytesLE 4 (etherFcs f).toNat

/-- A frame departs now, and its descriptor `i` is complete with status `st`. -/
def State.ethDepart (s : State) (m i : Nat) (f : Frame) (ctl sec ns st : Nat) : State :=
  let u := s.txStamp m
  let bad := insertRefused f ctl
  let g := if bad then f else insertStamp f ctl sec ns u
  let s := if bad then s.incSat (R.ETH_TSCNT_INSR m) else s
  let s := s.capture m ctl u
  let x := s.mac m
  s.setMac m { x with wire := withFcs g :: x.wire, txDone := x.txDone ++ [⟨i, st⟩] }

/-- A frame of `n` bytes from a queue that is not timed may start before the timed head (R288): its last
bit and the inter-frame gap precede L - 64 ns. -/
def State.mayStart (s : State) (m n : Nat) : Bool :=
  match (s.mac m).timed with
  | [] => true
  | h :: _ => decide ((8 * (n + 4) + 96 + 64 : Nat) ≤ s.launchD h.sec h.ns)

/-- ETHn.LSTA.LINK. -/
def State.linkUp (s : State) (m : Nat) : Bool := s.on (R.ETH_LSTA_LINK m)

/-- The MAC takes the next descriptor of its transmit ring: a timed frame is queued, another one
departs at once if R288 lets it (R285, R287, R288). -/
def State.ethTransmit (s : State) (m : Nat) : State :=
  let x := s.mac m
  let n := s.txLen m
  let i := (s.get (R.ETH_TXHD_HEAD m) + x.taken) % n
  if !s.runs (ethPage m) || i == s.get (R.ETH_TXTL_TAIL m) || decide (n ≤ x.taken + 1) then s
  else
    let (d, t) := s.blockRead (s.txDesc m i) 32
    let (f, t) := t.blockRead (descLE d 0 8) (descLE d 8 2)
    let ctl := descLE d 24 4
    let ns := descLE d 16 4
    let sec := descLE d 20 4
    if ctlLaunch ctl then
      t.setMac m { x with timed := x.timed ++ [⟨i, f, sec, ns, ctl, false⟩], taken := x.taken + 1 }
    else if s.linkUp m && s.mayStart m f.length then
      (t.setMac m { x with taken := x.taken + 1 }).ethDepart m i f ctl sec ns 1
    else s

/-- The head of the timed queue is dropped (R289). -/
def State.timedDrop (s : State) (m : Nat) : State :=
  let x := s.mac m
  match x.timed with
  | [] => s
  | h :: t => (s.incSat (R.ETH_TLCNT_DROP m)).setMac m
      { x with timed := t, txDone := x.txDone ++ [⟨h.index, 3⟩] }

/-- The head of the timed queue departs; `st` is its status word. -/
def State.timedSend (s : State) (m st : Nat) : State :=
  let x := s.mac m
  match x.timed with
  | [] => s
  | h :: t => (s.setMac m { x with timed := t }).ethDepart m h.index h.f h.ctl h.sec h.ns st

/-- A timed head whose launch time is not ahead: sent late within LATE, or dropped; a link that is down drops it
(R289). -/
def State.timedLate (s : State) (m : Nat) (d : Int) : State :=
  if s.linkUp m && decide (-((s.get (R.ETH_TSCFG_LATE m) * 1000 : Nat) : Int) ≤ d) then
    (s.incSat (R.ETH_TLCNT_LATE m)).timedSend m 5
  else s.timedDrop m

/-- The timed head reaches the transmitter and is classified (R289). -/
def State.timedHead (s : State) (m : Nat) : State :=
  let x := s.mac m
  match x.timed with
  | [] => s
  | h :: t =>
    let d := s.launchD h.sec h.ns
    if !s.runs (ethPage m) then s
    else if d > 1000000000 then s.timedDrop m
    else if d > 0 then s.setMac m { x with timed := { h with atHead := true } :: t }
    else s.timedLate m d

/-- The launch of the timed head that waits, at its time; where a step of system time has made it late it is sent late or
dropped by the present time, and where time has not come to it, it waits on (R287, R289). DEDUCED (log 158). -/
def State.timedLaunch (s : State) (m : Nat) : State :=
  match (s.mac m).timed with
  | [] => s
  | h :: _ =>
    if !s.runs (ethPage m) || !h.atHead then s
    else
      let s := s.elapse (s.launchWait m h.sec h.ns)
      let left := launchLeft h.sec h.ns (s.txStamp m)
      let d := s.launchD h.sec h.ns
      if left > 0 then s
      else if left ≤ -(8 * 2 ^ 40) ∧ d ≤ 0 then s.timedLate m d
      else if s.linkUp m then s.timedSend m 1
      else s.timedDrop m

/-- The station address as six bytes (R436). -/
def State.stationAddr (s : State) (m : Nat) : Frame :=
  bytesBE 2 (s.get (R.ETH_MACH_ADDR m)) ++ bytesBE 4 (s.get (R.ETH_MACL_ADDR m))

/-- Whether a received frame is meant for the MAC: promiscuous, its own address, or a group address.
PRESUMED (log 156). -/
def State.ethMine (s : State) (m : Nat) (f : Frame) : Bool :=
  s.on (R.ETH_MCFG_PROM m) || decide (f.take 6 = s.stationAddr m) || bitOf (nth f 0 0).toNat 0

/-- A frame arrives: it is stored through the next receive descriptor, with its timestamp where R284
wants one, or dropped where none is free (R284, R436, R437). DEDUCED (log 157). -/
def State.ethReceive (s : State) (m : Nat) (f : Frame) (fcsOk : Bool) : State :=
  if !s.runs (ethPage m) || !s.linkUp m || !s.ethMine m f then s
  else
    let x := s.mac m
    let n := s.rxLen m
    let i := (s.get (R.ETH_RXHD_HEAD m) + x.rxDone.length) % n
    if i == s.get (R.ETH_RXTL_TAIL m) || decide (n ≤ x.rxDone.length + 1) then s.put (R.ETH_LSTA_DROPR m) 1
    else
      let a := s.rxDesc m i
      let stamped := s.on (R.ETH_TSCFG_TSALL m) || fieldBE f 12 2 == 0x88F7
      let u := s.rxStamp m
      let st := 1 + (if fcsOk then 0 else 2) + (if stamped then 4 + subOf u * 2 ^ 24 else 0)
      let (d, s) := s.blockRead a 10
      let data := f.take (descLE d 8 2)
      let s := (s.blockStore (descLE d 0 8) data).blockStore (a + 10) (bytesLE 2 data.length)
      let s := if stamped then s.blockStore (a + 16) (bytesLE 4 (nsOf u) ++ bytesLE 4 (secOf u)) else s
      s.setMac m { x with rxDone := x.rxDone ++ [⟨i, st⟩] }

/-- The completion of a descriptor: its status is written, the head advances past it, and the MAC issues
its DSX event (R436, R437). -/
def State.ethComplete (s : State) (m : Nat) (tx : Bool) : State :=
  let x := s.mac m
  if !s.runs (ethPage m) then s
  else if tx then
    match x.txDone with
    | [] => s
    | d :: t =>
      let s := s.blockStore (s.txDesc m d.index + 28) (bytesLE 4 d.status)
      let s := s.setMac m { x with txDone := t, taken := x.taken - 1 }
      (s.put (R.ETH_TXHD_HEAD m) ((s.get (R.ETH_TXHD_HEAD m) + 1) % s.txLen m)).dsxIssue (0x45 + 2 * m) d.index
  else
    match x.rxDone with
    | [] => s
    | d :: t =>
      let s := s.blockStore (s.rxDesc m d.index + 12) (bytesLE 4 d.status)
      let s := s.setMac m { x with rxDone := t }
      (s.put (R.ETH_RXHD_HEAD m) ((s.get (R.ETH_RXHD_HEAD m) + 1) % s.rxLen m)).dsxIssue (0x44 + 2 * m) d.index

/-- A tail written: a value beyond the ring length is ignored and sets STA.WERR (R436).
DEDUCED (log 157). -/
def State.tailWrite (s : State) (m : Nat) (tx : Bool) (v : Nat) : State :=
  let v := v % 65536
  if tx then if s.txLen m ≤ v then s.put (R.WERR (ethPage m)) 1 else s.put (R.ETH_TXTL_TAIL m) v
  else if s.rxLen m ≤ v then s.put (R.WERR (ethPage m)) 1 else s.put (R.ETH_RXTL_TAIL m) v

/-- A read of ETH.TXTSF: the oldest capture, with the number held before the read, is returned and
removed (R291). -/
def State.captureRead (s : State) (m : Nat) : Nat × State :=
  let x := s.mac m
  match x.fifo with
  | [] => (0, s)
  | c :: t => (2 ^ 31 + x.fifo.length * 256 + c.sub, s.setMac m { x with fifo := t })

/-- ETH_FRAME_TRANSMIT (R285). -/
def execEthFrameTransmit (m : Fin 2) (s : State) : Host.Outcome State Fault Refusal :=
  .next (live s (s.ethTransmit m))

/-- TIMED_HEAD_ARRIVAL (R289). -/
def execTimedHeadArrival (m : Fin 2) (s : State) : Host.Outcome State Fault Refusal :=
  .next (live s (s.timedHead m))

/-- TIMED_LAUNCH (R287). -/
def execTimedLaunch (m : Fin 2) (s : State) : Host.Outcome State Fault Refusal :=
  .next (live s (s.timedLaunch m))

/-- ETH_FRAME_RECEIVE (R284). -/
def execEthFrameReceive (m : Fin 2) (f : Frame) (fcsOk : Bool) (s : State) : Host.Outcome State Fault Refusal :=
  .next (live s (s.ethReceive m f fcsOk))

/-- CAPTURE_READ (R291). -/
def execCaptureRead (m : Fin 2) (s : State) : Host.Outcome State Fault Refusal :=
  .next (live s (if s.gated (ethPage m) then { s with resp := ⟨true, 0⟩ }
    else if s.on (R.SRB (ethPage m)) then { s with resp := ⟨false, 0⟩ }
    else let (v, t) := s.captureRead m
      { t with resp := ⟨false, BitVec.ofNat 32 v⟩ }))

/-- TX_TAIL_WRITE (R436). -/
def execTxTailWrite (m : Fin 2) (v : W32) (s : State) : Host.Outcome State Fault Refusal :=
  .next (live s (s.cmd (ethPage m) (s.tailWrite m true v.toNat)))

/-- RX_TAIL_WRITE (R436). -/
def execRxTailWrite (m : Fin 2) (v : W32) (s : State) : Host.Outcome State Fault Refusal :=
  .next (live s (s.cmd (ethPage m) (s.tailWrite m false v.toNat)))

/-- DESCRIPTOR_COMPLETION (R437). -/
def execDescriptorCompletion (m : Fin 2) (tx : Bool) (s : State) : Host.Outcome State Fault Refusal :=
  .next (live s (s.ethComplete m tx))

/-- ETH_LINK_CHANGE (R436): the link of a powered MAC goes up or down. -/
def execEthLinkChange (m : Fin 2) (up : Bool) (s : State) : Host.Outcome State Fault Refusal :=
  .next (live s (s.when (!s.gated (ethPage m)) (s.putB (R.ETH_LSTA_LINK m) up)))

end Sys2Proof.Machine
end

