-- ==== Sys2Proof/Machine/Enum.lean ====
section
/-! DEFINITION. Enumeration of rings and upper chains: Enum, Enum reply and Assign frames, the findings of
the two ends, and the admission of a lane (R24, R28, R29, R33, R108 to R111, R386, R440). -/

namespace Sys2Proof.Machine

/-! ### Frames -/

/-- The first bytes of an Enum or Assign body: END, INTACT and PAIR, N, ROUND (R108). -/
def enumHead (sideB intact : Bool) (pair n round : Nat) : List Byte :=
  bytesBE 1 (128 * b2n sideB + 64 * b2n intact + pair) ++ bytesBE 1 n ++ bytesBE 2 round

/-- END of an Enum, Enum reply or Assign frame is B. -/
def eEndB (f : Frame) (i : Nat) : Bool := bitOf (byteAt f i) 7
/-- PAIR of an Enum or Assign frame. -/
def ePair (f : Frame) : Nat := byteAt f 12 % 16
/-- N of an Enum or Assign frame. -/
def eN (f : Frame) : Nat := byteAt f 13
/-- ROUND of an Enum or Assign frame. -/
def eRound (f : Frame) : Nat := fieldBE f 14 2
/-- Bit `p` of REFUSE of an Assign frame. -/
def eRefused (f : Frame) (p : Nat) : Bool := bitOf (fieldBE f 16 8) p

/-- The body of an Enum reply (R108). DEDUCED (log 78). -/
def replyBody (round : Nat) (endB rev fb rcv : Bool) (hrx serial : Nat) : List Byte :=
  bytesBE 2 round ++ bytesBE 1 (128 * b2n endB + 64 * b2n rev + 32 * b2n fb + 16 * b2n rcv) ++ bytesBE 1 hrx ++
    bytesBE 8 serial

/-! ### Reports and messages -/

/-- The firmware base reports (R24, R33, R110). DESIGN CHOICE (log 26). -/
def State.tell (s : State) (b : Bool) (r : AzfReport) : State :=
  s.when b { s with azf := { s.azf with reports := r :: s.azf.reports } }

/-- A Mailbox message of this node's own, resent until it is acknowledged (R105). -/
def State.mailSend (s : State) (lane dst : Nat) (data : List Byte) : State :=
  let q := (s.azf.mseq + 1) % 256
  let s : State := { s with azf := { s.azf with
    mseq := q, outbox := s.azf.outbox ++ [{ dst := dst, lane := lane, seq := q, data := data, age := 0, resends := 0 }] } }
  s.launch lane (s.frame { s.hdr tyMailbox with dst := dst, ring := s.laneRing lane } (mailboxBody q Option.none data))

/-! ### Starting a round -/

/-- Whether a number is a configured ring, in role S, or chain, in role C. -/
def State.enumHas (s : State) (r : Nat) : Bool :=
  if s.isC then decide (r < 8) && Config.chainLen r != 0 else decide (r < 16) && s.ringLen r != 0

/-- Whether it is one that ENUMGO names (R123). -/
def State.enumOn (s : State) (r : Nat) : Bool := s.bit R.AZF_ENUM_RMASK r && s.enumHas r

/-- The configured length of a ring or of a chain. -/
def State.enumLen (s : State) (r : Nat) : Nat := if s.isC then Config.chainLen r else s.ringLen r

/-- PAIR of the frames of a round; a chain has none. -/
def State.enumPair (s : State) : Nat := if s.isC then 0 else s.pair

/-- Enum is sent on ring or chain `r` (R109, R111). -/
def State.enumStart (s : State) (r : Nat) : State :=
  let round := s.get R.AZF_ENUM_ROUND
  let e : EnumRun := ⟨round, 0, [], Option.none, Option.none, false, false⟩
  let s : State := { s with azf := { s.azf with enums := alPut s.azf.enums r e } }
  s.launch r (s.frame { s.hdr tyEnum with ring := r } (enumHead s.sideB false s.enumPair (s.enumLen r) round))

/-- A new round on the rings or chains that `p` selects (R110). -/
def State.enumRound (s : State) (p : Nat → Bool) : State :=
  forUpTo 16 (fun r x => if p r then x.enumStart r else x) (s.incWrap R.AZF_ENUM_ROUND)

/-- AZF.CMD.ENUMGO (R110, R111). -/
def State.enumGo (s : State) : State :=
  s.when ((s.isC || s.isS) && s.azfOn) (s.enumRound (fun r => s.enumOn r))

/-- ENUMGO (R110). -/
def execEnumGo (s : State) : Host.Outcome State Fault Refusal := .next (live s (s.cmd 0x34 s.enumGo))

/-! ### Receiving Enum -/

/-- An Enum that a cell or a Section receives from one end, as it is kept. -/
def State.seen (s : State) (endB : Bool) : Option EnumSeen := if endB then s.azf.seenB else s.azf.seenA

/-- The Enum kept for one end replaced. -/
def State.setSeen (s : State) (endB : Bool) (e : Option EnumSeen) : State :=
  { s with azf := if endB then { s.azf with seenB := e } else { s.azf with seenA := e } }

/-- A cell or Section answers an Enum toward the end it came from (R109, R111). `a` is the lane that faces END A, `b` the
one that faces END B. DEDUCED (log 78). -/
def State.enumAnswer (s : State) (n a b : Nat) (f : Frame) : State :=
  let endB := eEndB f 12
  let rev := if endB then n == a else n == b
  let s := s.setSeen endB (some ⟨fHops f, eN f, ePair f, fRing f, eRound f, rev, Option.none⟩)
  let s := if s.isK then
      let t : State := { s with cell := { s.cell with reversed := rev } }
      (t.when rev (t.setByp 4 true)).tell (rev && !s.cell.reversed) .reversed
    else s
  let fb := s.isK && s.on R.PWM_SCFG_FB
  s.launch n (s.frame { s.hdr tyEnumReply with dst := fSrc f, ring := fRing f }
    (replyBody (eRound f) endB rev fb s.imgFail (fHops f) Config.serial.toNat))

/-- A round's run changed, where there is one. -/
def State.setRun (s : State) (r : Nat) (g : EnumRun → EnumRun) : State :=
  match alGet (s.azf.enums.map (fun p => (p.1, some p.2))) r Option.none with
  | Option.none => s
  | some e => { s with azf := { s.azf with enums := alPut s.azf.enums r (g e) } }

/-- Enumeration refuses this Conductor or Section (R33, R111). -/
def State.refused (s : State) : Bool := s.azf.refBy != 0

/-- One cause of a refusal is there or gone; the member reports that it is refused (R33). DESIGN CHOICE (log 26). -/
def State.setRefused (s : State) (k : Nat) (b : Bool) : State :=
  let v := if b then setBitN s.azf.refBy k else clrBitN s.azf.refBy k
  ({ s with azf := { s.azf with refBy := v } } : State).tell (b && !s.refused) .refused

/-- The partner's Enum has come through the ring or chain: it is intact and holds HOPS nodes (R109). A
Conductor or a Section that meets its own NodeID as the source refuses itself (R33). DESIGN CHOICE (log 26). DEDUCED
(log 78). -/
def State.enumPartner (s : State) (n : Nat) (f : Frame) : State :=
  if fRing f ≠ n then s
  else if fSrc f = s.nodeId then s.setRefused 2 true
  else (s.setRefused 2 false).setRun n (fun e => { e with partner := some (fHops f) })

/-- The lane onto which a node relays what comes along its ring or upper chain on lane `n`, if it does (R23, R28). -/
def State.along (s : State) (n : Nat) : Option Nat :=
  if s.isK && decide (n ≤ 1) then some (1 - n) else if s.isS && (n == 18 || n == 19) then some (37 - n) else Option.none

/-- An Enum or Assign goes on along the ring or chain (R108). -/
def State.hopAlong (s : State) (n ty : Nat) (f : Frame) : State :=
  match s.along n with
  | some m => s.hopOn n m ty f
  | Option.none => s

/-- ENUM_RECEIVE (R109): answered and taken where it passes the checks of a consumed frame, and relayed with one hop more
whatever they say (R89, R90). -/
def execEnumReceive (n : Fin 20) (f : Frame) (s : State) : Host.Outcome State Fault Refusal :=
  .next (live s ((s.onFrame n tyEnum f (fun s =>
    if f.length ≠ 20 then s
    else match s.role with
      | .cell => s.when (decide (n.val ≤ 1) && s.takesPart) (s.enumAnswer n 0 1 f)
      | .sect =>
        if n.val = 18 ∨ n.val = 19 then s.enumAnswer n 18 19 f
        else s.when (decide (n.val < 16)) (s.enumPartner n f)
      | .conductor => s.when (decide (n.val < 8)) (s.enumPartner n f)
      | .none => s)).hopAlong n tyEnum f))

/-- An Enum reply collected at the end that started the round (R109). -/
def State.enumReply (s : State) (n : Nat) (f : Frame) : State :=
  let r : EnumReply := ⟨byteAt f 15, fSrc f, bitOf (byteAt f 14) 6, bitOf (byteAt f 14) 5, bitOf (byteAt f 14) 4,
    fieldBE f 16 8⟩
  match alGet (s.azf.enums.map (fun p => (p.1, some p.2))) n Option.none with
  | Option.none => s
  | some e =>
    if fRing f ≠ n ∨ fieldBE f 12 2 ≠ e.round ∨ eEndB f 14 ≠ s.sideB then s
    else s.setRun n (fun e => { e with replies := e.replies ++ [r] })

/-- ENUM_REPLY_RECEIVE (R109). -/
def execEnumReplyReceive (n : Fin 20) (f : Frame) (s : State) : Host.Outcome State Fault Refusal :=
  .next (live s (s.onFrame n tyEnumReply f (fun s =>
    s.when (decide (f.length = 28) && ((s.isS && decide (n.val < 16)) || (s.isC && decide (n.val < 8))))
      (s.enumReply n f))))

/-! ### Findings and Assign -/

/-- The replies form hops 0, 1, … without a gap (R109). -/
def gapless (l : List EnumReply) : Bool :=
  (List.range l.length).all (fun h => (l.filter (fun r => r.hop == h)).length == 1)

/-- The position of a hop counted from this member's end. -/
def State.posOf (s : State) (r h : Nat) : Nat := if s.sideB then s.enumLen r - 1 - h else h

/-- A reply's cell is reversed, or its FB disagrees with the configured map (R109). -/
def State.replyBad (s : State) (r : Nat) (x : EnumReply) : Bool :=
  x.rev || x.fb != (s.ent (64 * r + s.posOf r x.hop)).fb

/-- A Section of a chain agrees with R28: the chain of its pair and its order on it (R29, R111). -/
def State.orderOk (s : State) (c : Nat) (x : EnumReply) : Bool :=
  let i := x.node - 0x100
  decide (0x100 ≤ x.node ∧ x.node < 0x11E) && i / 4 == c &&
    s.posOf c x.hop == (if 2 < Config.chainLen c then i % 4 else i % 2)

/-- Another Section of the rounds latched the same NodeID (R33). -/
def State.twice (s : State) (x : EnumReply) : Bool :=
  decide (1 < ((s.azf.enums.flatMap (fun p => p.2.replies)).filter (fun y => y.node == x.node)).length)

/-- REFUSE of a ring or chain, a sum of powers of two over the positions or hops to refuse.
DEDUCED (log 78). -/
def State.refuseOf (s : State) (r : Nat) (l : List EnumReply) : Nat :=
  (List.range 64).foldl (fun m i =>
    let hit (x : EnumReply) : Bool :=
      if s.isC then x.hop == i && (!s.orderOk r x || s.twice x) else s.posOf r x.hop == i && s.replyBad r x
    m + (if l.any hit then 2 ^ i else 0)) 0

/-- The Assign frame of a ring or chain (R108). -/
def State.assign (s : State) (r : Nat) (e : EnumRun) (intact : Bool) : State :=
  s.launch r (s.frame { s.hdr tyAssign with ring := r }
    (enumHead s.sideB intact s.enumPair (s.enumLen r) e.round ++ bytesBE 8 (s.refuseOf r e.replies)))

/-- The serials of a round's replies recorded by position; a changed one is reported as a sub-module exchange (R110). -/
def State.noteSerials (s : State) (r : Nat) (l : List EnumReply) : State :=
  forEach l (fun x t =>
    let i := 64 * r + t.posOf r x.hop
    let old := alGet t.azf.serials i x.serial
    ({ t with azf := { t.azf with serials := alPut t.azf.serials i x.serial } } : State).tell (old != x.serial)
      (.exchanged i x.serial)) s

/-- The confirmed positions of a ring replaced. -/
def State.setConf (s : State) (r : Nat) (l : List Nat) : State :=
  { s with azf := { s.azf with
    conf := s.azf.conf.filter (fun i => decide (i / 64 < r)) ++ l.map (64 * r + ·) ++
      s.azf.conf.filter (fun i => decide (r < i / 64)) } }

/-- A Section decides on a ring: refused, or assigned (R109). `b` is the partner's reply count.
DEDUCED (log 78). -/
def State.enumDecide (s : State) (r : Nat) (intact : Bool) (b : Nat) : State :=
  match alGet (s.azf.enums.map (fun p => (p.1, some p.2))) r Option.none with
  | Option.none => s
  | some e =>
    let n := s.ringLen r
    let a := e.replies.length
    let bad := (if intact then e.partner.getD 0 != n else decide (n < a + b)) || !gapless e.replies
    let s := (s.setRun r (fun e => { e with decided := true })).noteSerials r e.replies
    if bad then s.setRing r 3
    else
      let m := s.refuseOf r e.replies
      let own (p : Nat) : Bool := if s.sideB then decide (n ≤ p + a) else decide (p < a)
      let far (p : Nat) : Bool := if s.sideB then decide (p < b) else decide (n ≤ p + b)
      let l := (List.range n).filter (fun p => (own p || far p) && !bitOf m p)
      ((s.setConf r l).setRing r (if intact then 1 else 2)).assign r e intact

/-- A Section decides once it has told its finding and has its partner's (R109). -/
def State.enumTry (s : State) (r : Nat) : State :=
  match alGet (s.azf.enums.map (fun p => (p.1, some p.2))) r Option.none with
  | Option.none => s
  | some e =>
    match e.finding with
    | some (intact, b) => s.when (e.told && !e.decided) (s.enumDecide r (intact && e.partner.isSome) b)
    | Option.none => s

/-- The lane that reaches the partner of a Section: a partner lane in service, or the link of the upper chain
that joins the two (R28, R109). -/
def State.findingLane (s : State) (r : Nat) : Nat := (s.partnerLane r).getD (if s.sideB then 18 else 19)

/-- A Section tells its finding on a ring at the Strike after Enum, when the tick's replies are complete.
DEDUCED (log 77). -/
def State.enumTell (s : State) (r : Nat) (e : EnumRun) : State :=
  let d := Config.findingBytes r e.partner.isSome e.replies.length
  let s := s.setRun r (fun e => { e with told := true })
  (s.mailSend (s.findingLane r) s.partnerId d).enumTry r

/-- A Section of the chain whose replies are `l` has also answered on the chain of run `e` (R33). -/
def EnumRun.shares (e : EnumRun) (l : List EnumReply) : Bool :=
  e.replies.any (fun x => l.any (fun y => y.node == x.node))

/-- A Conductor checks a chain and assigns at the Strike after Enum (R111); a chain it has decided before and on which a
Section has the NodeID of one found now is assigned again, so that both are refused (R33). PRESUMED (log 79). -/
def State.enumChain (s : State) (r : Nat) (e : EnumRun) : State :=
  let old := s.azf.enums.filter (fun p => p.1 != r && p.2.decided && p.2.shares e.replies)
  let s := (s.setRun r (fun e => { e with told := true, decided := true })).assign r e e.partner.isSome
  forEach old (fun p x => x.assign p.1 p.2 p.2.partner.isSome) s

/-- Enumeration is complete at a Conductor: the lanes of upper chains that the configuration leaves unused are powered down
(R17). DEDUCED (log 27). -/
def State.chainsOff (s : State) : State :=
  forUpTo 8 (fun c x => if Config.chainLen c = 0 then (x.put (R.EN (lanePage c)) 0).laneOff c else x) s

/-- The rounds under way at a Strike. -/
def State.enumStrike (s : State) : State :=
  let done := s.isC && s.azf.enums.any (fun p => !p.2.told)
  let s := forEach s.azf.enums (fun p x =>
    let x := x.setRun p.1 (fun e => { e with age := e.age + 1 })
    if p.2.told then x else if x.isC then x.enumChain p.1 p.2 else x.enumTell p.1 p.2) s
  if done then s.chainsOff else s

/-- The ring lanes of a Section that are out of service. -/
def State.lanesOut (s : State) : List Nat := (List.range 16).filter (fun r => s.ringLen r != 0 && !s.inSvc r)

/-- A Section tells its partner at the Strike when its ring lanes in service have changed (R112). DEDUCED (log 80). -/
def State.lanesTell (s : State) : State :=
  let l := s.lanesOut
  match s.partnerLane 0 with
  | some p =>
    s.when (s.isS && s.azf.toldOut != l)
      (({ s with azf := { s.azf with toldOut := l } } : State).mailSend p s.partnerId (Config.lanesBytes l))
  | Option.none => s

/-- ENUM_FINDING_TIMEOUT (R109): no finding within 16 ticks of sending Enum. -/
def State.findingTimeout (s : State) (r : Nat) : State :=
  match alGet (s.azf.enums.map (fun p => (p.1, some p.2))) r Option.none with
  | Option.none => s
  | some e => s.when (decide (16 ≤ e.age) && !e.decided && e.finding.isNone) (s.enumDecide r false 0)

/-- ENUM_FINDING_TIMEOUT (R109). DEDUCED (log 77). -/
def execEnumFindingTimeout (ring : Fin 16) (s : State) : Host.Outcome State Fault Refusal :=
  .next (live s (s.when (s.isS && s.azfOn) (s.findingTimeout ring)))

/-! ### Receiving Assign -/

/-- A confirmed cell whose computed position differs: its NodeID is withdrawn, which is reported (R110). -/
def State.withdraw (s : State) : State :=
  let s := ((s.tell true .withdrawn).put R.SYS_NODEID_VALID 0).put R.SYS_NODEID_ID 0
  ({ s with
    azf := { s.azf with seenA := Option.none, seenB := Option.none }
    cell := { s.cell with cmd := .none } } : State).showDecision

/-- The position that an Assign gives a cell, where every condition of R109 on the frame itself holds and its pair is one
of R18. -/
def State.assignPos (s : State) (n : Nat) (f : Frame) : Option Nat :=
  let endB := eEndB f 12
  match s.seen endB with
  | Option.none => Option.none
  | some e =>
    let p := if endB then eN f - 1 - e.h else e.h
    if !e.rev && (n == if endB then 1 else 0) && e.h == fHops f && e.pair == ePair f && e.ring == fRing f &&
        e.round == eRound f && decide (e.h < eN f ∧ eN f ≤ 64 ∧ ePair f ≤ 14) && !eRefused f p then some p else Option.none

/-- The position an Assign of the other end gave in the same round. -/
def State.otherPos (s : State) (f : Frame) : Option Nat :=
  match s.seen (!eEndB f 12) with
  | Option.none => Option.none
  | some e => if e.round = eRound f then e.pos else Option.none

/-- An Assign at a cell; the enumeration that confirms the cell ends its REV request (R109, R110, R247, R386). -/
def State.assignIn (s : State) (n : Nat) (f : Frame) : State :=
  match s.assignPos n f with
  | Option.none => s
  | some p =>
    let id := cellId (ePair f) (64 * fRing f + p)
    let o := s.otherPos f
    let s := s.setSeen (eEndB f 12) ((s.seen (eEndB f 12)).map (fun e => { e with pos := some p }))
    if s.idValid then (if s.nodeId = id then s.setByp 4 false else s.withdraw)
    else if o.isSome && o != some p then
      (if s.imgFail then { s with azf := { s.azf with recNode := Option.none } } else s)
    else
      let s : State := { s with azf := { s.azf with ringN := eN f } }
      if s.imgFail then { s with azf := { s.azf with recNode := some id } }
      else ((s.put R.SYS_NODEID_ID id).put R.SYS_NODEID_VALID 1).setByp 4 false

/-- An Assign at a Section of the chain: refused or not (R29, R111). -/
def State.assignChain (s : State) (f : Frame) : State :=
  match s.seen (eEndB f 12) with
  | Option.none => s
  | some e =>
    if e.ring = fRing f ∧ e.round = eRound f ∧ e.h = fHops f then
      s.setRefused (b2n (eEndB f 12)) (eRefused f e.h)
    else s

/-- ASSIGN_RECEIVE (R109): taken where it passes the checks of a consumed frame, and relayed with one hop more whatever they
say (R89, R90, R108). -/
def execAssignReceive (n : Fin 20) (f : Frame) (s : State) : Host.Outcome State Fault Refusal :=
  .next (live s ((s.onFrame n tyAssign f (fun s =>
    if f.length ≠ 28 then s
    else match s.role with
      | .cell => s.when (decide (n.val ≤ 1) && s.takesPart) (s.assignIn n f)
      | .sect => s.when (n.val == 18 || n.val == 19) (s.assignChain f)
      | _ => s)).hopAlong n tyAssign f))

/-! ### Lane admission -/

/-- The lane enters service: its link delay is measured each tick for 8 ticks (R116), and the firmware base starts a round
on the ring or chain that begins at it, as at the start of the system and at every return (R110, R111).
What was measured before is forgotten, and LD keeps its value until the first new measurement. DEDUCED (log 28).
DESIGN CHOICE (log 267). -/
def State.admitLane (s : State) (n : Nat) : State :=
  let s := s.put (R.AZL_LSTAT_INSVC n) 1
  let s : State := { s with azf := { s.azf with links := setNth s.azf.links n LinkMeas.init LinkMeas.init } }
  s.when ((s.isC || s.isS) && s.azfOn && s.enumHas n) (s.enumRound (fun r => r == n))

/-- LANE_ADMISSION (R440): the end of the ADMIT-th whole tick in UP. -/
def execLaneAdmission (n : Fin 20) (s : State) : Host.Outcome State Fault Refusal :=
  .next (live s (s.when (s.laneOn n && s.laneUp n && !s.inSvc n &&
    decide (max 1 (s.get (R.AZL_TRCFG_ADMIT n)) ≤ (s.lane n).whole)) (s.admitLane n)))

end Sys2Proof.Machine
end

