-- ==== Sys2Proof/Machine/Sect.lean ====
section
/-! DEFINITION. The Section in its tick: Decide begin, Broadcast, the command deadline and its Repeats, the
Report, trajectories, and the mailbox in both directions (R38, R45 to R50, R99 to R107, R138, R141). -/

namespace Sys2Proof.Machine

/-! ### Decide -/

/-- A TRG 01 evaluation of the arm is still queued or running. DEDUCED (log 49). -/
def State.decideWaits (s : State) (a : Nat) : Bool :=
  let mine (n : Nat) : Bool := s.get (R.CLE_CCFG_TRG n) == 1 && s.get (R.CLE_CCFG_ARM n) == a
  s.cle.queue.any (fun q => mine q.ch) || (match s.cle.run with
    | some r => mine r.ch
    | Option.none => false)

/-- The level count follows as soon as Decide has begun and the inner loop is complete, unless the deadline has passed
(R48, R132). -/
def State.decideStep (s : State) (a : Nat) : State :=
  s.when (bitOf s.rse.begun a && !bitOf s.rse.counted a && !bitOf s.rse.reps a && !s.decideWaits a) (s.levelCount a)

/-- Decide begin of an arm, whose conditions were fixed at the Strike: everything expected has arrived, or the cut-off, or
instant 400 where nothing is expected (R38). DEDUCED (log 49). -/
def State.decideBegin (s : State) (a : Nat) : State :=
  if !(s.isS && s.lock && bitOf s.rse.allowed a && !bitOf s.rse.begun a) then s
  else
    let s := if s.expectsNone a then s.toInstant 400 else if s.allIn a then s else s.toInstant s.cutNs
    let s : State := { s with
      azf := { s.azf with hdone := s.tickNs }
      rse := { s.rse with begun := setBitN s.rse.begun a } }
    let s := (s.dsxIssue (0x11 + a) 1).ringFold
    (s.cleDecide a).decideStep a

/-- DECIDE_BEGIN (R38). -/
def execDecideBegin (arm : Fin 2) (s : State) : Host.Outcome State Fault Refusal := .next (live s (s.decideBegin arm))

/-- HARVEST_CUTOFF (R38): the instant TCK.CDL - 400 is reached; later slots count as lost. -/
def execHarvestCutoff (s : State) : Host.Outcome State Fault Refusal :=
  .next (live s (s.when (s.isS && s.lock) (s.toInstant s.cutNs)))

/-- CLE_EVALUATION_DONE (R161): the evaluation under way completes, and a Decide that waited for it goes on. -/
def execCleEvaluationDone (s : State) : Host.Outcome State Fault Refusal :=
  .next (live s (match s.cle.run with
    | Option.none => s
    | some r => s.when (s.runs 0x0E) (((s.cleFinish r).decideStep 0).decideStep 1)))

/-! ### Mailbox segments (R104) -/

/-- The message in progress on a ring. -/
def State.segOf (s : State) (r : Nat) : Option SegTx := s.azf.segTx.find? (fun m => nodeRing m.dst == r)

/-- The index of the last segment of a message. -/
def SegTx.last (m : SegTx) : Nat := (max 1 m.data.length + 15) / 16 - 1

/-- The message in progress on a ring replaced by `g` of it. -/
def State.setSeg (s : State) (r : Nat) (g : SegTx → Option SegTx) : State :=
  match s.segOf r with
  | Option.none => s
  | some m =>
    { s with azf := { s.azf with segTx := s.azf.segTx.filterMap (fun x => if x = m then g x else some x) } }

/-- An acknowledgement for a cell of the ring without a segment, where one is due: the oldest. -/
def State.takeAck (s : State) (r : Nat) : Segment × State :=
  match s.azf.acks.find? (fun a => nodeRing a.1 == r) with
  | Option.none => (⟨0, 0, 0, 0, [], Option.none⟩, s)
  | some (node, q) => (⟨node, 0, 0, 0, [], some q⟩, { s with azf := { s.azf with acks := alDel s.azf.acks node } })

/-- The mailbox segment of a ring's next Down frame, and the state that has sent it (R104, R105, R141). -/
def State.takeSegment (s : State) (r : Nat) : Segment × State :=
  match s.segOf r with
  | some m =>
    if m.last < m.next then s.takeAck r
    else
      let ack := (s.azf.acks.find? (fun a => a.1 == m.dst)).map Prod.snd
      let g : Segment := ⟨m.dst, m.seq, m.next, m.last, slice m.data (16 * m.next) 16, ack⟩
      let s := s.setSeg r (fun x => some { x with next := x.next + 1 })
      let s : State := { s with azf := { s.azf with acks := alDel s.azf.acks m.dst } }
      let i := m.dst % 1024
      (g, if m.next = m.last ∧ m.data = [0x41] then s.setEnt i { s.ent i with leaveDone := true } else s)
  | Option.none => s.takeAck r

/-- A message to a cell begins, after those already waiting for its ring (R104). -/
def State.sendMessage (s : State) (node : Nat) (data : List Byte) : State :=
  let q := (s.azf.mseq + 1) % 256
  { s with azf := { s.azf with mseq := q, segTx := s.azf.segTx ++ [⟨node, q, data, 0, 0, 0, 0⟩] } }

/-- MAILBOX_RESEND (R104): the acknowledged segment has not advanced for 3 ticks. What follows a
failed Leave the spec leaves open: it may be sent again. DEDUCED (log 81). DESIGN CHOICE (log 269). -/
def State.mailboxResend (s : State) (r : Nat) : State :=
  match s.segOf r with
  | Option.none => s
  | some m =>
    if m.stall < 3 then s
    else if m.resends < 8 then
      (s.setSeg r (fun x => some { x with next := x.acked, stall := 0, resends := x.resends + 1 })).incSat R.AZF_MBX_MRETX
    else
      let i := m.dst % 1024
      let s := (s.setSeg r (fun _ => Option.none)).incSat R.AZF_MBX_MFAIL
      (s.setEnt i { s.ent i with leaveSent := false }).keep 0 2 0x34 (2 ^ 23) m.data

/-- MAILBOX_RESEND (R104). -/
def execMailboxResend (ring : Fin 16) (s : State) : Host.Outcome State Fault Refusal :=
  .next (live s (s.when s.actS (s.mailboxResend ring)))

/-- LEAVE_SEND (R141): a reachable cell lost for LOSTLIM consecutive ticks is sent a Leave, and so again is one that has
shown another state than Orphan after it. DEDUCED (log 94). -/
def State.leaveSend (s : State) (node : Nat) : State :=
  match s.cellIdx node with
  | Option.none => s
  | some i =>
    let e := s.ent i
    let a := armOf (i / 64)
    let lim := s.get (R.RSE_LOST_LOSTLIM a)
    if s.azf.conf.contains i && s.reachable i && lim != 0 && (e.leaveAgain || decide (lim ≤ e.lost)) && !e.leaveSent then
      ((s.setEnt i { e with leaveSent := true, leaveAgain := false }).sendMessage node [0x41]).put (R.RSE_FLG_LEAVE a) 1
    else s

/-- LEAVE_SEND (R141). DEDUCED (log 94). -/
def execLeaveSend (node : Fin 16384) (s : State) : Host.Outcome State Fault Refusal :=
  .next (live s (s.when s.actS (s.leaveSend node)))

/-! ### Broadcast, Repeat and Report -/

/-- A command frame of a ring on its lane and on its partner lane (R102). -/
def State.sendRing (s : State) (r : Nat) (f : Frame) : State :=
  let s := s.launch r f
  match s.partnerLane r with
  | Option.none => s
  | some p => s.launch p f

/-- A Repeat frame of a ring, with the SPLIT of the last Down frame sent on it; before any, the SPLIT is
open (R101). DEDUCED (log 95). -/
def State.repeatRing (s : State) (r : Nat) : State :=
  let (sp, s) : Nat × State := match alGet (s.azf.splits.map (fun p => (p.1, some p.2))) r Option.none with
    | some v => (v, s)
    | Option.none =>
      let (z, s) := s.fresh 16
      (z % 65, s)
  s.sendRing r (s.frame { s.hdr tyRepeat with arm := armOf r, ring := r } (repeatBody sp))

/-- The Down frame of a ring, or the Repeat-type frame of a ring hold (R99, R139). -/
def State.downRing (s : State) (c : ArmCmd) (r : Nat) : State :=
  if c.rhold.contains r then s.repeatRing r
  else
    let sp := s.splitOf r
    let (g, s) := s.takeSegment r
    let holds := (alGet c.names r []).map (cellId s.pair)
    let s : State := { s with azf := { s.azf with splits := alPut s.azf.splits r sp } }
    s.sendRing r (s.frame { s.hdr tyDown with arm := armOf r, ring := r } (downBody c sp holds g))

/-- The body of a Report frame (R107). -/
def reportBody (fresh : Nat) (rep fold : Bool) (p : ArmRep) : List Byte :=
  bytesBE 1 fresh ++ bytesBE 1 (b2n rep + 2 * b2n fold) ++ bytesBE 2 (ofSigned 16 p.nins) ++ bytesBE 4 p.vsum ++
    bytesBE 2 p.vmin ++ bytesBE 2 p.vmax ++ bytesBE 2 p.ncand ++ bytesBE 2 p.nlost ++ bytesBE 2 p.nhold ++
    bytesBE 2 p.norph ++ bytesBE 2 p.nbyp ++ zeros 2

/-- The Report frame of an arm toward both Conductors (R107). -/
def State.report (s : State) (a : Nat) (rep : Bool) (p : ArmRep) : State :=
  let v := (nth s.azf.freshTx a 0 + 1) % 256
  let s : State := { s with azf := { s.azf with freshTx := setNth s.azf.freshTx a v 0 } }
  let fold := (List.range 16).any (fun r => s.ringLen r != 0 && s.breaks r != [])
  s.launchAll [18, 19] (s.frame { s.hdr tyReport with arm := a, ring := s.laneRing 18 } (reportBody v rep fold p))

/-- Every arm of the mode has launched: DSX source 0x13 (R217). -/
def State.allLaunched (s : State) : State :=
  s.when (arms.all (fun a => bitOf s.rse.downs a || bitOf s.rse.reps a)) (s.dsxIssue 0x13 s.rse.reps)

/-- The Down frames of an arm, its Report, and the account of what they command (R102, R107, R138). -/
def State.broadcast (s : State) (a : Nat) : State :=
  match (s.inst a).cmd with
  | Option.none => s
  | some c =>
    let s := forEach (s.armRings a) (fun r x => x.downRing c r) (s.showRingHolds a c.rhold)
    let s := s.report a false c.rep
    let s := forEach c.after (fun p x => x.setEnt p.1 { x.ent p.1 with est := p.2 }) s
    let s := s.setInst a { s.inst a with
      ksel := c.ksel, trimNext := if c.trv then c.trim else 0
      dirNext := if c.trv then (if c.level < 0 then -1 else 1) else 0, expNext := some c.nins }
    ({ s with
      azf := { s.azf with cmdat := s.tickNs }
      rse := { s.rse with downs := setBitN s.rse.downs a } } : State).allLaunched

/-- BROADCAST (R102): the arm's command is ready before the command deadline. -/
def execBroadcast (arm : Fin 2) (s : State) : Host.Outcome State Fault Refusal :=
  .next (live s (s.when (s.actS && s.lock && bitOf s.rse.counted arm && !bitOf s.rse.downs arm &&
    !bitOf s.rse.reps arm && decide (s.tickNs < s.cdlNs)) (s.broadcast arm)))

/-- A Repeat of an arm counted, and whether it escalates (R50). DEDUCED (log 47). -/
def State.countRepeat (s : State) (a : Nat) : State × Bool :=
  let n := nth s.tck.cons a 0 + 1
  let l := 0 :: nth s.tck.repeats a []
  let c := decide (3 ≤ n)
  let w := decide (8 ≤ l.length)
  let esc := (c && !nth s.tck.consHeld a false) || (w && !nth s.tck.winHeld a false)
  let s : State := { s with tck := { s.tck with
    cons := setNth s.tck.cons a n 0
    repeats := setNth s.tck.repeats a l []
    consHeld := setNth s.tck.consHeld a c false
    winHeld := setNth s.tck.winHeld a w false } }
  (if a = 0 then (s.put R.TCK_RPT_CONS0 (min 3 n)).put R.TCK_RPT_WIN0 l.length
   else (s.put R.TCK_RPT_CONS1 (min 15 n)).put R.TCK_RPT_WIN1 l.length, esc)

/-- The overrun of an arm: Repeat frames, the count, the held account and the Report (R48, R50, R107, R146). -/
def State.overrunArm (s : State) (a : Nat) : State × Bool :=
  let s := s.overrun a
  let s := forEach (s.armRings a) (fun r x => x.repeatRing r) s
  let s := s.report a true (s.reportOf a (s.estSum (s.armCells a) (fun _ => true)) (s.candsOf a).length 0)
  let s : State := { s with
    azf := { s.azf with cmdat := s.tickNs }
    rse := { s.rse with reps := setBitN s.rse.reps a } }
  if s.armRings a = [] then (s, false) else s.countRepeat a

/-- The command deadline (R48). -/
def State.deadline (s : State) : State :=
  let s := s.toInstant s.cdlNs
  let late := arms.filter (fun a => !bitOf s.rse.downs a && !bitOf s.rse.reps a)
  if late = [] then s
  else
    let (s, esc) := late.foldl (fun (x, e) a =>
      let (x, e') := x.overrunArm a
      (x, e || e')) (s, false)
    let s := s.allLaunched
    if esc then s.fcuEvent 3 else s

/-- COMMAND_DEADLINE (R48). -/
def execCommandDeadline (s : State) : Host.Outcome State Fault Refusal :=
  .next (live s (s.when (s.actS && s.lock) s.deadline))

/-- TCK.CLR.RCLR (R59): the Repeats are forgotten, and with them the conditions of R50 end. DESIGN CHOICE (log 25). -/
def State.rptClear (s : State) : State :=
  let s := s.zero [R.TCK_RPT_WIN1, R.TCK_RPT_CONS1, R.TCK_RPT_WIN0, R.TCK_RPT_CONS0]
  { s with tck := { s.tck with
    cons := [0, 0], repeats := [[], []], consHeld := [false, false], winHeld := [false, false] } }

/-- REPEAT_COUNT_CLEAR (R59). -/
def execRepeatCountClear (s : State) : Host.Outcome State Fault Refusal := .next (live s (s.cmd 7 s.rptClear))

/-- TCK.CLR.DCLR (R59). -/
def State.drncClear (s : State) : State := s.zero [R.TCK_DRNC_TLM, R.TCK_DRNC_CTL]

/-- DRAIN_COUNT_CLEAR (R59). -/
def execDrainCountClear (s : State) : Host.Outcome State Fault Refusal := .next (live s (s.cmd 7 s.drncClear))

/-! ### Trajectories and Reports received -/

/-- The quantities of a Trajectory frame (R106). -/
def trajQ (f : Frame) : List (Int × Int) :=
  (List.range (byteAt f 15)).map (fun i => (toSigned 32 (fieldBE f (18 + 8 * i) 4), toSigned 32 (fieldBE f (22 + 8 * i) 4)))

/-- A Trajectory frame is one this Section consumes (R106, R326). -/
def State.trajMine (s : State) (f : Frame) : Bool :=
  let m := byteAt f 14 % 32
  s.isS && !s.refused && fAct f && fDst f == 0x100 + 2 * s.pair && arms.contains (fArm f) &&
    decide (1 ≤ byteAt f 15 ∧ byteAt f 15 ≤ 8 ∧ f.length = 22 + 8 * byteAt f 15 ∧ 1 ≤ m ∧ m ≤ 16)

/-- A Trajectory frame at a Section: a new value counts for this tick if it comes before the cut-off (R45,
R91). -/
def State.trajIn (s : State) (f : Frame) : State :=
  let a := fArm f
  match s.freshness a (byteAt f 16) with
  | (s, 2) =>
    let t : Traj := ⟨fieldBE f 12 2, byteAt f 14 % 32, trajQ f, false⟩
    let s : State := { s with azf := { s.azf with trajNew := alPut s.azf.trajNew a t } }
    if s.tickNs < s.cutNs then s.trajTake a else s
  | (s, _) => s

/-- TRAJECTORY_RECEIVE (R45). -/
def execTrajectoryReceive (n : Fin 20) (f : Frame) (s : State) : Host.Outcome State Fault Refusal :=
  .next (live s (s.onFrame n tyTraj f (fun s => s.when (s.trajMine f) (s.trajIn f))))

/-- TRAJECTORY_LOSS (R46): the last trajectory is held, and the source is raised once.
DEDUCED (log 111). -/
def State.trajLoss (s : State) (a : Nat) : State :=
  match s.traj a with
  | Option.none => s
  | some t =>
    if s.trajHeld t && !t.raised then
      ({ s with azf := { s.azf with trajs := alPut s.azf.trajs a { t with raised := true } } } : State).fcuEvent 2
    else s

/-- TRAJECTORY_LOSS (R46). DEDUCED (log 111). -/
def execTrajectoryLoss (arm : Fin 2) (s : State) : Host.Outcome State Fault Refusal :=
  .next (live s (s.when (s.isS && s.lock) (s.trajLoss arm)))

/-- REPORT_RECEIVE (R107): a Conductor consumes the Report of an active Section (R91, R326). -/
def execReportReceive (n : Fin 20) (f : Frame) (s : State) : Host.Outcome State Fault Refusal :=
  .next (live s (s.onFrame n tyReport f (fun s => s.when (s.isC && fAct f && decide (f.length = 40)) (
    match s.freshness (16 + 2 * fSrc f + fArm f) (byteAt f 12) with
    | (s, 0) => s
    | (s, _) => s.keep n 0 (0x20 + n) (tyReport * 2 ^ 16) f))))

/-! ### Mailbox frames (R105) -/

/-- LEN of a Mailbox frame. -/
def mLen (f : Frame) : Nat := fieldBE f 16 2
/-- The data of a Mailbox frame. -/
def mData (f : Frame) : List Byte := slice f 18 (mLen f)

/-- The acknowledgement a Mailbox frame carries; a recovery cell's names its highest contiguous segment
(R386). DEDUCED (log 81). -/
def State.mailAck (s : State) (f : Frame) : State :=
  if !bitOf (byteAt f 14) 7 then s
  else
    let q := byteAt f 13
    let k := ((mData f).headD 0).toNat / 16 + 1
    let seg (m : SegTx) : SegTx :=
      if mLen f == 1 && m.dst == fSrc f && m.seq == q && decide (m.acked < k) then
        { m with acked := k, stall := 0, next := max m.next k } else m
    { s with azf := { s.azf with
      outbox := s.azf.outbox.filter (fun m => !(m.dst == fSrc f && m.seq == q))
      segTx := (s.azf.segTx.map seg).filter (fun m => decide (m.acked ≤ m.last)) } }

/-- The message of a Mailbox frame is acknowledged: to a cell in its ring's Down segment, to another node by a
Mailbox frame. -/
def State.mailReply (s : State) (n : Nat) (f : Frame) : State :=
  if isCellId (fSrc f) then
    { s with azf := { s.azf with acks := alPut s.azf.acks (fSrc f) (byteAt f 12) } }
  else s.launch n (s.frame { s.hdr tyMailbox with dst := fSrc f, ring := s.laneRing n } (mailboxBody 0 (some (byteAt f 12)) []))

/-- The partner's finding on a ring, where a Mailbox frame carries one (R109). DEDUCED (log 77). -/
def State.mailFinding (s : State) (f : Frame) : State :=
  if !(s.isS && fSrc f == s.partnerId) then s
  else
    match Config.findingOf (mData f) with
    | Option.none => s
    | some (r, intact, cnt) => (s.setRun r (fun e => { e with finding := some (intact, cnt) })).enumTry r

/-- The partner's ring lanes out of service, where a Mailbox frame tells them (R112). DEDUCED (log 80). -/
def State.mailLanes (s : State) (f : Frame) : State :=
  match Config.lanesOf (mData f) with
  | some l => s.when (s.isS && fSrc f == s.partnerId) { s with azf := { s.azf with partnerOut := l } }
  | Option.none => s

/-- A Mailbox frame at the node it is for; one that acknowledges with at most one data byte is only an acknowledgement and
is not acknowledged itself (R105). DESIGN CHOICE (log 23). -/
def State.mailIn (s : State) (n : Nat) (f : Frame) : State :=
  let s := ((s.mailAck f).mailFinding f).mailLanes f
  let s := if bitOf (byteAt f 14) 7 && decide (mLen f ≤ 1) then s else s.mailReply n f
  s.keep n 2 (0x20 + n) (tyMailbox * 2 ^ 16) f

/-- MAILBOX_FRAME_RECEIVE (R105). -/
def execMailboxFrameReceive (n : Fin 20) (f : Frame) (s : State) : Host.Outcome State Fault Refusal :=
  .next (live s (s.onFrame n tyMailbox f (fun s => s.when ((s.isS || s.isC) && decide (f.length = 22 + mLen f) &&
    decide (mLen f ≤ 256) && (fDst f == s.nodeId || fDst f == 0)) (s.mailIn n f))))

/-- An unacknowledged message is resent after 4 ticks, and has failed after 8 resends (R105).
DEDUCED (log 81). -/
def State.mailResend (s : State) (dst : Nat) : State :=
  match s.azf.outbox.find? (fun m => m.dst == dst && decide (4 ≤ m.age)) with
  | Option.none => s
  | some m =>
    if m.resends < 8 then
      let s : State := { s with azf := { s.azf with
        outbox := s.azf.outbox.map (fun x => if x = m then { x with age := 0, resends := x.resends + 1 } else x) } }
      (s.launch m.lane (s.frame { s.hdr tyMailbox with dst := dst, ring := s.laneRing m.lane } (mailboxBody m.seq Option.none m.data))).incSat
        R.AZF_MBX_MRETX
    else
      ({ s with azf := { s.azf with outbox := s.azf.outbox.erase m } } : State).incSat R.AZF_MBX_MFAIL

/-- MAILBOX_FRAME_RESEND (R105): at a cell only once the tick's Down frame has come. -/
def execMailboxFrameResend (dst : Fin 16384) (s : State) : Host.Outcome State Fault Refusal :=
  .next (live s (s.when (s.azfOn && (!s.isK || s.azf.cmdSeen)) (s.mailResend dst)))

end Sys2Proof.Machine
end

