-- ==== Sys2Proof/Machine/Align.lean ====
section
/-! DEFINITION. Timing frames, Strike alignment and the link delay of the lanes (R36, R113 to R118, R279,
R280, R441). Instants on the wire are in 1/256 ns. -/

namespace Sys2Proof.Machine

/-- The node's Strike, or a Conductor's own, follows the Timing frames (R118, R441). -/
def State.aligned (s : State) : Bool := if s.isC then s.on R.TCK_STAT_ALGN else s.lock

/-- A node that chooses Timing frames: a Section, a cell, or a Conductor in START or VIGIL (R117, R441). -/
def State.follows (s : State) : Bool :=
  (!s.isC || s.get R.RED_STA_STATE == 0 || s.get R.RED_STA_STATE == 2) && s.azfOn && s.en 7

/-! ### Originating and relaying -/

/-- TFLG.HOLDOVER of the node's own Timing frames (R280). -/
def State.tflg (s : State) : Bool := if s.isC && s.active then s.tbsHoldover else s.azf.holdover

/-- The body of a Timing frame originated now (R113). -/
def State.timingBody (s : State) : List Byte :=
  bytesBE 6 s.tick ++ bytesBE 4 25600 ++ zeros 4 ++ bytesBE 1 (64 * b2n s.tflg) ++ zeros 1 ++
    bytesBE 2 (s.get R.TCK_PER_PER) ++ bytesBE 2 (s.get R.TCK_PNEW_PNEW) ++ bytesBE 1 s.tck.tpLeft ++ zeros 1 ++
    bytesBE 6 (s.get R.TBS_STRKS_SEC) ++ bytesBE 4 (s.get R.TBS_STRKN_NS) ++ bytesBE 1 (s.get R.TBS_STRKF_SUB) ++
    zeros 3

/-- The lanes on which a node originates Timing frames (R114). -/
def State.timingLanes (s : State) : List Nat :=
  if s.isC && s.lock then
    if s.active then List.range 8 ++ [16, 17] else if s.aligned then List.range 8 else []
  else if s.isS && s.lock then List.range 18
  else []

/-- The Timing frame of a tick, at instant 100 (R114). -/
def State.timingOrigin (s : State) : State :=
  if s.timingLanes = [] then s
  else
    let s := s.toInstant 100
    let d := if s.isC && s.active then 0 else s.get R.AZF_TSTA_DEPTH
    forEach s.timingLanes (fun n x =>
      x.launch n (x.frame { x.hdr tyTiming with hops := d, ring := x.laneRing n } x.timingBody)) s

/-- TIMING_FRAME_ORIGIN (R114). -/
def execTimingFrameOrigin (s : State) : Host.Outcome State Fault Refusal :=
  .next (live s (s.when s.azfOn s.timingOrigin))

/-- The lanes between which a node relays Timing frames (R114). -/
def State.timingPath (s : State) (n m : Nat) : Bool :=
  n != m && ((s.isK && decide (n ≤ 1 ∧ m ≤ 1)) || (s.isS && decide (18 ≤ n ∧ 18 ≤ m)))

/-- TIMING_FRAME_RELAY (R115). -/
def execTimingFrameRelay (n m : Fin 20) (f : Frame) (res : Nat) (s : State) : Host.Outcome State Fault Refusal :=
  .next (live s (s.when (s.azfOn && s.laneOk n && s.timingPath n m && fKnown f && fType f == tyTiming)
    (if tooLong f then s.badFrame n
     else s.when (!s.endsCopy f) (s.passOn n m false (timingRelay f (s.get (R.AZF_LDLY_LD n) + res))))))

/-! ### The frame chosen -/

/-- What a Timing frame that arrived on lane `n` at `rxts` after the local instant says (R113, R117). -/
def State.timingPick (s : State) (n : Nat) (f : Frame) (rxts : Int) : TimingPick :=
  { lane := n, depth := fHops f + 1,
    e := rxts - s.get (R.AZF_LDLY_LD n) - tCorr f - fieldBE f 18 4,
    tnum := fieldBE f 12 6, tper := fieldBE f 28 2 % 16384, tpnew := fieldBE f 30 2 % 16384,
    tpcd := byteAt f 32, hold := bitOf (byteAt f 26) 6, sec := fieldBE f 34 6, ns := fieldBE f 40 4,
    sub := byteAt f 44 }

/-- |e| ≤ 20 ns (R118). -/
def TimingPick.inBand (p : TimingPick) : Bool := decide (p.e.natAbs ≤ 5120)

/-- Whether a valid Timing frame replaces the one chosen so far: a cell keeps its first, the others the lowest
depth and then the lowest lane (R117). -/
def State.picks (s : State) (p : TimingPick) : Bool :=
  match s.azf.pick with
  | Option.none => true
  | some q => !s.isK && decide (p.depth < q.depth ∨ (p.depth = q.depth ∧ p.lane < q.lane))

/-- The chosen frame's registers, period and announcement (R35, R36, R118, R280). -/
def State.choose (s : State) (p : TimingPick) : State :=
  let used := !s.aligned || p.inBand
  let s : State := { s with azf := { s.azf with pick := some p, holdover := p.hold } }
  let s := (s.putS R.AZF_TERR_TERR p.e).putB R.TBS_STA_UHOLD p.hold
  let s := s.putB R.AZF_TSTA_TVALID used
  let s := if used then (s.put R.AZF_TSTA_TLANE p.lane).put R.AZF_TSTA_DEPTH p.depth else s
  let s := if s.aligned || s.get R.TCK_PER_PER == p.tper then s
    else ((s.put R.TCK_PER_PER p.tper).dsxIssue 0x16 1).acqTp
  if !used then s
  else
    (({ s with tck := { s.tck with tpLeft := p.tpcd } } : State).put R.TCK_PNEW_PNEW
      (if p.tpcd = 0 then 0 else p.tpnew)).putB R.TCK_STAT_TPCHG (p.tpcd != 0)

/-- The offset that a node with SRC = 01 delivers once the frame of its tick is chosen: in a Cell at its receipt, elsewhere
at the end of the tick; an outlier is discarded (R117, R118, R279). DEDUCED (log 75). -/
def State.nodeOffset (s : State) : State :=
  match s.azf.pick with
  | Option.none => s
  | some p =>
    if !(s.aligned && s.lock && s.follows && p.inBand && p.tnum == s.tick) then s
    else
      let own : Int := ((s.get R.TBS_STRKS_SEC * 1000000000 + s.get R.TBS_STRKN_NS) * 256 + s.get R.TBS_STRKF_SUB : Nat)
      let st : Int := ((p.sec * 1000000000 + p.ns) * 256 + p.sub : Nat)
      s.tbsNode (own - st)

/-- A Timing frame reaches the node whole: right CRC and length, CERR 0, link delay measured (R116, R117). -/
def State.timingOk (s : State) (n : Nat) (f : Frame) : Bool :=
  s.follows && s.laneOk n && fKnown f && fType f == tyTiming && decide (f.length = 52) && fCrcOk f && !tCerr f &&
    decide ((nth s.azf.links n LinkMeas.init).acc ≠ [])

/-- A consumed Timing frame whose CRC fails is counted; an aligned node checks its tick tag, and one that seeks alignment
takes it without (R90, R441). DEDUCED (log 73). -/
def State.timingIn (s : State) (n : Nat) (f : Frame) (rxts : Int) : State :=
  let s := s.when (s.laneOk n && fType f == tyTiming) (s.noteAct f)
  if s.timingOk n f then
    if s.aligned && fTick f != s.tick16 then s.incSat R.AZF_TAGERR_STALE
    else
      let s : State := { s with azf := { s.azf with timSeen := true } }
      let p := s.timingPick n f rxts
      if s.picks p then (let t := s.choose p; t.when t.isK t.nodeOffset) else s
  else s.when (s.follows && s.laneOk n && fKnown f && fType f == tyTiming && !fCrcOk f) s.badCrc

/-- TIMING_FRAME_RECEIVE (R117). -/
def execTimingFrameReceive (n : Fin 20) (f : Frame) (rxts : Int) (s : State) : Host.Outcome State Fault Refusal :=
  .next (live s (s.when s.azfOn (s.timingIn n f rxts)))

/-! ### The rules of alignment at the end of a tick -/

/-- The counts of R118. -/
def State.setAlign (s : State) (a : AlignState) : State := { s with azf := { s.azf with align := a } }

/-- The move of the next Strike or local tick instant, in 1/256 ns. -/
def State.setMove (s : State) (e : Int) : State := { s with tck := { s.tck with move := e } }

/-- A time in 1/256 ns rounded to 250 ps (R118). DESIGN CHOICE (log 76). -/
def quarterNs (e : Int) : Int := 64 * divNear e 64

/-- The tick number that the chosen frame gives the next Strike (R118). -/
def State.takeTnum (s : State) (n : Nat) : State := { s with azf := { s.azf with tnum := some ((n + 1) % 2 ^ 48) } }

/-- Alignment is lost: LOCK is cleared, or on a Conductor ALGN; a Cell holds its gates off, and a command it has received
waits for no Strike (R36, R52, R118, R332, R441). -/
def State.alignLost (s : State) : State :=
  let s := s.setAlign { s.azf.align with good := 0, outl := 0, noBand := 0 }
  let s := s.put R.TCK_STAT_ALGN 0
  if s.isC then s
  else
    let s := s.put R.TCK_STAT_LOCK 0
    let s : State := { s with cell := { s.cell with cmd := .none } }
    (if s.isK then s.gatesHeld else s).fcuEvent 0x10

/-- The tick ends without a frame that LOCK can use: holdover (R118). -/
def State.alignHold (s : State) (outlier : Bool) : State :=
  let a := s.azf.align
  let a := { a with noBand := a.noBand + 1, outl := a.outl + b2n outlier }
  let s := s.setMove (quarterNs (Config.rateEstimate a.last))
  let s := s.setAlign a
  let s := if outlier then s.incSat R.AZF_TSTA_OUTL else s
  if 3 ≤ a.outl ∨ 16 ≤ a.noBand then s.alignLost else s

/-- The tick ends with an in-band frame (R118). DEDUCED (log 75). -/
def State.alignTrack (s : State) (p : TimingPick) : State :=
  let a := s.azf.align
  let s := s.setAlign { a with outl := 0, noBand := 0, last := (p.e :: a.last).take 16 }
  let s := s.setMove (quarterNs p.e)
  if p.tnum = s.tick then s else (s.takeTnum p.tnum).incSat R.AZF_TAGERR_STALE

/-- The tick ends with a valid frame before alignment: step by e, take TNUM, count toward LOCK (R118, R441). -/
def State.alignSeek (s : State) (p : TimingPick) : State :=
  let a := s.azf.align
  let good := if p.e.natAbs ≤ 512 then a.good + 1 else 0
  let s := (s.setMove p.e).takeTnum p.tnum
  let last := (p.e :: a.last).take 16
  if 8 ≤ good then
    let s := (s.setAlign ⟨0, 0, 0, last⟩).put R.TCK_STAT_ALGN 1
    if s.isC then s else s.put R.TCK_STAT_LOCK 1
  else s.setAlign { a with good := good, last := last }

/-- The rules of R118 at the end of a tick. -/
def State.alignTick (s : State) : State :=
  let s := s.setMove 0
  if !s.follows then s
  else match s.aligned, s.azf.pick with
    | false, Option.none => s.setAlign { s.azf.align with good := 0 }
    | false, some p => s.alignSeek p
    | true, Option.none => s.alignHold false
    | true, some p => if p.inBand then s.alignTrack p else s.alignHold true

/-! ### Link delay (R116) -/

/-- The measurement of lane `n`. -/
def State.link (s : State) (n : Nat) : LinkMeas := nth s.azf.links n LinkMeas.init

/-- The measurement of lane `n` replaced. -/
def State.setLink (s : State) (n : Nat) (l : LinkMeas) : State :=
  { s with azf := { s.azf with links := setNth s.azf.links n l LinkMeas.init } }

/-- PROBE_SEND (R116): in the lane's turn of 64 ticks, and in each of its first 8 ticks in service. -/
def execProbeSend (n : Fin 20) (t1 : Nat) (s : State) : Host.Outcome State Fault Refusal :=
  .next (live s (s.when (s.azfOn && s.laneOk n && (s.tick % 64 == n.val || decide ((s.link n).svc < 8))) (
    let s := s.toInstant 200
    let q := ((s.link n).pseq + 1) % 65536
    let s := s.setLink n { s.link n with pseq := q, asked := some (q, t1) }
    s.launch n (s.frame { s.hdr tyProbe with ring := s.laneRing n } (bytesBE 2 q ++ zeros 2)))))

/-- A Probe or Probe reply of the right length and CRC at a lane in service; a node with LOCK checks its tag
(R90). DEDUCED (log 73). -/
def State.onProbe (s : State) (n ty len : Nat) (f : Frame) (g : State → State) : State :=
  if !(s.azfOn && s.laneOk n && fKnown f && fType f == ty && decide (f.length = len)) then s
  else if !fCrcOk f then s.badCrc
  else if s.lock && fTick f != s.tick16 then s.incSat R.AZF_TAGERR_STALE
  else g (s.noteAct f)

/-- PROBE_RECEIVE (R116): answered with TURN, unless the reply cannot leave within 1 us. -/
def execProbeReceive (n : Fin 20) (f : Frame) (turn : Nat) (s : State) : Host.Outcome State Fault Refusal :=
  .next (live s (s.onProbe n tyProbe 20 f (fun s => s.when (decide (turn ≤ 256000))
    (s.launch n (s.frame { s.hdr tyProbeReply with dst := fSrc f, ring := s.laneRing n } (slice f 12 2 ++ bytesBE 4 turn ++ zeros 2))))))

/-- The mean of the accepted measurements, to the next lower 1/256 ns. DESIGN CHOICE (log 74). -/
def meanOf (l : List Int) : Int := l.foldl (fun a b => a + b) 0 / (max 1 l.length : Nat)

/-- A measurement of lane `n` accepted or rejected (R116). DESIGN CHOICE (log 74). -/
def State.measure (s : State) (n : Nat) (v : Int) : State :=
  let l := s.link n
  let far := decide (8 ≤ l.count) && decide (512 < (v - s.get (R.AZF_LDLY_LD n)).natAbs)
  if far && decide (l.rej + 1 < 4) then s.setLink n { l with asked := Option.none, rej := l.rej + 1 }
  else if far then (s.setLink n { l with asked := Option.none, rej := 0, acc := [], count := 0 }).put (R.AZF_LDLY_LD n) 0
  else
    let acc := (v :: l.acc).take 8
    (s.setLink n { l with asked := Option.none, rej := 0, acc := acc, count := l.count + 1 }).put (R.AZF_LDLY_LD n)
      (satUns 24 (meanOf acc))

/-- PROBE_REPLY_RECEIVE (R116); the half unit of the division is dropped downward. DESIGN CHOICE (log 74). -/
def execProbeReplyReceive (n : Fin 20) (f : Frame) (t4 : Nat) (s : State) : Host.Outcome State Fault Refusal :=
  .next (live s (s.onProbe n tyProbeReply 24 f (fun s =>
    match (s.link n).asked with
    | Option.none => s
    | some (q, t1) =>
      if q = fieldBE f 12 2 then
        s.measure n ((((t4 : Int) - t1) - fieldBE f 14 4) / 2 + 16 * s.getS (R.AZF_LDLY_ASYM n))
      else s)))

/-- A tick instant at the link measurements. -/
def State.linksTick (s : State) : State :=
  { s with azf := { s.azf with links := s.azf.links.map (fun l => { l with svc := l.svc + 1 }) } }

end Sys2Proof.Machine
end

