-- ==== Sys2Proof/Machine/Red.lean ====
section
/-! DEFINITION. The redundancy unit: member states, the mirror, loss and takeover, yield and return, dual
activity (R317 to R330). -/

namespace Sys2Proof.Machine

/-- The RED block is in use and enabled: roles C and S. -/
def State.redOn (s : State) : Bool := (s.isC || s.isS) && s.en 0x0B

/-- RED.STA.STATE: 0 START, 1 ACTIVE, 2 VIGIL, 3 TAKING, 4 HALTED (R330). -/
def State.redSt (s : State) : Nat := s.get R.RED_STA_STATE

/-- The primary member (R318). -/
def State.primary (s : State) : Bool := s.get R.RED_CFG_PRIM == b2n s.sideB

/-- RED.STA.READY: complete mirrors at the last READYN Strikes, LOCK, no severe source (R322).
DEDUCED (log 185). -/
def State.redReady (s : State) : Bool :=
  (s.isC || s.isS) && decide (max 1 (s.get R.RED_CFG_READYN) ≤ s.red.complete) && s.lock && !s.sevg

/-- The member leaves ACTIVE, or is put in another state, with no yield under way. -/
def State.redEnter (s : State) (st : Nat) : State :=
  ({ s with red := { s.red with yieldReq := false, yieldSent := false, silent := 0, lastHb := Option.none, hbSame := 0 } }
    : State).put R.RED_STA_STATE st

/-- CTL.EN of the RED page is cleared: HALTED from any state (R317). DEDUCED (log 191). -/
def State.redDisabled (s : State) : State := s.when (s.isC || s.isS) (s.redEnter 4)

/-! ### Forming the mirror (R319, R320) -/

/-- The words of a record, its first word included. -/
def MirRec.all (r : MirRec) : List Nat := (r.rtype * 2 ^ 24 + r.index * 2 ^ 16 + r.words.length) :: r.words

/-- The bytes of a record. -/
def MirRec.bytes (r : MirRec) : List Byte := r.all.flatMap (bytesBE 4)

/-- The record of CLE channel `c`. -/
def State.mirCle (s : State) (c : Nat) : MirRec :=
  let i := s.cleInst c
  ⟨1, c, (s.nx i * 2 ^ 24 + s.nu i * 2 ^ 16 + s.get (R.CLE_CST_OSEQ c)) ::
    ((List.range (s.nx i)).map (fun k => s.cleWord i (0x1600 + 4 * k)) ++
      (List.range (s.nu i)).map (fun k => s.cleWord i (0x1640 + 4 * k)))⟩

/-- The record of PGN channel `c`. -/
def State.mirPgn (s : State) (c : Nat) : MirRec :=
  let w (f : Fld) : List Nat := [s.get f / 2 ^ 32, s.get f % 2 ^ 32]
  ⟨2, c, w (R.PGN_P_P c) ++ w (R.PGN_V_V c) ++ w (R.PGN_A_A c)⟩

/-- The record of arm `a`: its last command and residue. -/
def State.mirArm (s : State) (a : Nat) : MirRec :=
  ⟨3, a, [s.get (R.RSE_THR_KSEL a) * 2 ^ 31 + s.get (R.RSE_THR_TRV a) * 2 ^ 30 + s.get (R.RSE_THR_THR a),
    s.get (R.RSE_IDS_TRIM a) * 2 ^ 16 + s.get (R.RSE_IDS_TIE a), s.get (R.RSE_TOFF_TOFF a),
    s.get (R.RSE_LEV_NINS a) * 2 ^ 16 + s.get (R.RSE_LEV_LEVEL a), s.get (R.RSE_RHO_RHO a)]⟩

/-- Bytes, zero-padded to whole words, as words. -/
def wordsBE : Nat → List Byte → List Nat
  | 0, _ => []
  | n + 1, b => fieldBE (padTo 4 (b.take 4)) 0 4 :: wordsBE n (b.drop 4)

/-- The record of a trajectory sent, by its index 2p + a. -/
def mirTraj (p : Nat × List Byte) : MirRec := ⟨4, p.1, wordsBE ((p.2.length + 3) / 4) p.2⟩

/-- The records of the mirror in their order: types 4, 3, 1, 2 (R320). -/
def State.mirRecords (s : State) : List MirRec :=
  (if s.isC then s.red.trajSent.map mirTraj else []) ++
  (if s.isS then ([0, 1].filter (fun a => s.bit R.RED_MSELP_ARMS a && s.rseEn a)).map s.mirArm else []) ++
  ((List.range 32).filter (fun c => s.bit R.RED_MSELC_CH c)).map s.mirCle ++
  ((List.range 16).filter (fun c => s.bit R.RED_MSELP_PGN c)).map s.mirPgn

/-- Records dealt into segments of at most 4,068 bytes of records each; `cur` is the segment being filled, newest
first. DEDUCED (log 189). -/
def mirSegments (cur : List MirRec) (used : Nat) : List MirRec → List (List MirRec)
  | [] => [cur.reverse]
  | r :: t =>
    let n := 4 * (r.words.length + 1)
    if used + n ≤ 4068 then mirSegments (r :: cur) (used + n) t
    else cur.reverse :: mirSegments [r] n t

/-- The fixed part of a Mirror frame with `n` records. -/
def State.mirFixed (s : State) (yielding ready revreq : Bool) (n : Nat) : List Byte :=
  bytesBE 1 (128 * b2n yielding + 64 * b2n ready + 32 * b2n revreq + 16 * b2n s.sevg + 8 * s.get R.RED_STA_COLD) ++
    bytesBE 1 (s.get R.RED_HB_HB) ++ bytesBE 2 (s.get R.RED_EPOCH_EPOCH) ++ bytesBE 4 (s.get R.RED_MODE_MODE) ++
    bytesBE 2 n ++ zeros 2

/-- A Mirror frame to the partner. -/
def State.mirFrame (s : State) (cnt : Nat) (body : List Byte) : Frame :=
  s.frame { s.hdr tyMirror with dst := s.partnerId, cnt := cnt } body

/-- The frames of the full mirror. -/
def State.mirFrames (s : State) : List Frame :=
  let segs := mirSegments [] 0 s.mirRecords
  (segs.zipIdx).map (fun p => s.mirFrame (256 * p.2 + (segs.length - 1))
    (s.mirFixed s.red.yieldReq s.redReady false p.1.length ++ p.1.flatMap MirRec.bytes))

/-- Frames launched one after the other on both partner lanes, 8/25 ns a byte; one that would not start before
Eve closes is not sent (R54, R319). -/
def State.mirSend (s : State) (before : Nat) : List Frame → State
  | [] => s
  | f :: t =>
    let s := if s.lock && decide (s.eveNs ≤ s.tickNs + before * 8 / 25) then s else s.launchAll [16, 17] f
    s.mirSend (before + f.length) t

/-- RED.MLEN of a mirror. -/
def State.mirLen (s : State) (l : List Frame) : State :=
  (s.put R.RED_MLEN_SEGS l.length).put R.RED_MLEN_BYTES (satNat 16 (l.foldl (fun n f => n + f.length) 0))

/-- The instant at which a Mirror frame is due: a Conductor's MOFS, a Section's own (R319, R322).
DEDUCED (log 189). -/
def State.mirInstant (s : State) : State := if s.isC then s.toInstant (10 * s.get R.RED_MOFS_OFS) else s

/-- The full mirror of the tick (R319, R327). -/
def State.mirrorLaunch (s : State) : State :=
  let s := s.mirInstant
  let l := s.mirFrames
  if s.eveNs ≤ s.tickNs then s
  else
    let s := (s.mirSend 0 l).mirLen l
    { s with red := { s.red with sent := true, yieldSent := s.red.yieldReq } }

/-- Every arm of the mode has launched its Down or Repeat frames. -/
def State.armsDone (s : State) : Bool := arms.all (fun a => bitOf s.rse.downs a || bitOf s.rse.reps a)

/-- MIRROR_LAUNCH (R319). -/
def execMirrorLaunch (s : State) : Host.Outcome State Fault Refusal :=
  .next (live s (s.when (s.redOn && s.active && s.lock && s.azfOn && !s.red.sent && (s.isC || s.armsDone))
    s.mirrorLaunch))

/-- The short Mirror frame of the tick (R322). DEDUCED (log 189). -/
def State.shortMirror (s : State) : State :=
  let s := s.mirInstant
  if decide (s.eveNs ≤ s.tickNs) || (s.isS && decide (s.cdlNs + 1000 < s.tickNs)) then s
  else
    let s := s.launchAll [16, 17] (s.mirFrame 0 (s.mirFixed false s.redReady s.red.revReq 0))
    { s with red := { s.red with sent := true } }

/-- SHORT_MIRROR_SEND (R322). -/
def execShortMirrorSend (s : State) : Host.Outcome State Fault Refusal :=
  .next (live s (s.when (s.redOn && s.azfOn && s.lock && !s.red.sent && decide (s.redSt ∈ [0, 2, 3])) s.shortMirror))

/-! ### Receiving and applying it (R321, R322) -/

/-- The index of a segment and the announced last index. -/
def mirSeg (f : Frame) : Nat × Nat := (fCnt f / 256, fCnt f % 256)

/-- A full Mirror segment of the active partner (R319, R321, R323, R327, R329). -/
def State.mirFull (s : State) (f : Frame) : State :=
  let e := fieldBE f 14 2
  let r := s.red
  let act := s.active
  ({ s with red := { r with
      mirSeen := true
      segs := if alHas r.segs (mirSeg f).1 then r.segs else alPut r.segs (mirSeg f).1 f
      yieldSeen := r.yieldSeen || bitOf (byteAt f 12) 7
      hbNow := some (byteAt f 13), pEpoch := e, dualEpoch := if act then some e else r.dualEpoch } } : State).put
    R.RED_STA_PPRES 1

/-- A short Mirror frame of the partner (R322, R328). -/
def State.mirShort (s : State) (f : Frame) : State :=
  { s with red := { s.red with shortReady := bitOf (byteAt f 12) 6, revSeen := bitOf (byteAt f 12) 5 } }

/-- MIRROR_RECEIVE (R321). -/
def execMirrorReceive (n : Fin 20) (f : Frame) (s : State) : Host.Outcome State Fault Refusal :=
  .next (live s (s.onFrame n tyMirror f (fun s => s.when ((s.isC || s.isS) && (n == 16 || n == 17) &&
    fSrc f == s.partnerId && fDst f == s.nodeId && decide (28 ≤ f.length))
      (if fAct f then s.mirFull f else s.when (fieldBE f 20 2 == 0 && fCnt f == 0) (s.mirShort f)))))

/-- The segments of the tick's mirror, where it is complete. -/
def State.mirComplete (s : State) : Option (List Frame) :=
  match s.red.segs with
  | [] => Option.none
  | (_, f) :: _ =>
    let n := (mirSeg f).2 + 1
    if (List.range n).all (alHas s.red.segs) then some ((List.range n).map (fun i => alGet s.red.segs i [])) else Option.none

/-- The first `n` records that words spell. -/
def mirParse : Nat → List Nat → List MirRec
  | 0, _ => []
  | _, [] => []
  | n + 1, w :: t =>
    ⟨w / 2 ^ 24, w / 2 ^ 16 % 256, t.take (w % 65536)⟩ :: mirParse n (t.drop (w % 65536))

/-- The records of a segment. -/
def mirRecsOf (f : Frame) : List MirRec :=
  let b := slice f 24 (f.length - 28)
  mirParse (fieldBE f 20 2) (wordsBE (b.length / 4) b)

/-- A record of type 1 or 2 does not fit what its channel is here: it is left out (R321). -/
def State.recBad (s : State) (r : MirRec) : Bool :=
  match r.rtype with
  | 1 =>
    let i := s.cleInst r.index
    let h := nth r.words 0 0
    decide (r.index < 32) && !(s.on (R.CLE_CCFG_EN r.index) && h / 2 ^ 24 == s.nx i && h / 2 ^ 16 % 256 == s.nu i &&
      r.words.length == 1 + s.nx i + s.nu i)
  | 2 => decide (r.index < 16) && !(s.on (R.PGN_PCFG_EN r.index) && r.words.length == 6)
  | _ => false

/-- A record of type 1 applied: estimates, outputs and OSEQ of the instance the channel names. -/
def State.applyCle (s : State) (c : Nat) (w : List Nat) : State :=
  let i := s.cleInst c
  let h := nth w 0 0
  let x := ((w.drop 1).take (s.nx i)).map (toSigned 32)
  let u := (w.drop (1 + s.nx i)).map (toSigned 32)
  (((s.cleWrite i 0x1600 x).cleWrite i 0x1640 u).cleOutputs c u).put (R.CLE_CST_OSEQ c) (h % 65536)

/-- A record of type 2 applied. -/
def State.applyPgn (s : State) (c : Nat) (w : List Nat) : State :=
  let v (k : Nat) : Nat := nth w k 0 * 2 ^ 32 + nth w (k + 1) 0
  ((s.put (R.PGN_P_P c) (v 0)).put (R.PGN_V_V c) (v 2)).put (R.PGN_A_A c) (v 4)

/-- A record applied or held (R321). -/
def State.applyRec (s : State) (r : MirRec) : State :=
  if s.recBad r then s
  else match r.rtype with
  | 1 => s.when (r.index < 32) (s.applyCle r.index r.words)
  | 2 => s.when (r.index < 16) (s.applyPgn r.index r.words)
  | 3 | 4 => { s with red := { s.red with
      held := r :: s.red.held.filter (fun q => !(q.rtype == r.rtype && q.index == r.index)) } }
  | _ => s

/-- A complete mirror gives a mismatch (R321, R328). -/
def State.mirBad (s : State) (l : List MirRec) : Bool := l.any s.recBad

/-- A complete mirror applied at the Strike as one update; a mismatch is raised once (R321, R331). DEDUCED (log 185). -/
def State.mirApply (s : State) (l : List Frame) : State :=
  let r := l.flatMap mirRecsOf
  let s := (forEach r (fun r x => x.applyRec r) s).raiseIf (s.mirBad r) 0x0B Flt.RED_MMIS
  (s.put R.RED_PMODE_MODE (fieldBE (l.headD []) 16 4)).mirLen l

/-- RVCNT at the Strike: one more for a clean mirror at the primary in VIGIL, else 0 (R328).
DEDUCED (log 191). -/
def State.countReturn (s : State) (clean : Bool) : State :=
  if clean && s.primary && s.redSt == 2 then s.incSat R.RED_RVCNT_CNT
  else ({ s with red := { s.red with revReq := false } } : State).put R.RED_RVCNT_CNT 0

/-- The mirror of the tick at the next Strike: a member that is neither ACTIVE nor HALTED applies it if it is
complete; in VIGIL and TAKING a missing one is counted (R321, R322, R328). -/
def State.mirStrike (s : State) : State :=
  let waits := decide (s.redSt ∈ [0, 2, 3])
  match waits, s.mirComplete with
  | true, some l =>
    let bad := s.mirBad (l.flatMap mirRecsOf)
    let s := s.mirApply l
    let s : State := { s with red := { s.red with complete := min 255 (s.red.complete + 1) } }
    s.countReturn (!bad)
  | _, _ =>
    let s : State := { s with red := { s.red with complete := 0 } }
    let s := s.countReturn false
    if decide (s.redSt ∈ [2, 3]) then (s.incSat R.RED_CNT_MLOSTC).raiseFlt 0x0B Flt.RED_MLOST else s

/-! ### Entering ACTIVE (R324, R326) -/

/-- V + S (k0 - k0 old), as the continuation carries it; the spec states no result outside 32 bits.
DEDUCED (log 190). -/
def State.carryOn (s : State) (v sl d : Int) : List Byte × State :=
  let r := v + sl * d
  if satSigned 32 r = r then (bytesBE 4 (ofSigned 32 r) ++ bytesBE 4 (ofSigned 32 sl), s)
  else
    let (z, s) := s.fresh 32
    (bytesBE 4 z ++ bytesBE 4 (ofSigned 32 sl), s)

/-- The quantities of a continuation. DEDUCED (log 190). -/
def State.carryAll (s : State) (d : Int) : List (Int × Int) → List Byte × State
  | [] => ([], s)
  | (v, sl) :: t =>
    let (b, s) := s.carryOn v sl d
    let (r, s) := s.carryAll d t
    (b ++ r, s)

/-- The continuation Trajectory of a mirrored record: its new k0 is the takeover tick (R326). -/
def State.continuation (s : State) (r : MirRec) : State :=
  let b := r.words.flatMap (bytesBE 4)
  let nq := byteAt b 3
  let f := zeros 12 ++ b
  let (q, s) := s.carryAll (diffSigned 16 s.tick16 (fieldBE b 0 2))
    ((List.range nq).map (fun i => (toSigned 32 (fieldBE f (18 + 8 * i) 4), toSigned 32 (fieldBE f (22 + 8 * i) 4))))
  let body := bytesBE 2 s.tick16 ++ slice b 2 2 ++ bytesBE 1 (byteAt b 4 + 1) ++ zeros 1 ++ q
  let h : Hdr := { s.hdr tyTraj with arm := r.index % 2, dst := 0x100 + 2 * (r.index / 2), ring := r.index / 4 }
  let s := s.launch (r.index / 4) (s.frame h body)
  { s with red := { s.red with trajSent := alPut s.red.trajSent r.index body } }

/-- M in force (R47). -/
def State.periodMNow (s : State) : Nat := s.get R.TCK_CPER_MM1 + 1

/-- One Trajectory frame of the active Conductor for the pair and arm of index 2p + a, on the upper chain of the pair, its k0
this tick (R28, R47, R106). DESIGN CHOICE (log 21). -/
def State.trajSend (s : State) (i : Nat) : State :=
  let c := s.freeCtr
  let s : State := { s with freeCtr := s.freeCtr + 1 }
  match Config.trajectory i c with
  | Option.none => s
  | some q =>
    let q := q.take 8
    if q = [] then s
    else
      let last := (alGet s.red.trajSent i []).drop 4
      let body := bytesBE 2 s.tick16 ++ bytesBE 1 s.periodMNow ++ bytesBE 1 q.length ++
        bytesBE 1 (fieldBE last 0 1 + 1) ++ zeros 1 ++
        q.flatMap (fun p => bytesBE 4 (ofSigned 32 p.1) ++ bytesBE 4 (ofSigned 32 p.2))
      let h : Hdr := { s.hdr tyTraj with arm := i % 2, dst := 0x100 + 2 * (i / 2), ring := i / 4 }
      let s := s.launch (i / 4) (s.frame h body)
      { s with red := { s.red with trajSent := alPut s.red.trajSent i body } }

/-- The indices 2p + a of the pairs of configured chains and the arms of their mode. PRESUMED (log 79). -/
def trajIndices : List Nat :=
  (List.range 30).filter (fun i => Config.chainLen (i / 4) != 0 && arms.contains (i % 2))

/-- The period of the trajectories at a Strike of the active Conductor: a period that ends, or a new M, begins the next, in
which each pair and arm is sent one Trajectory frame (R47, R106). DESIGN CHOICE (log 21). -/
def State.trajPeriod (s : State) : State :=
  let m := s.periodMNow
  if !(s.isC && s.active) then s
  else if s.red.periodLeft ≤ 1 ∨ s.red.periodM ≠ m then
    let s : State := { s with red := { s.red with periodLeft := m, periodM := m } }
    forEach trajIndices (fun i x => x.trajSend i) s
  else { s with red := { s.red with periodLeft := s.red.periodLeft - 1 } }

/-- A Conductor that enters ACTIVE (R326, R118): the period runs anew from the takeover tick, whose own Strike counts it down
first, unless that Strike is past (`late`). -/
def State.takeConductor (s : State) (late : Bool) : State :=
  let s := ((s.put R.AZF_TSTA_DEPTH 0).put R.TCK_STAT_ALGN 0)
  let m := s.periodMNow
  let s : State := { s with red := { s.red with periodLeft := if late then m else m + 1, periodM := m } }
  forEach (s.red.held.filter (fun r => r.rtype == 4)) (fun r x => x.continuation r) s

/-- A Section that enters ACTIVE: ρ 0, the mirrored KSEL, and what its table says is applied (R148, R324). -/
def State.takeArm (s : State) (a : Nat) : State :=
  let x := s.inst a
  let k := match s.red.held.find? (fun r => r.rtype == 3 && r.index == a) with
    | some r => nth r.words 0 0 / 2 ^ 31
    | Option.none => x.ksel
  (s.setInst a { x with
    rho := 0, ksel := k
    expNow := some (s.estSum (s.armCells a) (fun i => cellId s.pair i != x.trimNow)) }).put (R.RSE_RHO_RHO a) 0

/-- The member enters ACTIVE at this Strike (R324, R318); COLD says that it was not READY when it detected the loss.
DEDUCED (log 188). -/
def State.takeOver (s : State) (reason : Nat) : State :=
  let cold := !(if reason = 4 then s.redReady else s.red.lossReady)
  let own := s.get R.RED_EPOCH_EPOCH
  let e := if reason = 4 then 1 else if 0 ≤ diffSigned 16 s.red.pEpoch own then s.red.pEpoch + 1 else own + 1
  let s := s.redEnter 1
  let s := ((s.put R.RED_EPOCH_EPOCH e).put R.RED_STA_REASON reason).putB R.RED_STA_COLD cold
  let s := ((s.put R.RED_TKO_TICK s.tick).incSat R.RED_CNT_TKOC).countReturn false
  let s : State := { s with red := { s.red with complete := 0, startTicks := 0 } }
  let s := (s.fcuEvent 0x0F).raiseFlt 0x0B Flt.RED_TKO
  if s.isC then s.takeConductor (reason == 4) else forEach [0, 1] (fun a x => x.takeArm a) s

/-- Dual activity at the Strike after it was seen: the lower EPOCH, and member B without a full mirror or on equal
EPOCH, enters VIGIL (R329). DEDUCED (log 186). -/
def State.dualYields (s : State) : Bool :=
  s.red.dual && (match s.red.dualEpoch with
    | some e =>
      let d := diffSigned 16 (s.get R.RED_EPOCH_EPOCH) e
      decide (d < 0) || (d == 0 && s.sideB)
    | Option.none => s.sideB)

/-- The change of member state at a Strike; a refused member is neither active nor standby (R33, R317, R318, R323, R327,
R329). DESIGN CHOICE (log 26). -/
def State.redMove (s : State) : State :=
  if !s.redOn then s
  else if s.refused && s.redSt != 4 then
    (if s.redSt = 0 then { s with red := { s.red with startTicks := 0 } } else s.redEnter 0)
  else
    match s.redSt with
    | 0 =>
      if s.red.mirSeen then s.redEnter 2
      else { s with red := { s.red with startTicks := min 64 (s.red.startTicks + 1) } }
    | 1 => if s.red.yieldSent || s.dualYields then s.redEnter 2 else s
    | 3 => s.takeOver s.red.reason
    | 4 => s.when (!s.sevg && !s.refused) (s.redEnter 2)
    | _ => s

/-- What the RED block does at a Strike, after the tick number has advanced and before any evaluation. -/
def State.redStrike (s : State) : State :=
  if !(s.isC || s.isS) then s
  else
    let s := if s.redOn then s.mirStrike else s
    let s := (s.redMove).put R.RED_STA_PPRES 0
    { s with red := { s.red with
      mirSeen := false, actSeen := false, segs := [], yieldSeen := false, hbNow := Option.none, yieldSent := false
      shortReady := false, revSeen := false, dual := false, dualEpoch := Option.none, sent := false } }

/-- The member enters ACTIVE from START in the tick that has begun: its arms have their Decide phase in it (R38, R324). -/
def State.startOver (s : State) : State :=
  let t := s.takeOver 4
  { t with rse := { t.rse with allowed := t.decideArms } }

/-- START_TIMEOUT (R318): the ticks without an active partner's mirror have been counted.
DEDUCED (log 185). -/
def execStartTimeout (s : State) : Host.Outcome State Fault Refusal :=
  .next (live s (s.when (s.redOn && s.lock && s.redSt == 0 && !s.refused &&
    decide ((if s.primary then 16 else 64) ≤ s.red.startTicks)) s.startOver))

/-! ### When Eve closes (R322, R323, R328) -/

/-- SILN in force. -/
def State.siln (s : State) : Nat := min 4 (max 1 (s.get R.RED_CFG_SILN))

/-- The counts of the loss criteria at the end of a tick in VIGIL. -/
def State.lossCounts (s : State) : State :=
  let r := s.red
  let same := match r.hbNow with
    | some h => if r.lastHb = some h then r.hbSame + 1 else 0
    | Option.none => 0
  { s with red := { r with
    silent := if r.mirSeen || r.actSeen then 0 else r.silent + 1
    lastHb := match r.hbNow with
      | some h => some h
      | Option.none => r.lastHb
    hbSame := same } }

/-- The first criterion that holds: 0 for none. DEDUCED (log 187). -/
def State.lossReason (s : State) : Nat :=
  let hbn := s.get R.RED_CFG_HBN
  if s.siln ≤ s.red.silent then 1
  else if hbn ≠ 0 ∧ hbn ≤ s.red.hbSame then 2
  else if s.red.yieldSeen then 3
  else 0

/-- What the RED block does when Eve closes. DEDUCED (log 187, 188). -/
def State.redEve (s : State) : State :=
  if !s.redOn then s
  else
    match s.redSt with
    | 1 =>
      let s := s.putB R.RED_STA_PREADY s.red.shortReady
      s.when (s.red.revSeen && s.red.shortReady) { s with red := { s.red with yieldReq := true } }
    | 2 =>
      let s := s.lossCounts
      let r := s.lossReason
      if r = 0 then s
      else ({ s with red := { s.red with reason := r, lossReady := s.redReady } } : State).put R.RED_STA_STATE 3
    | _ => s

/-! ### Commands -/

/-- RED.CMD.YIELD (R327, R330). DEDUCED (log 191). -/
def State.yieldCmd (s : State) : State :=
  s.when (s.redOn && s.active) (if s.on R.RED_STA_PREADY then { s with red := { s.red with yieldReq := true } }
    else s.put R.RED_STA_CMDREF 1)

/-- YIELD (R327). -/
def execYield (s : State) : Host.Outcome State Fault Refusal := .next (live s (s.cmd 0x0B s.yieldCmd))

/-- REVERT_REQUEST (R328): RVCNT x TP has reached RVH seconds. -/
def execRevertRequest (s : State) : Host.Outcome State Fault Refusal :=
  let rvh := s.get R.RED_CFG_RVH
  .next (live s (s.when (s.redOn && s.redSt == 2 && s.primary && rvh != 0 &&
    decide (rvh * 1000000000 ≤ s.get R.RED_RVCNT_CNT * s.tp)) { s with red := { s.red with revReq := true } }))

/-- RED.CMD.CCLR. -/
def State.redClear (s : State) : State := s.zero [R.RED_CNT_MLOSTC, R.RED_CNT_TKOC]

/-- RED_COUNTER_CLEAR (R330). -/
def execRedCounterClear (s : State) : Host.Outcome State Fault Refusal :=
  .next (live s (s.cmd 0x0B (s.when (s.isC || s.isS) s.redClear)))

end Sys2Proof.Machine
end

