-- ==== Sys2Proof/Machine/Flags.lean ====
section
/-! DEFINITION. The accumulator arithmetic of the signal engines and the flags it sets: wrapping to 72 bits,
FLG, rounding, the scaled store and the exponent (R185 to R189, R195, R198). -/

namespace Sys2Proof.Machine

/-- The 72-bit accumulator that holds an exact result (R185). -/
def acc72 (exact : Int) : BitVec 72 := BitVec.ofInt 72 exact

/-- An exact result lies outside the 72-bit range (R185). -/
def ov72 (exact : Int) : Bool := decide (exact < -(2 ^ 71 : Int) ∨ (2 ^ 71 : Int) ≤ exact)

/-- Bits [71:63] of an accumulator are not all equal (R189). -/
def extUsed (r : BitVec 72) : Bool := decide (r.toInt < -(2 ^ 63 : Int) ∨ (2 ^ 63 : Int) ≤ r.toInt)

/-- FLG as five bits: SOV, OV, XU, NG, ZR (R189). -/
def flgOf (sov ov xu ng zr : Bool) : BitVec 8 :=
  BitVec.ofNat 8 (16 * b2n sov + 8 * b2n ov + 4 * b2n xu + 2 * b2n ng + b2n zr)

/-- FLG.SOV. -/
def flgSov (f : BitVec 8) : Bool := f.getLsbD 4

/-- FLG after a flag-setting operation with the given exact result (R185, R189). -/
def flagsOf (f : BitVec 8) (exact : Int) : BitVec 8 :=
  let r := acc72 exact
  flgOf (flgSov f || ov72 exact) (ov72 exact) (extUsed r) r.msb (r == 0)

/-- FLG with SOV set by a saturating store (R188). -/
def flagsSov (f : BitVec 8) : BitVec 8 := f ||| 16#8

/-- The condition of a code holds; none where the code is illegal (R198). -/
def condOf (f : BitVec 8) (cc : Nat) : Option Bool :=
  let zr := f.getLsbD 0
  let ng := f.getLsbD 1
  let xu := f.getLsbD 2
  match cc with
  | 0 => some true
  | 1 => some zr
  | 2 => some (!zr)
  | 3 => some ng
  | 4 => some (!ng)
  | 5 => some (!zr && !ng)
  | 6 => some (zr || ng)
  | 7 => some xu
  | 8 => some (!xu)
  | 9 => some (flgSov f)
  | 10 => some (!flgSov f)
  | _ => Option.none

/-- MOD.OSC, MOD.FRC and MOD.RNE (R189). -/
def modOsc (m : BitVec 8) : Nat := m.toNat % 4
def modFrc (m : BitVec 8) : Bool := m.getLsbD 2
def modRne (m : BitVec 8) : Bool := m.getLsbD 3

/-- The bit at which rounding acts (R187). -/
def roundBit (m : BitVec 8) : Nat :=
  match modOsc m with
  | 0 => 32
  | 1 => 33
  | 2 => 31
  | _ => 34

/-- An exact value rounded (R187). -/
def roundAcc (m : BitVec 8) (v : Int) : Int :=
  let b := roundBit m
  if modRne m then rhe v b * 2 ^ b else (v + 2 ^ (b - 1)) / 2 ^ b * 2 ^ b

/-- The accumulator as the store scales it (R188). -/
def scaleAcc (m : BitVec 8) (a : BitVec 72) : Int :=
  match modOsc m with
  | 0 => a.toInt
  | 1 => a.toInt / 2
  | 2 => 2 * a.toInt
  | _ => a.toInt / 4

/-- The word a scaled store writes, and whether it saturated (R188). -/
def storeWord (m : BitVec 8) (a : BitVec 72) : BitVec 32 × Bool :=
  let t := scaleAcc m a
  if (2 ^ 63 : Int) ≤ t then (0x7FFFFFFF, true)
  else if t < -(2 ^ 63 : Int) then (0x80000000, true)
  else (BitVec.ofInt 32 (t / 2 ^ 32), false)

/-- The number of leading bits of an accumulator that equal bit 71. -/
def leadBits (a : BitVec 72) : Nat :=
  ((List.range 72).takeWhile (fun k => a.getLsbD (71 - k) == a.msb)).length

/-- SHC as EXP forms it (R195). -/
def expOf (a : BitVec 72) : BitVec 7 :=
  if a = 0 then 0 else BitVec.ofInt 7 ((leadBits a : Int) - 9)

/-- An exact shift: left by `k` where it is not negative, arithmetically right otherwise (R195, R197). -/
def shiftExact (v k : Int) : Int := if 0 ≤ k then v * 2 ^ k.toNat else v / 2 ^ (-k).toNat

end Sys2Proof.Machine
end

