-- ==== Sys2Proof/Machine/Operands.lean ====
section
/-! DEFINITION. The operand forms of the signal engines: the register numbers of format C, the source codes
and product pairs of format P, the transfers of its moves and the modification of index registers (R184,
R190 to R194). -/

namespace Sys2Proof.Machine

/-! ### Registers of a bank -/

/-- Dn. -/
def SeBank.dr (b : SeBank) (n : Nat) : BitVec 32 := nth b.d n 0
/-- Wn. -/
def SeBank.wr (b : SeBank) (n : Nat) : BitVec 72 := nth b.w n 0
/-- In. -/
def SeBank.ir (b : SeBank) (n : Nat) : BitVec 14 := nth b.ix n 0
/-- Sn. -/
def SeBank.sr (b : SeBank) (n : Nat) : BitVec 16 := nth b.st n 0
/-- Cn. -/
def SeBank.cr (b : SeBank) (n : Nat) : BitVec 32 := nth b.c n 0

/-- Dn replaced. -/
def SeBank.setD (b : SeBank) (n : Nat) (v : BitVec 32) : SeBank := { b with d := setNth b.d n v 0 }
/-- Wn replaced. -/
def SeBank.setW (b : SeBank) (n : Nat) (v : BitVec 72) : SeBank := { b with w := setNth b.w n v 0 }
/-- In replaced. -/
def SeBank.setI (b : SeBank) (n : Nat) (v : BitVec 14) : SeBank := { b with ix := setNth b.ix n v 0 }

/-- WnE, WnU and WnL of an accumulator (R184). -/
def accE (a : BitVec 72) : BitVec 8 := a.extractLsb' 64 8
def accU (a : BitVec 72) : BitVec 32 := a.extractLsb' 32 32
def accL (a : BitVec 72) : BitVec 32 := a.extractLsb' 0 32

/-- An accumulator from its parts. -/
def accOf (e : BitVec 8) (u l : BitVec 32) : BitVec 72 := (e ++ u) ++ l

/-- A register read by its format C number; none where the number is reserved (R184). -/
def SeBank.read (b : SeBank) (r : Nat) : Option (BitVec 32) :=
  if r < 4 then some (b.dr r)
  else if r < 8 then some ((accE (b.wr (r - 4))).signExtend 32)
  else if r < 12 then some (accU (b.wr (r - 8)))
  else if r < 16 then some (accL (b.wr (r - 12)))
  else if r < 24 then some ((b.ir (r - 16)).zeroExtend 32)
  else if r < 32 then some ((b.sr (r - 24)).signExtend 32)
  else if r < 40 then some (b.cr (r - 32))
  else if r = 40 then some (b.shc.signExtend 32)
  else if r = 41 then some (b.flg.zeroExtend 32)
  else if r = 42 then some (b.md.zeroExtend 32)
  else Option.none

/-- A register written by its format C number with the low bits of a value (R184). -/
def SeBank.write (b : SeBank) (r : Nat) (v : BitVec 32) : Option SeBank :=
  if r < 4 then some (b.setD r v)
  else if r < 8 then let a := b.wr (r - 4); some (b.setW (r - 4) (accOf (v.truncate 8) (accU a) (accL a)))
  else if r < 12 then let a := b.wr (r - 8); some (b.setW (r - 8) (accOf (accE a) v (accL a)))
  else if r < 16 then let a := b.wr (r - 12); some (b.setW (r - 12) (accOf (accE a) (accU a) v))
  else if r < 24 then some (b.setI (r - 16) (v.truncate 14))
  else if r < 32 then some { b with st := setNth b.st (r - 24) (v.truncate 16) 0 }
  else if r < 40 then some { b with c := setNth b.c (r - 32) v 0 }
  else if r = 40 then some { b with shc := v.truncate 7 }
  else if r = 41 then some { b with flg := (v.truncate 8) &&& 0x1F#8 }
  else if r = 42 then some { b with md := (v.truncate 8) &&& 0x0F#8 }
  else Option.none

/-- The width of a register by its format C number (R184). -/
def regWidth (r : Nat) : Nat :=
  if r < 4 then 32 else if r < 8 then 8 else if r < 16 then 32 else if r < 24 then 14 else if r < 32 then 16
  else if r < 40 then 32 else if r = 40 then 7 else 8

/-- The index registers, by bit, whose addressing a write of register `r` delays by a cycle (R200). -/
def hazardI (r : Nat) : Nat := if 16 ≤ r ∧ r < 40 then 2 ^ (r % 8) else 0

/-- A write of register `r` delays the next instruction (R200). -/
def hazardM (r : Nat) : Bool := r == 41 || r == 42

/-! ### Operands of the ALU (R185, R186, R194) -/

/-- An ALU source by its code. -/
def SeBank.src (b : SeBank) (s : Nat) : Int :=
  if s < 4 then (b.dr s).toInt * 2 ^ 32 else (b.wr (s - 4)).toInt

/-- The two operand registers of a product pair. -/
def pairOf (s : Nat) : Nat × Nat :=
  match s with
  | 0 => (0, 1)
  | 1 => (0, 2)
  | 2 => (0, 3)
  | 3 => (1, 2)
  | 4 => (1, 3)
  | 5 => (2, 3)
  | 6 => (0, 0)
  | _ => (2, 2)

/-- The product of a pair. -/
def SeBank.pair (b : SeBank) (s : Nat) : Int :=
  (b.dr (pairOf s).1).toInt * (b.dr (pairOf s).2).toInt * (if modFrc b.md then 2 else 1)

/-! ### Moves (R193) -/

/-- What a move stores, and whether the store saturated; none where it stores nothing. -/
def SeBank.moveStore (b : SeBank) (m : Move) : Option (BitVec 32 × Bool) :=
  if m.t = 2 then
    (if m.reg.val < 4 then some (b.dr m.reg, false) else some (storeWord b.md (b.wr (m.reg - 4))))
  else if m.t = 3 ∧ m.reg.val < 4 then some (accL (b.wr m.reg), false)
  else Option.none

/-- A move loads a register from memory. -/
def moveLoads (m : Move) : Bool := m.t == 1 || (m.t == 3 && decide (4 ≤ m.reg.val))

/-- The load of a move (R193, R196). -/
def SeBank.moveLoad (b : SeBank) (m : Move) (v : BitVec 32) : SeBank :=
  if m.t = 1 then
    (if m.reg.val < 4 then b.setD m.reg v else b.setW (m.reg - 4) (acc72 (v.toInt * 2 ^ 32)))
  else if m.t = 3 ∧ 4 ≤ m.reg.val then
    let a := b.wr (m.reg - 4)
    b.setW (m.reg - 4) (accOf (accE a) (accU a) v)
  else b

/-! ### Address modification (R190, R191) -/

/-- The low `n` bits of `v` in reverse order. -/
def revBits : Nat → Nat → Nat
  | 0, _ => 0
  | n + 1, v => v % 2 * 2 ^ n + revBits n (v / 2)

/-- The place of an index in a circular buffer, which may wrap past the last word; outside the buffer its distance from the
start (R191). DEDUCED (log 117). -/
def circPlace (base lk i : Nat) : Int :=
  let d := (i + 16384 - base) % 16384
  if d < lk then d else (i : Int) - base

/-- Ik after a step `st` under Ck; `stride` is set where the step is +Sk. -/
def modIndex (c : BitVec 32) (i : BitVec 14) (st : Int) (stride : Bool) : BitVec 14 :=
  let mode := bitsOf c.toNat 30 2
  let base := bitsOf c.toNat 16 14
  let len := bitsOf c.toNat 0 14
  let lin := BitVec.ofInt 14 ((i.toNat : Int) + st)
  if mode = 1 then BitVec.ofInt 14 (base + (circPlace base (len + 1) i.toNat + st) % ((len + 1 : Nat) : Int))
  else if mode = 2 ∧ stride = true then
    let n := min 14 (max 1 (len % 16))
    let low := revBits n ((revBits n i.toNat + revBits n (ofSigned 14 st)) % 2 ^ n)
    BitVec.ofNat 14 (i.toNat / 2 ^ n * 2 ^ n + low)
  else lin

/-- The index registers of bank `b` with the modification of a move, whose stride and circulation are those of
bank `old` (R196). DEDUCED (log 117). -/
def SeBank.moveStep (b old : SeBank) (m : Move) : SeBank :=
  if m.t = 0 then b
  else
    match m.stp.val with
    | 0 => b
    | 1 => b.setI m.ix (modIndex (old.cr m.ix) (b.ir m.ix) 1 false)
    | 2 => b.setI m.ix (modIndex (old.cr m.ix) (b.ir m.ix) (-1) false)
    | _ => b.setI m.ix (modIndex (old.cr m.ix) (b.ir m.ix) (old.sr m.ix).toInt true)

/-- The indices a format P instruction addresses through, by bit. -/
def pUses (p : PFmt) : Nat :=
  Nat.lor (if p.xm.t = 0 then 0 else 2 ^ p.xm.ix.val) (if p.ym.t = 0 then 0 else 2 ^ p.ym.ix.val)

end Sys2Proof.Machine
end

