-- ==== Sys2Proof/Machine/SeWord.lean ====
section
/-! DEFINITION. The instruction words of the signal engines as program memory holds them: format P (R192 to R194)
and format C (R197, R198). Fields of format C that are not listed are ignored by the decoder and written 0 by the
encoder. -/

namespace Sys2Proof.Machine

/-- A move field (R192): T, IX, STP and REG. -/
def moveBits (m : Move) : Nat := m.t * 256 + m.ix * 32 + m.stp * 8 + m.reg

/-- The move whose field is `v`. -/
def moveOf (v : Nat) : Move :=
  ⟨Fin.ofNat 4 (v / 256), Fin.ofNat 8 (v / 32), Fin.ofNat 4 (v / 8), Fin.ofNat 8 v⟩

/-- The word of a format P instruction with ALU operation `op` (R192). -/
def wordP (op : Nat) (p : PFmt) : Nat :=
  2147483648 + op * 67108864 + p.d * 16777216 + p.s * 2097152 + moveBits p.xm * 2048 + moveBits p.ym * 2

/-- The operand fields of a format P word. -/
def fieldsP (w : Nat) : PFmt :=
  ⟨Fin.ofNat 4 (w / 16777216), Fin.ofNat 8 (w / 2097152), moveOf (w / 2048 % 1024), moveOf (w / 2 % 1024)⟩

/-- The word of a format C instruction with code `op` and the remaining fields `v`. -/
def wordC (op v : Nat) : Nat := op * 67108864 + v

/-- The word of a signal-engine instruction; no word for the other commands (R192 to R197). -/
def seEncode : Instr → Option Nat
  | .seNop _ p => some (wordP 0x00 p)
  | .seAdd _ p => some (wordP 0x01 p)
  | .seSub _ p => some (wordP 0x02 p)
  | .seCmp _ p => some (wordP 0x03 p)
  | .seMov _ p => some (wordP 0x04 p)
  | .seAbs _ p => some (wordP 0x05 p)
  | .seNeg _ p => some (wordP 0x06 p)
  | .seClr _ p => some (wordP 0x07 p)
  | .seMul _ p => some (wordP 0x08 p)
  | .seMac _ p => some (wordP 0x09 p)
  | .seMsb _ p => some (wordP 0x0A p)
  | .seMulr _ p => some (wordP 0x0B p)
  | .seMacr _ p => some (wordP 0x0C p)
  | .seMsbr _ p => some (wordP 0x0D p)
  | .seRnd _ p => some (wordP 0x0E p)
  | .seSat _ p => some (wordP 0x0F p)
  | .seShl _ p => some (wordP 0x10 p)
  | .seShr _ p => some (wordP 0x11 p)
  | .seExp _ p => some (wordP 0x12 p)
  | .seNorm _ p => some (wordP 0x13 p)
  | .seAnd _ p => some (wordP 0x14 p)
  | .seOr _ p => some (wordP 0x15 p)
  | .seXor _ p => some (wordP 0x16 p)
  | .seMax _ p => some (wordP 0x17 p)
  | .seMin _ p => some (wordP 0x18 p)
  | .seLdi _ reg hi imm => some (wordC 1 (reg * 1048576 + b2n hi * 65536 + imm.toNat))
  | .seMovr _ dst src => some (wordC 2 (dst * 1048576 + src * 16384))
  | .seLda _ y reg addr => some (wordC 3 (b2n y * 33554432 + reg * 262144 + addr))
  | .seSta _ y reg addr => some (wordC 3 (b2n y * 33554432 + 16777216 + reg * 262144 + addr))
  | .seLdo _ y reg k ofs => some (wordC 4 (b2n y * 33554432 + reg * 262144 + k * 32768 + ofs.toNat))
  | .seSto _ y reg k ofs => some (wordC 4 (b2n y * 33554432 + 16777216 + reg * 262144 + k * 32768 + ofs.toNat))
  | .seJmpcc _ cc target => some (wordC 5 (cc * 4194304 + target))
  | .seCall _ target => some (wordC 6 target)
  | .seRet _ => some (wordC 7 0)
  | .seRepeat _ src cnt reg => some (wordC 8 (reg * 16384 + b2n src * 8192 + cnt))
  | .seDbnz _ reg target => some (wordC 9 (reg * 1048576 + target))
  | .seHalt _ => some (wordC 10 0)
  | .seSig _ code => some (wordC 11 code.toNat)
  | .seAsh _ d sh => some (wordC 12 (d * 16777216 + sh.toNat))
  | .seAddi _ reg imm => some (wordC 13 (reg * 1048576 + imm.toNat))
  | .seIold _ reg word => some (wordC 14 (reg * 262144 + word))
  | .seIost _ reg word => some (wordC 14 (16777216 + reg * 262144 + word))
  | _ => Option.none

/-- The format P instruction of ALU operation `op` on engine `n`; none where `op` is illegal (R194). -/
def decodeP (n : Fin 4) (op : Nat) (p : PFmt) : Option Instr :=
  match op with
  | 0x00 => some (.seNop n p)
  | 0x01 => some (.seAdd n p)
  | 0x02 => some (.seSub n p)
  | 0x03 => some (.seCmp n p)
  | 0x04 => some (.seMov n p)
  | 0x05 => some (.seAbs n p)
  | 0x06 => some (.seNeg n p)
  | 0x07 => some (.seClr n p)
  | 0x08 => some (.seMul n p)
  | 0x09 => some (.seMac n p)
  | 0x0A => some (.seMsb n p)
  | 0x0B => some (.seMulr n p)
  | 0x0C => some (.seMacr n p)
  | 0x0D => some (.seMsbr n p)
  | 0x0E => some (.seRnd n p)
  | 0x0F => some (.seSat n p)
  | 0x10 => some (.seShl n p)
  | 0x11 => some (.seShr n p)
  | 0x12 => some (.seExp n p)
  | 0x13 => some (.seNorm n p)
  | 0x14 => some (.seAnd n p)
  | 0x15 => some (.seOr n p)
  | 0x16 => some (.seXor n p)
  | 0x17 => some (.seMax n p)
  | 0x18 => some (.seMin n p)
  | _ => Option.none

/-- The format C instruction of code `op` and word `w` on engine `n`; none where `op` is illegal (R197). -/
def decodeC (n : Fin 4) (op w : Nat) : Option Instr :=
  match op with
  | 1 => some (.seLdi n (Fin.ofNat 64 (w / 1048576)) (bitOf w 16) (BitVec.ofNat 16 w))
  | 2 => some (.seMovr n (Fin.ofNat 64 (w / 1048576)) (Fin.ofNat 64 (w / 16384)))
  | 3 =>
    let y := bitOf w 25
    let reg := Fin.ofNat 64 (w / 262144)
    let addr := Fin.ofNat 16384 w
    some (if bitOf w 24 then .seSta n y reg addr else .seLda n y reg addr)
  | 4 =>
    let y := bitOf w 25
    let reg := Fin.ofNat 64 (w / 262144)
    let k := Fin.ofNat 8 (w / 32768)
    let ofs := BitVec.ofNat 12 w
    some (if bitOf w 24 then .seSto n y reg k ofs else .seLdo n y reg k ofs)
  | 5 => some (.seJmpcc n (Fin.ofNat 16 (w / 4194304)) (Fin.ofNat 8192 w))
  | 6 => some (.seCall n (Fin.ofNat 8192 w))
  | 7 => some (.seRet n)
  | 8 => some (.seRepeat n (bitOf w 13) (Fin.ofNat 4096 w) (Fin.ofNat 64 (w / 16384)))
  | 9 => some (.seDbnz n (Fin.ofNat 64 (w / 1048576)) (Fin.ofNat 8192 w))
  | 10 => some (.seHalt n)
  | 11 => some (.seSig n (BitVec.ofNat 8 w))
  | 12 => some (.seAsh n (Fin.ofNat 4 (w / 16777216)) (BitVec.ofNat 7 w))
  | 13 => some (.seAddi n (Fin.ofNat 64 (w / 1048576)) (BitVec.ofNat 16 w))
  | 14 =>
    let reg := Fin.ofNat 64 (w / 262144)
    let word := Fin.ofNat 16384 w
    some (if bitOf w 24 then .seIost n reg word else .seIold n reg word)
  | _ => Option.none

/-- The instruction of engine `n` that the word `w` of program memory holds; none where it is illegal: bit 31 selects the
format, and a format P word with bit 0 set is illegal (R192, R194, R197). -/
def seDecode (n : Fin 4) (w : Nat) : Option Instr :=
  if bitOf w 31 then (if bitOf w 0 then Option.none else decodeP n (w / 67108864 % 32) (fieldsP w))
  else decodeC n (w / 67108864 % 32) w

/-- The engine a signal-engine instruction runs on; none for the other commands. -/
def seEngine : Instr → Option (Fin 4)
  | .seNop n _ | .seAdd n _ | .seSub n _ | .seCmp n _ | .seMov n _ | .seAbs n _ | .seNeg n _ | .seClr n _ | .seMul n _
  | .seMac n _ | .seMsb n _ | .seMulr n _ | .seMacr n _ | .seMsbr n _ | .seRnd n _ | .seSat n _ | .seShl n _
  | .seShr n _ | .seExp n _ | .seNorm n _ | .seAnd n _ | .seOr n _ | .seXor n _ | .seMax n _ | .seMin n _
  | .seLdi n _ _ _ | .seMovr n _ _ | .seLda n _ _ _ | .seSta n _ _ _ | .seLdo n _ _ _ _ | .seSto n _ _ _ _
  | .seJmpcc n _ _ | .seCall n _ | .seRet n | .seRepeat n _ _ _ | .seDbnz n _ _ | .seHalt n | .seSig n _
  | .seAsh n _ _ | .seAddi n _ _ | .seIold n _ _ | .seIost n _ _ => some n
  | _ => Option.none

end Sys2Proof.Machine
end

