-- ==== Sys2Proof/Machine/Se.lean ====
section
/-! DEFINITION. The signal engines: memories, levels and entries, traps, REPEAT, and every instruction but the
register-space accesses (R181 to R209). -/

namespace Sys2Proof.Machine

/-! ### Engine state -/

/-- The page of engine `n`. -/
def sePage (n : Nat) : Nat := 0x10 + n

/-- Engine `n`. -/
def State.eng (s : State) (n : Nat) : SeState := nth s.se n SeState.init

/-- Engine `n` replaced. -/
def State.setEng (s : State) (n : Nat) (e : SeState) : State := { s with se := setNth s.se n e SeState.init }

/-- The level whose program executes: level 1 preempts level 0 (R202). -/
def SeState.level (e : SeState) : Option Nat :=
  if e.prog1.isSome then some 1 else if e.prog0.isSome then some 0 else Option.none

/-- The bank of a level. -/
def SeState.bank (e : SeState) (l : Nat) : SeBank := if l = 1 then e.bank1 else e.bank0

/-- The bank of a level replaced. -/
def SeState.setBank (e : SeState) (l : Nat) (b : SeBank) : SeState :=
  if l = 1 then { e with bank1 := b } else { e with bank0 := b }

/-- The program of a level. -/
def SeState.prog (e : SeState) (l : Nat) : Option SeProg := if l = 1 then e.prog1 else e.prog0

/-- The program of a level replaced. -/
def SeState.setProg (e : SeState) (l : Nat) (p : Option SeProg) : SeState :=
  if l = 1 then { e with prog1 := p } else { e with prog0 := p }

/-- SE.RSTA.PC: the next instruction of the executing program, or the last one executed. -/
def SeState.pcNow (e : SeState) : BitVec 13 :=
  match e.level with
  | some l => ((e.prog l).map SeProg.pc).getD e.last
  | Option.none => e.last

/-! ### Memories (R181, R182, R208) -/

/-- The address of word `w` of a memory of engine `n`: 0 X, 1 Y, 2 program. -/
def seAddr (n mem w : Nat) : Nat :=
  0x42000000 + 0x100000 * n + 0x40000 * mem + 4 * (if mem = 2 then w % 8192 else w % 16384)

/-- A word of X or Y memory. -/
def State.seWord (s : State) (n : Nat) (y : Bool) (w : Nat) : BitVec 32 := BitVec.ofNat 32 (s.mem32 (seAddr n (b2n y) w))

/-- A word of X or Y memory written; its row is written with it, corrected (R208). -/
def State.seStore (s : State) (n : Nat) (y : Bool) (w : Nat) (v : BitVec 32) : State :=
  (s.heal (seAddr n (b2n y) w)).setMem32 (seAddr n (b2n y) w) v.toNat

/-- An uncorrectable error recorded in SE.ECC. -/
def State.eccNote (s : State) (n mem w : Nat) : State := (s.put (R.SE_ECC_MEM n) mem).put (R.SE_ECC_ADDR n) w

/-- A corrected error counted (R208). -/
def State.eccCorrected (s : State) (n : Nat) : State := (s.incSat (R.SE_ECC_CEC n)).raiseFlt (sePage n) Flt.SE_CE

/-- An access of the engine to word `w` of a memory: a single-bit error in its row is corrected and counted (R208). -/
def State.eccMeet (s : State) (n mem w : Nat) : State := if s.softRow (seAddr n mem w) then s.eccCorrected n else s

/-! ### Accesses of the cores (R182, R183, R199, R208) -/

/-- The engine of an address of the window, the memory and the word; none where nothing stands (R182). -/
def seTarget (a : Nat) : Option (Nat × Nat × Nat) :=
  let n := (a - 0x42000000) / 0x100000
  let o := (a - 0x42000000) % 0x100000
  if a < 0x42000000 ∨ 4 ≤ n then Option.none
  else if o < 0x10000 then some (n, 0, o / 4)
  else if 0x40000 ≤ o ∧ o < 0x50000 then some (n, 1, (o - 0x40000) / 4)
  else if 0x80000 ≤ o ∧ o < 0x88000 then some (n, 2, (o - 0x80000) / 4)
  else Option.none

/-- An access of the window ends in a bus error (R182, R208, R16). -/
def State.seAccessBad (s : State) (a size : Nat) : Bool :=
  match seTarget a with
  | Option.none => true
  | some (n, mem, _) =>
    size != 4 || a % 4 != 0 || s.gated (sePage n) ||
      (mem == 2 && ((s.eng n).prog0.isSome || (s.eng n).prog1.isSome))

/-- A read or write of the word at an address of the window that is answered (R182, R183, R208). -/
def State.seWindow (s : State) (n mem w a : Nat) (v : Option W32) (err : MemErr) : State :=
  let t := s.eccMark a err
  match s.eccAt a err with
  | .uncorrectable => { t.eccNote n mem w with resp := ⟨true, 0⟩ }
  | e =>
    let t := if e = .corrected then t.eccCorrected n else t
    match v with
    | some x => { (t.heal a).setMem32 a x.toNat with resp := ⟨false, 0⟩ }
    | Option.none => { t with resp := ⟨false, BitVec.ofNat 32 (t.mem32 a)⟩ }

/-- An access to the memory window of an engine that does not wait (R182, R183, R208). -/
def State.seAccess (s : State) (a size : Nat) (v : Option W32) (err : MemErr) : State :=
  if s.seAccessBad a size then { s with resp := ⟨true, 0⟩ }
  else match seTarget a with
    | Option.none => s
    | some (n, mem, w) => s.seWindow n mem w a v err

/-- A bus error response ends a core's load or store in the access fault of its kind (R212, R213).
DEDUCED (log 118). -/
def State.busFault (s : State) (c : Nat) (write : Bool) (a : Nat) : State :=
  if s.resp.err then s.coreFault c (if write then .store else .load) a else s

/-- What a core's load that has been answered returned. -/
def State.busLoaded (s : State) (c : Nat) (write : Bool) : State :=
  if s.resp.err || write then s else s.setRd c s.resp.data.toNat

/-- An access of core `c`, or of the debug port, to the memory window of an engine is made. -/
def State.coreSe (s : State) (c : Option Nat) (a size : Nat) (v : Option W32) (err : MemErr) : State :=
  let t := s.seAccess a size v err
  match c with
  | some c => (t.busFault c v.isSome a).busLoaded c v.isSome
  | Option.none => t

/-- The engine whose REPEAT an access of the window waits for (R199). -/
def State.seHeld (s : State) (a size : Nat) : Option Nat :=
  if s.seAccessBad a size then Option.none
  else match seTarget a with
    | some (n, mem, _) => if mem != 2 && (s.eng n).rpt.isSome then some n else Option.none
    | Option.none => Option.none

/-- An access of core `c`, or of the debug port, to the memory window of an engine: at once, or after the REPEAT in progress
(R183, R199). -/
def State.coreSeAccess (s : State) (c : Option Nat) (a size : Nat) (v : Option W32) (err : MemErr) : State :=
  match s.seHeld a size with
  | some n => s.setEng n { s.eng n with waits := (s.eng n).waits ++ [⟨c, a, v, err⟩] }
  | Option.none => s.coreSe c a size v err

/-- The accesses that have waited for the end of a REPEAT of engine `n` are made, in their order. -/
def State.seRelease (s : State) (n : Nat) : State :=
  match (s.eng n).waits with
  | [] => s
  | l => forEach l (fun w x => x.coreSe w.core w.addr 4 w.v w.err) (s.setEng n { s.eng n with waits := [] })

/-! ### Events, triggers, starts and ends (R201 to R207) -/

/-- An event descriptor of engine `n`; where the dispatcher refuses it, SIGD is set (R204). -/
def State.sePost (s : State) (n lvl code : Nat) : State :=
  let t := s.dsxIssue (0x38 + n) (256 * lvl + code)
  t.raiseIf (t.dsx.nextId == s.dsx.nextId) (sePage n) Flt.SE_SIGD

/-- Entry `k` of engine `n` is running. -/
def SeState.runsEntry (e : SeState) (k : Nat) : Bool :=
  (e.prog0.map SeProg.entry) == some k || (e.prog1.map SeProg.entry) == some k

/-- A trigger dropped and counted. -/
def State.seDrop (s : State) (n : Nat) : State := (s.incSat (R.SE_SKIPC_BUSY n)).raiseFlt (sePage n) Flt.SE_BUSY

/-- A trigger of entry `k` (R201, R207). -/
def State.seTrigger (s : State) (n k : Nat) : State :=
  if !s.runs (sePage n) || !s.on (R.SE_ENT_EN n k) then s
  else if s.bit (R.FLT (sePage n)) Flt.SE_TRAP || bitOf (s.eng n).pend k || (s.eng n).runsEntry k then s.seDrop n
  else s.setEng n { s.eng n with pend := setBitN (s.eng n).pend k }

/-- The entry that starts next on an engine, if one may start (R201, R202). -/
def State.seReady (s : State) (n : Nat) : Option Nat :=
  let e := s.eng n
  let first (l : Nat) : Option Nat :=
    (List.range 4).find? (fun k => bitOf e.pend k && s.get (R.SE_ENT_LVL n k) == l)
  if e.rpt.isSome || e.stop || e.prog1.isSome then Option.none
  else match first 1 with
    | some k => some k
    | Option.none => if e.prog0.isSome then Option.none else first 0

/-- Entry `k` starts. DEDUCED (log 117). -/
def State.seStartEntry (s : State) (n k : Nat) : State :=
  let e := s.eng n
  let p : SeProg := ⟨k, BitVec.ofNat 13 (s.get (R.SE_ENT_ADDR n k)), s.on (R.SE_ENT_DONEEV n k),
    s.get (R.SE_ENT_TRG n k) == 1⟩
  let e := { e with pend := clrBitN e.pend k, hazI := 0, hazM := false }
  if s.get (R.SE_ENT_LVL n k) = 1 then s.setEng n (e.setProg 1 (some p))
  else s.setEng n ({ e with cyc := 0 }.setProg 0 (some p))

/-- Both levels end and every pending entry is cleared (R203); accesses that waited for a REPEAT are made. -/
def State.seEnd (s : State) (n : Nat) : State :=
  let t := s.setEng n { s.eng n with
    prog0 := Option.none, prog1 := Option.none, pend := 0, rpt := Option.none, stop := false }
  if (s.eng n).rpt.isSome then t.seRelease n else t

/-- STOP: at once, or after the REPEAT in progress (R203). DEDUCED (log 117). -/
def State.seStop (s : State) (n : Nat) : State :=
  if (s.eng n).rpt.isSome then s.setEng n { s.eng n with stop := true, pend := 0 } else s.seEnd n

/-- SE_STOP (R203). -/
def execSeStop (n : Fin 4) (s : State) : Host.Outcome State Fault Refusal :=
  .next (live s (s.cmd (sePage n) (s.seStop n)))

/-- SE.CMD.START (R201). -/
def State.seStarts (s : State) (n bits : Nat) : State :=
  forUpTo 4 (fun k x => if bitOf bits k then x.seTrigger n k else x) s

/-- SE_START (R201). -/
def execSeStart (n : Fin 4) (bits : BitVec 4) (s : State) : Host.Outcome State Fault Refusal :=
  .next (live s (s.cmd (sePage n) (s.seStarts n bits.toNat)))

/-- A TRG 01 entry fires at its instant after the Strike, and never from TP - 500 on (R201). The triggers of
types 10 and 11 come with the record or the HALT that causes them. DEDUCED (log 119). -/
def State.seTimed (s : State) (n k : Nat) : State :=
  let t := s.get (R.SE_ENT_OFS n k) * 10
  s.when (s.lock && s.get (R.SE_ENT_TRG n k) == 1 && decide (t < s.eveNs ∧ s.tickNs ≤ t)) ((s.toInstant t).seTrigger n k)

/-- SE_ENTRY_TRIGGER (R201). DEDUCED (log 119). -/
def execSeEntryTrigger (n k : Fin 4) (s : State) : Host.Outcome State Fault Refusal :=
  .next (live s (s.when (s.runs (sePage n)) (s.seTimed n k)))

/-- The window of an acquisition record has been copied to engine `n`: its entries of TRG 10 (R201, R313).
DEDUCED (log 119). -/
def State.seRecord (s : State) (n : Nat) : State :=
  forUpTo 4 (fun k y => if y.get (R.SE_ENT_TRG n k) = 2 then y.seTrigger n k else y) s

/-- The end of a level-0 program on engine `n`: the entries of TRG 11 that name it (R201).
DEDUCED (log 119). -/
def State.seChained (s : State) (n : Nat) : State :=
  forUpTo 4 (fun m x => forUpTo 4 (fun k y =>
    if y.get (R.SE_ENT_TRG m k) = 3 ∧ y.get (R.SE_ENT_OFS m k) % 4 = n then y.seTrigger m k else y) x) s

/-- A trap; one of the engine that measures ends its measurement (R207, R313). DEDUCED (log 118). -/
def State.seTrap (s : State) (n lvl cause : Nat) (pc : BitVec 13) : State :=
  let s := (s.seEnd n).setEng n { (s.seEnd n).eng n with last := pc }
  let s : State := { s with acq := { s.acq with trapped := s.acq.trapped || s.get R.ACQ_MEAS_ENG == n } }
  let s := ((s.put (R.SE_TRAP_LVL n) lvl).put (R.SE_TRAP_CAUSE n) cause).put (R.SE_TRAP_PC n) pc.toNat
  ((s.sePost n lvl 0xFF).fcuEvent 7).raiseFlt (sePage n) Flt.SE_TRAP

/-- The program counter of level `l` of engine `n`. -/
def State.sePc (s : State) (n l : Nat) : BitVec 13 := (((s.eng n).prog l).map SeProg.pc).getD 0

/-- The instruction that program memory holds at `pc`; none where it is illegal (R192, R194, R197). -/
def State.seInsn (s : State) (n : Nat) (pc : BitVec 13) : Option Instr :=
  seDecode (Fin.ofNat 4 n) (s.mem32 (seAddr n 2 pc.toNat))

/-- The first instruction of a program that has started is illegal, or its word in error: the trap comes at once (R207). -/
def State.seFirst (s : State) (n l : Nat) : State :=
  let pc := s.sePc n l
  if s.badRow (seAddr n 2 pc.toNat) then (s.eccNote n 2 pc.toNat).seTrap n l 5 pc
  else if (s.seInsn n pc).isNone then (s.eccMeet n 2 pc.toNat).seTrap n l 1 pc
  else s

/-- SE_PROGRAM_START (R201, R207). -/
def execSeProgramStart (n : Fin 4) (s : State) : Host.Outcome State Fault Refusal :=
  .next (live s (if !s.runs (sePage n) then s else match s.seReady n with
    | some k => (s.seStartEntry n k).seFirst n (s.get (R.SE_ENT_LVL n k))
    | Option.none => s))

/-! ### Executing an instruction -/

/-- What one instruction does on a level: the state with its effect, the next PC, the cycles of R200, what it
wrote for the stalls, or the cause of a trap. -/
structure SeOut where
  s : State
  pc : BitVec 13
  cycles : Nat
  hazI : Nat
  hazM : Bool
  trap : Option Nat

/-- An instruction that goes on to the next in one cycle. -/
def SeOut.step (s : State) (pc : BitVec 13) : SeOut := ⟨s, pc + 1, 1, 0, false, Option.none⟩

/-- An instruction that traps. -/
def SeOut.stop (s : State) (pc : BitVec 13) (cause : Nat) : SeOut := ⟨s, pc, 0, 0, false, some cause⟩

/-- The stall of an instruction that addresses through `uses` after one that wrote `hazI` and `hazM` (R200).
DEDUCED (log 116). -/
def seStall (hazI : Nat) (hazM : Bool) (uses : Nat) : Nat := b2n (Nat.land hazI uses != 0) + b2n hazM

/-- After the instruction: the PC, the cycles, the stalls of the next. Under REPEAT one iteration is done, and with the last
the accesses and a STOP that waited come (R199, R203). DEDUCED (log 116). -/
def State.seAfter (s : State) (n l stall : Nat) (pc : BitVec 13) (o : SeOut) : State :=
  match o.trap with
  | some c => o.s.seTrap n l c pc
  | Option.none =>
    let e := o.s.eng n
    let left := e.rpt.getD 1 - 1
    let e := { e with
      cyc := if e.prog0.isSome then e.cyc + stall + o.cycles else e.cyc
      hazI := o.hazI, hazM := o.hazM, last := pc, rpt := if left = 0 then Option.none else some left }
    let e := e.setProg l ((e.prog l).map (fun p => { p with pc := if left = 0 then o.pc else pc }))
    let t := o.s.setEng n e
    if left ≠ 0 then t
    else
      let t := if (s.eng n).stop then t.seEnd n else t
      if (s.eng n).rpt.isSome then t.seRelease n else t

/-- An instruction on engine `n`: it executes on the executing level, where there is one and the word of program memory at its
PC is that instruction (R200 to R203). `uses` are the index registers it addresses through; `rep` tells whether it may
stand after REPEAT. An illegal word there is the trap of cause 1, an uncorrectable error in it that of cause 5 (R207,
R208); under REPEAT each iteration fetches it again. DESIGN CHOICE (log 115, 261). -/
def State.seExec (s : State) (n : Nat) (i : Instr) (rep : Bool) (uses : Nat) (g : Nat → State → BitVec 13 → SeOut) : State :=
  let e := s.eng n
  if !s.runs (sePage n) then s
  else match e.level with
    | Option.none => s
    | some l =>
      let pc := s.sePc n l
      let t := s.eccMeet n 2 pc.toNat
      if s.badRow (seAddr n 2 pc.toNat) then (s.eccNote n 2 pc.toNat).seTrap n l 5 pc
      else match s.seInsn n pc with
      | Option.none => t.seTrap n l 1 pc
      | some j =>
        if j ≠ i then s
        else if e.rpt.isSome && !rep then t.seTrap n l 2 pc
        else t.seAfter n l (seStall e.hazI e.hazM uses) pc (g l t pc)

/-- A REPEAT or HALT on level `l` of engine `n` takes effect: it executes, with no trap.
DESIGN CHOICE (log 115). -/
def State.seActs (s : State) (n l : Nat) (i : Instr) : Bool :=
  s.runs (sePage n) && (s.eng n).rpt.isNone && !(s.eng n).stop && !s.badRow (seAddr n 2 (s.sePc n l).toNat) &&
    s.seInsn n (s.sePc n l) == some i

/-- The bank of level `l` of engine `n`. -/
def State.bank (s : State) (n l : Nat) : SeBank := (s.eng n).bank l

/-- The bank of level `l` of engine `n` replaced. -/
def State.setBank (s : State) (n l : Nat) (b : SeBank) : State := s.setEng n ((s.eng n).setBank l b)

/-! ### Format P (R192 to R196) -/

/-- An ALU operation: the bank with its result and flags, or none where the fields are illegal. -/
abbrev Alu := SeBank → Nat → Nat → Option SeBank

/-- An accumulator set to an exact result, with the flags (R185, R189). -/
def SeBank.result (b : SeBank) (d : Nat) (exact : Int) : SeBank :=
  { b.setW d (acc72 exact) with flg := flagsOf b.flg exact }

/-- The stores of a format P instruction, from the bank before it. -/
def State.moveStores (s : State) (n : Nat) (b : SeBank) (p : PFmt) : State :=
  let go (x : State) (y : Bool) (m : Move) : State :=
    match b.moveStore m with
    | some (v, _) => x.seStore n y (b.ir m.ix).toNat v
    | Option.none => x
  go (go s false p.xm) true p.ym

/-- A store of a format P instruction saturates. -/
def SeBank.storeSats (b : SeBank) (p : PFmt) : Bool :=
  ((b.moveStore p.xm).map Prod.snd).getD false || ((b.moveStore p.ym).map Prod.snd).getD false

/-- The word of memory that a move accesses, if it accesses one. -/
def SeBank.moveWord (b : SeBank) (m : Move) : Option Nat :=
  if moveLoads m || (b.moveStore m).isSome then some (b.ir m.ix).toNat else Option.none

/-- A move of a format P instruction accesses a row with an uncorrectable error. -/
def State.moveBad (s : State) (n : Nat) (b : SeBank) (y : Bool) (m : Move) : Bool :=
  match b.moveWord m with
  | some w => s.badRow (seAddr n (b2n y) w)
  | Option.none => false

/-- The single-bit errors that a move accesses are corrected and counted (R208). -/
def State.moveMeet (s : State) (n : Nat) (b : SeBank) (y : Bool) (m : Move) : State :=
  match b.moveWord m with
  | some w => s.eccMeet n (b2n y) w
  | Option.none => s

/-- The bank after a format P instruction: the ALU result, the X load, the Y load, the index modifications
(R196). -/
def seBankAfter (b b1 : SeBank) (p : PFmt) (x y : BitVec 32) : SeBank :=
  let b1 := if b.storeSats p then { b1 with flg := flagsSov b1.flg } else b1
  ((((b1.moveLoad p.xm x).moveLoad p.ym y).moveStep b p.xm).moveStep b p.ym)

/-- A format P instruction on level `l` of engine `n` (R196, R208). DEDUCED (log 118). -/
def pInstr (n : Nat) (alu : Alu) (p : PFmt) (l : Nat) (s : State) (pc : BitVec 13) : SeOut :=
  let b := s.bank n l
  match alu b p.d p.s with
  | Option.none => SeOut.stop s pc 1
  | some b1 =>
    let s := (s.moveMeet n b false p.xm).moveMeet n b true p.ym
    if s.moveBad n b false p.xm then SeOut.stop (s.eccNote n 0 (b.ir p.xm.ix).toNat) pc 5
    else if s.moveBad n b true p.ym then SeOut.stop (s.eccNote n 1 (b.ir p.ym.ix).toNat) pc 5
    else
      let x := s.seWord n false (b.ir p.xm.ix).toNat
      let y := s.seWord n true (b.ir p.ym.ix).toNat
      SeOut.step ((s.moveStores n b p).setBank n l (seBankAfter b b1 p x y)) pc

/-- A format P instruction executed on engine `n`. DESIGN CHOICE (log 115). -/
def State.seP (s : State) (n : Nat) (i : Instr) (alu : Alu) (p : PFmt) : State :=
  s.seExec n i true (pUses p) (pInstr n alu p)

/-- The ALU operations of R194. -/
def aluNop : Alu := fun b _ _ => some b
def aluAdd : Alu := fun b d x => some (b.result d ((b.wr d).toInt + b.src x))
def aluSub : Alu := fun b d x => some (b.result d ((b.wr d).toInt - b.src x))
def aluCmp : Alu := fun b d x => some { b with flg := flagsOf b.flg ((b.wr d).toInt - b.src x) }
def aluMov : Alu := fun b d x => some (b.result d (b.src x))
def aluAbs : Alu := fun b d _ => some (b.result d ((b.wr d).toInt.natAbs : Int))
def aluNeg : Alu := fun b d _ => some (b.result d (-(b.wr d).toInt))
def aluClr : Alu := fun b d _ => some (b.result d 0)
def aluMul : Alu := fun b d x => some (b.result d (b.pair x))
def aluMac : Alu := fun b d x => some (b.result d ((b.wr d).toInt + b.pair x))
def aluMsb : Alu := fun b d x => some (b.result d ((b.wr d).toInt - b.pair x))
def aluMulr : Alu := fun b d x => some (b.result d (roundAcc b.md (b.pair x)))
def aluMacr : Alu := fun b d x => some (b.result d (roundAcc b.md ((b.wr d).toInt + b.pair x)))
def aluMsbr : Alu := fun b d x => some (b.result d (roundAcc b.md ((b.wr d).toInt - b.pair x)))
def aluRnd : Alu := fun b d _ => some (b.result d (roundAcc b.md (b.wr d).toInt))
def aluSat : Alu := fun b d _ => some (b.result d (satSigned 64 (b.wr d).toInt))
def aluShl : Alu := fun b d _ => some (b.result d ((b.wr d).toInt * 2))
def aluShr : Alu := fun b d _ => some (b.result d ((b.wr d).toInt / 2))
def aluExp : Alu := fun b _ x => some { b with shc := expOf (b.wr (x % 4)) }
def aluNorm : Alu := fun b d _ => some (b.result d (shiftExact (b.wr d).toInt b.shc.toInt))
def aluMax : Alu := fun b d x => some (b.result d (if (b.wr d).toInt < b.src x then b.src x else (b.wr d).toInt))
def aluMin : Alu := fun b d x => some (b.result d (if b.src x < (b.wr d).toInt then b.src x else (b.wr d).toInt))

/-- AND, OR and XOR: the upper part with Dn; source codes 4 to 7 are illegal (R194). -/
def aluLogic (f : BitVec 32 → BitVec 32 → BitVec 32) : Alu := fun b d x =>
  if x < 4 then
    let a := b.wr d
    some (b.result d (accOf (accE a) (f (accU a) (b.dr x)) (accL a)).toInt)
  else Option.none

/-- SE_NOP (R194). -/
def execSeNop (n : Fin 4) (p : PFmt) (s : State) : Host.Outcome State Fault Refusal := .next (live s (s.seP n (.seNop n p) aluNop p))
/-- SE_ADD (R194). -/
def execSeAdd (n : Fin 4) (p : PFmt) (s : State) : Host.Outcome State Fault Refusal := .next (live s (s.seP n (.seAdd n p) aluAdd p))
/-- SE_SUB (R194). -/
def execSeSub (n : Fin 4) (p : PFmt) (s : State) : Host.Outcome State Fault Refusal := .next (live s (s.seP n (.seSub n p) aluSub p))
/-- SE_CMP (R194). -/
def execSeCmp (n : Fin 4) (p : PFmt) (s : State) : Host.Outcome State Fault Refusal := .next (live s (s.seP n (.seCmp n p) aluCmp p))
/-- SE_MOV (R194). -/
def execSeMov (n : Fin 4) (p : PFmt) (s : State) : Host.Outcome State Fault Refusal := .next (live s (s.seP n (.seMov n p) aluMov p))
/-- SE_ABS (R194). -/
def execSeAbs (n : Fin 4) (p : PFmt) (s : State) : Host.Outcome State Fault Refusal := .next (live s (s.seP n (.seAbs n p) aluAbs p))
/-- SE_NEG (R194). -/
def execSeNeg (n : Fin 4) (p : PFmt) (s : State) : Host.Outcome State Fault Refusal := .next (live s (s.seP n (.seNeg n p) aluNeg p))
/-- SE_CLR (R194). -/
def execSeClr (n : Fin 4) (p : PFmt) (s : State) : Host.Outcome State Fault Refusal := .next (live s (s.seP n (.seClr n p) aluClr p))
/-- SE_MUL (R194). -/
def execSeMul (n : Fin 4) (p : PFmt) (s : State) : Host.Outcome State Fault Refusal := .next (live s (s.seP n (.seMul n p) aluMul p))
/-- SE_MAC (R194). -/
def execSeMac (n : Fin 4) (p : PFmt) (s : State) : Host.Outcome State Fault Refusal := .next (live s (s.seP n (.seMac n p) aluMac p))
/-- SE_MSB (R194). -/
def execSeMsb (n : Fin 4) (p : PFmt) (s : State) : Host.Outcome State Fault Refusal := .next (live s (s.seP n (.seMsb n p) aluMsb p))
/-- SE_MULR (R194). -/
def execSeMulr (n : Fin 4) (p : PFmt) (s : State) : Host.Outcome State Fault Refusal := .next (live s (s.seP n (.seMulr n p) aluMulr p))
/-- SE_MACR (R194). -/
def execSeMacr (n : Fin 4) (p : PFmt) (s : State) : Host.Outcome State Fault Refusal := .next (live s (s.seP n (.seMacr n p) aluMacr p))
/-- SE_MSBR (R194). -/
def execSeMsbr (n : Fin 4) (p : PFmt) (s : State) : Host.Outcome State Fault Refusal := .next (live s (s.seP n (.seMsbr n p) aluMsbr p))
/-- SE_RND (R194). -/
def execSeRnd (n : Fin 4) (p : PFmt) (s : State) : Host.Outcome State Fault Refusal := .next (live s (s.seP n (.seRnd n p) aluRnd p))
/-- SE_SAT (R194). -/
def execSeSat (n : Fin 4) (p : PFmt) (s : State) : Host.Outcome State Fault Refusal := .next (live s (s.seP n (.seSat n p) aluSat p))
/-- SE_SHL (R194). -/
def execSeShl (n : Fin 4) (p : PFmt) (s : State) : Host.Outcome State Fault Refusal := .next (live s (s.seP n (.seShl n p) aluShl p))
/-- SE_SHR (R194). -/
def execSeShr (n : Fin 4) (p : PFmt) (s : State) : Host.Outcome State Fault Refusal := .next (live s (s.seP n (.seShr n p) aluShr p))
/-- SE_EXP (R195). -/
def execSeExp (n : Fin 4) (p : PFmt) (s : State) : Host.Outcome State Fault Refusal := .next (live s (s.seP n (.seExp n p) aluExp p))
/-- SE_NORM (R195). -/
def execSeNorm (n : Fin 4) (p : PFmt) (s : State) : Host.Outcome State Fault Refusal := .next (live s (s.seP n (.seNorm n p) aluNorm p))
/-- SE_AND (R194). -/
def execSeAnd (n : Fin 4) (p : PFmt) (s : State) : Host.Outcome State Fault Refusal :=
  .next (live s (s.seP n (.seAnd n p) (aluLogic (· &&& ·)) p))
/-- SE_OR (R194). -/
def execSeOr (n : Fin 4) (p : PFmt) (s : State) : Host.Outcome State Fault Refusal :=
  .next (live s (s.seP n (.seOr n p) (aluLogic (· ||| ·)) p))
/-- SE_XOR (R194). -/
def execSeXor (n : Fin 4) (p : PFmt) (s : State) : Host.Outcome State Fault Refusal :=
  .next (live s (s.seP n (.seXor n p) (aluLogic (· ^^^ ·)) p))
/-- SE_MAX (R194). -/
def execSeMax (n : Fin 4) (p : PFmt) (s : State) : Host.Outcome State Fault Refusal := .next (live s (s.seP n (.seMax n p) aluMax p))
/-- SE_MIN (R194). -/
def execSeMin (n : Fin 4) (p : PFmt) (s : State) : Host.Outcome State Fault Refusal := .next (live s (s.seP n (.seMin n p) aluMin p))

/-! ### Format C (R197 to R200) -/

/-- Register `r` of the bank written, with its stalls; a reserved number is illegal. -/
def cWrite (n l : Nat) (s : State) (pc : BitVec 13) (r : Nat) (v : BitVec 32) (m : Bool) : SeOut :=
  match (s.bank n l).write r v with
  | Option.none => SeOut.stop s pc 1
  | some b => { SeOut.step (s.setBank n l b) pc with hazI := hazardI r, hazM := m && hazardM r }

/-- LDI (R197). -/
def ldiInstr (n reg : Nat) (hi : Bool) (imm : BitVec 16) (l : Nat) (s : State) (pc : BitVec 13) : SeOut :=
  match (s.bank n l).read reg with
  | Option.none => SeOut.stop s pc 1
  | some v => cWrite n l s pc reg (if hi then imm ++ v.truncate 16 else imm.signExtend 32) true

/-- SE_LDI (R197). -/
def execSeLdi (n : Fin 4) (reg : Fin 64) (hi : Bool) (imm : BitVec 16) (s : State) : Host.Outcome State Fault Refusal :=
  .next (live s (s.seExec n (.seLdi n reg hi imm) true 0 (ldiInstr n reg hi imm)))

/-- MOVR (R197). -/
def movrInstr (n dst src : Nat) (l : Nat) (s : State) (pc : BitVec 13) : SeOut :=
  match (s.bank n l).read src with
  | Option.none => SeOut.stop s pc 1
  | some v => cWrite n l s pc dst v true

/-- SE_MOVR (R197). -/
def execSeMovr (n : Fin 4) (dst src : Fin 64) (s : State) : Host.Outcome State Fault Refusal :=
  .next (live s (s.seExec n (.seMovr n dst src) true 0 (movrInstr n dst src)))

/-- A format C load of word `w` (R197, R208). -/
def loadWord (n : Nat) (y : Bool) (reg w l : Nat) (s : State) (pc : BitVec 13) : SeOut :=
  if ((s.bank n l).read reg).isNone then SeOut.stop s pc 1
  else if s.badRow (seAddr n (b2n y) w) then SeOut.stop (s.eccNote n (b2n y) (w % 16384)) pc 5
  else cWrite n l (s.eccMeet n (b2n y) w) pc reg (s.seWord n y w) false

/-- A format C store to word `w` (R197, R208). -/
def storeReg (n : Nat) (y : Bool) (reg w l : Nat) (s : State) (pc : BitVec 13) : SeOut :=
  match (s.bank n l).read reg with
  | Option.none => SeOut.stop s pc 1
  | some v =>
    if s.badRow (seAddr n (b2n y) w) then SeOut.stop (s.eccNote n (b2n y) (w % 16384)) pc 5
    else SeOut.step ((s.eccMeet n (b2n y) w).seStore n y w v) pc

/-- SE_LDA (R197). -/
def execSeLda (n : Fin 4) (y : Bool) (reg : Fin 64) (addr : Fin 16384) (s : State) : Host.Outcome State Fault Refusal :=
  .next (live s (s.seExec n (.seLda n y reg addr) true 0 (loadWord n y reg addr)))

/-- SE_STA (R197). -/
def execSeSta (n : Fin 4) (y : Bool) (reg : Fin 64) (addr : Fin 16384) (s : State) : Host.Outcome State Fault Refusal :=
  .next (live s (s.seExec n (.seSta n y reg addr) true 0 (storeReg n y reg addr)))

/-- The word that LDO and STO address: Ik plus the offset, modulo 16,384 (R190). -/
def offsetWord (b : SeBank) (k : Nat) (ofs : BitVec 12) : Nat := (((b.ir k).toNat : Int) + ofs.toInt).emod 16384 |>.toNat

/-- SE_LDO (R197). -/
def execSeLdo (n : Fin 4) (y : Bool) (reg : Fin 64) (k : Fin 8) (ofs : BitVec 12) (s : State) :
    Host.Outcome State Fault Refusal :=
  .next (live s (s.seExec n (.seLdo n y reg k ofs) true (2 ^ k.val) (fun l x pc => loadWord n y reg (offsetWord (x.bank n l) k ofs) l x pc)))

/-- SE_STO (R197). -/
def execSeSto (n : Fin 4) (y : Bool) (reg : Fin 64) (k : Fin 8) (ofs : BitVec 12) (s : State) :
    Host.Outcome State Fault Refusal :=
  .next (live s (s.seExec n (.seSto n y reg k ofs) true (2 ^ k.val) (fun l x pc => storeReg n y reg (offsetWord (x.bank n l) k ofs) l x pc)))

/-- JMPcc (R197, R198, R200). -/
def jmpInstr (n cc target : Nat) (l : Nat) (s : State) (pc : BitVec 13) : SeOut :=
  match condOf (s.bank n l).flg cc with
  | Option.none => SeOut.stop s pc 1
  | some c => if c then ⟨s, BitVec.ofNat 13 target, 2, 0, false, Option.none⟩ else SeOut.step s pc

/-- SE_JMPCC (R197). -/
def execSeJmpcc (n : Fin 4) (cc : Fin 16) (target : Fin 8192) (s : State) : Host.Outcome State Fault Refusal :=
  .next (live s (s.seExec n (.seJmpcc n cc target) false 0 (jmpInstr n cc target)))

/-- CALL (R197, R207). -/
def callInstr (n target : Nat) (l : Nat) (s : State) (pc : BitVec 13) : SeOut :=
  let b := s.bank n l
  if 8 ≤ b.stack.length then SeOut.stop s pc 3
  else ⟨s.setBank n l { b with stack := (pc + 1) :: b.stack }, BitVec.ofNat 13 target, 2, 0, false, Option.none⟩

/-- SE_CALL (R197). -/
def execSeCall (n : Fin 4) (target : Fin 8192) (s : State) : Host.Outcome State Fault Refusal :=
  .next (live s (s.seExec n (.seCall n target) false 0 (callInstr n target)))

/-- RET (R197, R207). -/
def retInstr (n : Nat) (l : Nat) (s : State) (pc : BitVec 13) : SeOut :=
  let b := s.bank n l
  match b.stack with
  | [] => SeOut.stop s pc 4
  | a :: t => ⟨s.setBank n l { b with stack := t }, a, 2, 0, false, Option.none⟩

/-- SE_RET (R197). -/
def execSeRet (n : Fin 4) (s : State) : Host.Outcome State Fault Refusal :=
  .next (live s (s.seExec n (.seRet n) false 0 (retInstr n)))

/-- REPEAT: the next instruction is executed `k` times, or skipped (R199). DEDUCED (log 117). -/
def State.seRepeat (s : State) (n l : Nat) (k : Nat) : State :=
  let e := s.eng n
  if k = 0 then s.setEng n (e.setProg l ((e.prog l).map (fun p => { p with pc := p.pc + 1 })))
  else s.setEng n { e with rpt := some (min k 4096) }

/-- The number of iterations a REPEAT asks for, none where its register is reserved. -/
def repeatCount (b : SeBank) (src : Bool) (cnt reg : Nat) : Option Nat :=
  if src then (b.read reg).map BitVec.toNat else some (cnt + 1)

/-- SE_REPEAT (R199). -/
def execSeRepeat (n : Fin 4) (src : Bool) (cnt : Fin 4096) (reg : Fin 64) (s : State) :
    Host.Outcome State Fault Refusal :=
  .next (live s (match (s.eng n).level with
    | Option.none => s
    | some l =>
      match repeatCount (s.bank n l) src cnt reg with
      | Option.none => s.seExec n (.seRepeat n src cnt reg) false 0 (fun _ x pc => SeOut.stop x pc 1)
      | some k =>
        let t := s.seExec n (.seRepeat n src cnt reg) false 0 (fun _ x pc => SeOut.step x pc)
        if s.seActs n l (.seRepeat n src cnt reg) then t.seRepeat n l k else t))

/-- A value cut to a register's width. -/
def widthCut (r : Nat) (v : BitVec 32) : Nat := v.toNat % 2 ^ regWidth r

/-- DBNZ (R197, R200). -/
def dbnzInstr (n reg target : Nat) (l : Nat) (s : State) (pc : BitVec 13) : SeOut :=
  match (s.bank n l).read reg with
  | Option.none => SeOut.stop s pc 1
  | some v =>
    let r := v - 1
    let o := cWrite n l s pc reg r false
    if widthCut reg r = 0 then o else { o with pc := BitVec.ofNat 13 target, cycles := 2 }

/-- SE_DBNZ (R197). -/
def execSeDbnz (n : Fin 4) (reg : Fin 64) (target : Fin 8192) (s : State) : Host.Outcome State Fault Refusal :=
  .next (live s (s.seExec n (.seDbnz n reg target) false 0 (dbnzInstr n reg target)))

/-- SIG (R204). -/
def sigInstr (n code : Nat) (l : Nat) (s : State) (pc : BitVec 13) : SeOut := SeOut.step (s.sePost n l code) pc

/-- SE_SIG (R204). -/
def execSeSig (n : Fin 4) (code : BitVec 8) (s : State) : Host.Outcome State Fault Refusal :=
  .next (live s (s.seExec n (.seSig n code) false 0 (sigInstr n code.toNat)))

/-- ASH (R189, R197). -/
def ashInstr (n d : Nat) (sh : BitVec 7) (l : Nat) (s : State) (pc : BitVec 13) : SeOut :=
  let b := s.bank n l
  SeOut.step (s.setBank n l (b.result d (shiftExact (b.wr d).toInt sh.toInt))) pc

/-- SE_ASH (R197). -/
def execSeAsh (n : Fin 4) (d : Fin 4) (sh : BitVec 7) (s : State) : Host.Outcome State Fault Refusal :=
  .next (live s (s.seExec n (.seAsh n d sh) true 0 (ashInstr n d sh)))

/-- ADDI (R197). -/
def addiInstr (n reg : Nat) (imm : BitVec 16) (l : Nat) (s : State) (pc : BitVec 13) : SeOut :=
  match (s.bank n l).read reg with
  | Option.none => SeOut.stop s pc 1
  | some v => cWrite n l s pc reg (v + imm.signExtend 32) false

/-- SE_ADDI (R197). -/
def execSeAddi (n : Fin 4) (reg : Fin 64) (imm : BitVec 16) (s : State) : Host.Outcome State Fault Refusal :=
  .next (live s (s.seExec n (.seAddi n reg imm) true 0 (addiInstr n reg imm)))

/-- HALT ends the program of its level (R203, R209). DEDUCED (log 117). -/
def State.seHalt (s : State) (n l : Nat) : State :=
  let e := s.eng n
  let done := ((e.prog l).map SeProg.done).getD false
  let e := (e.setProg l Option.none).setBank l { e.bank l with stack := [] }
  let s := s.setEng n e
  let s := if l = 0 then
      (s.put (R.SE_CYC_CYC n) (satNat 32 e.cyc)).put (R.SE_MAXC_MAXC n) (max (s.get (R.SE_MAXC_MAXC n)) (satNat 32 e.cyc))
    else s
  let s := if done then s.sePost n l 0xFE else s
  if l = 0 then s.seChained n else s

/-- SE_HALT (R203). -/
def execSeHalt (n : Fin 4) (s : State) : Host.Outcome State Fault Refusal :=
  .next (live s (match (s.eng n).level with
    | Option.none => s
    | some l =>
      let t := s.seExec n (.seHalt n) false 0 (fun _ x pc => SeOut.step x pc)
      if s.seActs n l (.seHalt n) then t.seHalt n l else t))

/-! ### Eve, counters -/

/-- Eve at the engines: a TRG 01 program still running or pending; several of one engine count once. (R206).
DESIGN CHOICE (log 260). -/
def State.seEve (s : State) : State :=
  forUpTo 4 (fun n x =>
    let e := x.eng n
    let run := ((e.prog0.map SeProg.timed).getD false) || ((e.prog1.map SeProg.timed).getD false)
    let wait := (List.range 4).any (fun k => bitOf e.pend k && x.get (R.SE_ENT_TRG n k) == 1)
    if run || wait then (x.incSat (R.SE_SKIPC_EVE n)).raiseFlt (sePage n) Flt.SE_EVE else x) s

/-- SE.CLR.CCLR (R209). -/
def State.seClear (s : State) (n : Nat) : State :=
  s.zero [R.SE_CYC_CYC n, R.SE_MAXC_MAXC n, R.SE_SKIPC_EVE n, R.SE_SKIPC_BUSY n, R.SE_ECC_CEC n]

/-- SE_COUNTER_CLEAR (R209). -/
def execSeCounterClear (n : Fin 4) (s : State) : Host.Outcome State Fault Refusal :=
  .next (live s (s.cmd (sePage n) (s.seClear n)))

end Sys2Proof.Machine
end

