-- ==== Sys2Proof/Machine/RegRead.lean ====
section
/-! DEFINITION. What a register word reads as, without any effect of the read: the common header (R428),
the fields that show the state of a block, and the fields held as they stand. The access itself, with its
effects, is in Bus. -/

namespace Sys2Proof.Machine

/-- PID of a page (R428): the type is the page number of the block's first instance. -/
def pidOf (p : Nat) : Nat :=
  let first := if 0x10 ≤ p ∧ p ≤ 0x13 then 0x10 else if p = 0x1A then 0x19 else if 0x20 ≤ p ∧ p ≤ 0x33 then 0x20 else p
  first * 2 ^ 24 + (p - first) * 2 ^ 16 + 0x0100

/-- The bits of field `f` in a register whose value is `v`. -/
def Fld.of (f : Fld) (v : Nat) : Nat := bitsOf v f.lsb f.width

/-- The capture at the head of a MAC's departure FIFO. -/
def State.captureHead (s : State) (m : Nat) : Capture :=
  match (s.mac m).fifo with
  | [] => ⟨0, 0, 0, 0⟩
  | c :: _ => c

/-- ETH.TLHEAD (R291): seconds in the high word, nanoseconds in the low one. -/
def State.timedHeadWord (s : State) (m : Nat) : Nat :=
  match (s.mac m).timed with
  | [] => 0
  | t :: _ => t.sec % 2 ^ 32 * 2 ^ 32 + t.ns

/-- SE.RSTA (R209). -/
def SeState.rsta (e : SeState) : Nat :=
  e.pcNow.toNat * 2 ^ 16 + e.pend % 16 * 2 ^ 12 + b2n e.prog1.isSome * 2 ^ 11 + b2n e.prog0.isSome * 2 ^ 10 +
    b2n e.rpt.isSome * 2 ^ 9 + b2n e.iow * 2 ^ 8

/-- DSX.CSTc (R233). -/
def State.cstWord (s : State) (c : Nat) : Nat :=
  b2n (s.slotOf c).isSome * 2 ^ 30 +
    (match s.heldOf c with
     | Option.none => 0
     | some h => 2 ^ 31 + h.d.prio * 2 ^ 24 + h.d.dom * 2 ^ 8 + h.d.src)

/-- PMU.PSBSTA (R234). -/
def State.psbSta (s : State) (c : Nat) : Nat :=
  match (s.core c).psb with
  | [] => 0
  | e :: t => e.seq * 2 ^ 16 + (t.length + 1)

/-- EST of RSE.TDATA (R150). -/
def estCode (e : Int) : Nat := if e = 1 then 1 else if e = -1 then 2 else 0

/-- RSE.TDATA of entry TADDR.INDEX (R150). -/
def State.tdata (s : State) : Nat :=
  let i := s.get R.RSE_TADDR_INDEX
  let e := s.ent i
  let x := s.inst (armOf (i / 64))
  let trimp := cellId s.pair i == x.trimNow && x.dirs.headD 0 != 0
  e.lost * 2 ^ 16 + b2n e.left * 2 ^ 9 + b2n e.unreach * 2 ^ 7 + b2n e.held * 2 ^ 6 + b2n e.cand * 2 ^ 5 +
    b2n trimp * 2 ^ 4 + estCode e.est * 2 ^ 2 + b2n e.fb * 2 + b2n e.pres

/-- The remaining interval of timer `n` in 10 ns units (R233). DEDUCED (log 127). -/
def State.tmrCnt (s : State) (n : Nat) : Nat := (alGet s.dsx.timers n 0 + 9) / 10

/-- PWM.BYP.REQ and AUX in their places (R247, R266). -/
def State.bypWord (s : State) : Nat := b2n s.bypAux * 2 + b2n s.bypReq

/-- The value that the word at offset `o` shows of the state of its block, in the places of the fields that do so:
the fields read here are those of `shows`. -/
def State.shown (s : State) (p o : Nat) : Nat :=
  if p = 3 then
    if 0x50 ≤ o ∧ o < 0x60 then s.sevWord ((o - 0x50) / 4)
    else if o = 0x60 then s.fcuTime
    else if o = 0x6C then s.gsta
    else if 0x80 ≤ o ∧ o < 0x90 then s.logWord ((o - 0x80) / 4)
    else min 15 (s.fcuRcnt ((o - 0x500) / 4)) * 2 ^ 8
  else if p = 4 then
    if o = 0x48 then Config.free s.freeCtr % 2 ^ 32
    else if o = 0x60 then Config.gbMinSig % 256 * 256 + Config.gbMinCore % 256
    else s.rdata.1
  else if p = 5 then Config.serial.toNat
  else if p = 8 then
    if o = 0x50 then s.dsxFree
    else if o < 0xA0 then s.cstWord ((o - 0x80) / 4)
    else if o < 0x100 then (match s.slotOf ((o - 0xC0) / 8) with | Option.none => 0 | some d => d.word)
    else s.tmrCnt ((o - 0x104) / 8)
  else if p = 9 then
    if (o - 0x100) % 0x80 = 0x5C then s.psbSta ((o - 0x100) / 0x80)
    else s.psbWord ((o - 0x100) / 0x80) (((o - 0x100) % 0x80 - 0x64) / 4)
  else if p = 0xB then b2n s.redReady * 2 ^ 3
  else if p = 0xF then s.tdata
  else if 0x10 ≤ p ∧ p ≤ 0x13 then (s.eng (p - 0x10)).rsta
  else if p = 0x14 then (if o = 0x4C then s.goutShown else if o = 0x54 then s.bypWord else s.pwm.count)
  else if p = 0x16 then
    b2n (s.fioHeld ((o - 0x140) / 4)) * 2 ^ 7 +
      (if s.fioSwitch ((o - 0x140) / 4) then Config.free s.freeCtr % 2 * 2 ^ 6 else 0)
  else if p = 0x17 then b2n s.safFresh * 2 ^ 16
  else if p = 0x34 then s.splitInUse
  else if 0x20 ≤ p then (if s.on (R.AZL_LSTAT_CDRLK (p - 0x20)) then s.get (R.AZL_PPM_PPM (p - 0x20)) else 0)
  else if o = 0x120 then s.timedHeadWord (p - 0x19)
  else
    let c := s.captureHead (p - 0x19)
    if o = 0x108 then c.tag * 2 ^ 48 + c.sec else if o = 0x110 then c.ns else (s.captureRead (p - 0x19)).1

/-- The fields that show the state of a block rather than hold a value of their own. -/
def shows (p o lsb : Nat) : Bool :=
  if p = 3 then
    decide ((0x50 ≤ o ∧ o < 0x60) ∨ o = 0x60 ∨ o = 0x6C ∨ (0x80 ≤ o ∧ o < 0x90)) ||
      (decide (0x500 ≤ o) && lsb == 8)
  else if p = 4 then decide (o = 0x48 ∨ o = 0x60 ∨ o = 0x70)
  else if p = 5 then decide (o = 0x1C8)
  else if p = 8 then
    (decide (o = 0x50) && lsb == 0) || decide ((0x80 ≤ o ∧ o < 0x100) ∨ (0x100 ≤ o ∧ o < 0x180 ∧ o % 8 = 4))
  else if p = 9 then
    decide (0x100 ≤ o ∧ ((o - 0x100) % 0x80 = 0x5C ∨ (0x64 ≤ (o - 0x100) % 0x80 ∧ (o - 0x100) % 0x80 < 0x74)))
  else if p = 0xB then decide (o = 0x44) && lsb == 3
  else if p = 0xF then decide (o = 0x44)
  else if 0x10 ≤ p ∧ p ≤ 0x13 then decide (o = 0x54)
  else if p = 0x14 then
    (decide (o = 0x4C) && lsb == 0) || (decide (o = 0x54) && decide (lsb ≤ 1)) || decide (o = 0x78)
  else if p = 0x16 then decide (0x140 ≤ o ∧ o < 0x180) && decide (lsb = 6 ∨ lsb = 7)
  else if p = 0x17 then decide (o = 0x5C) && lsb == 16
  else if 0x20 ≤ p ∧ p ≤ 0x33 then decide (o = 0x70)
  else if p = 0x34 then decide (o = 0x60) && lsb == 0
  else if p = 0x19 ∨ p = 0x1A then decide (o = 0x108 ∨ o = 0x110 ∨ o = 0x114 ∨ o = 0x120)
  else false

/-- The words that carry an open value: the path-delay margins, an Almanac word outside the region, and a channel's
current limit. A read takes a fresh one. DEDUCED (log 174). -/
def openWord (p o : Nat) : Bool :=
  decide ((p = 4 ∧ (o = 0x48 ∨ o = 0x70)) ∨ (p = 0x16 ∧ 0x140 ≤ o ∧ o < 0x180))

/-- What field `f` of page `p` reads as; CMT.LATE reads 0 without a Strike (R433). -/
def State.fieldValue (s : State) (p : Nat) (f : Fld) : Nat :=
  let o := f.word % 0x1000
  if f.acc = .w1a then 0
  else if shows p o f.lsb then f.of (s.shown p o)
  else if o = 0xC ∧ f.lsb = 2 ∧ !s.lock then 0
  else if o = 0x10 ∨ o = 0x14 then Nat.land (s.get f) (fltMask p)
  else s.get f

/-- Words that read 0 and ignore writes in the latched role: counters and monitors of the gated cores (R16), the
channels, trigger sources and measurement that a Cell does not have (R294), instance 1 in one-arm mode (R150), and
the sources that R217 and R332
do not define. -/
def State.voidWord (s : State) (p o : Nat) : Bool :=
  if p = 9 then s.isK && decide (0x200 ≤ o)
  else if p = 0xF then !Config.twoArm && decide (0x180 ≤ o)
  else if p = 0xC then
    s.isK && decide (o = 0x7C ∨ (0x180 ≤ o ∧ o < 0x300) ∨ (0x400 ≤ o ∧ o < 0x700))
  else if p = 8 then
    (decide (0x400 ≤ o) && !dsxDefined ((o - 0x400) / 4)) ||
      (s.isK && decide ((0x88 ≤ o ∧ o < 0xA0) ∨ (0xD0 ≤ o ∧ o < 0x100)))
  else if p = 3 then
    decide (0x500 ≤ o ∧ o < 0x700) && !fcuIsDefined ((o - 0x500) / 4)
  else false

/-- The value of the whole register whose fields are `l`. -/
def State.fieldsValue (s : State) (p : Nat) (l : List Fld) : Nat :=
  l.foldl (fun a f => a + s.fieldValue p f * 2 ^ f.lsb) 0

/-- The page of a Cell's redundancy unit reads its reset values (R318). -/
def State.frozenPage (s : State) (p : Nat) : Bool := p == 0xB && s.isK

/-- The reset value of field `f` in the latched role: PWM.SCFG.MODE is 0 in a Cell (R266), TBS.CFG.SRC is 01 and AUTOACC 1 in
Sections and Cells (R290). -/
def State.resetOf (s : State) (f : Fld) : Nat :=
  if f.key = R.PWM_SCFG_MODE.key ∧ s.isK then 0
  else if (f.key = R.TBS_CFG_SRC.key ∨ f.key = R.TBS_CFG_AUTOACC.key) ∧ (s.isS || s.isK) then 1
  else f.reset

/-- The reset value of the whole register whose fields are `l`. -/
def State.resetValue (s : State) (l : List Fld) : Nat :=
  l.foldl (fun a f => a + (if f.acc = .w1a then 0 else s.resetOf f) * 2 ^ f.lsb) 0

/-- The register at offset `o` of page `p`, up to 64 bits: reset values during a soft reset (R431) and on the
redundancy page of a Cell. -/
def State.register (s : State) (p o : Nat) : Nat :=
  if o = 0 then pidOf p
  else if s.voidWord p o then 0
  else if s.on (R.SRB p) then (if o = 8 then 2 else s.resetValue (wordFields p o))
  else if s.frozenPage p then s.resetValue (wordFields p o)
  else s.fieldsValue p (wordFields p o)

/-- Offset `o` of page `p` is the high word of a 64-bit register. -/
def isWideHigh (p o : Nat) : Bool := decide (4 ≤ o) && isWideLow p (o - 4)

/-- What the word at offset `o` of page `p` reads as, without an effect: a high word reads as the shadow (R10).
DEDUCED (log 174, 205, 255). -/
def State.peek (s : State) (p o : Nat) : Nat :=
  if isWideHigh p o then alGet s.shadow (0x1000 * p + o) 0
  else s.register p o % 2 ^ 32

end Sys2Proof.Machine
end

