-- ==== Sys2Proof/Machine/Acq.lean ====
section
/-! DEFINITION. Triggered acquisition (chapter "Triggered acquisition and disturbance records"): sampling into
the history ring, the 64 trigger sources, the masks, the records and their measurement. -/

namespace Sys2Proof.Machine

/-! ### Configuration (R294 to R297) -/

/-- The number of a Cell's channels and trigger sources, or of the others'. -/
def State.acqNum (s : State) : Nat := if s.isK then 16 else 64

/-- Channel `n` is enabled. -/
def State.chanOn (s : State) (n : Nat) : Bool := decide (n < s.acqNum) && s.on (R.ACQ_CHSRC_EN n)

/-- The enabled channels, ascending. -/
def State.acqChans (s : State) : List Nat := (List.range 64).filter s.chanOn

/-- PRE, POST and the cap of POSTACT as they act (R316). -/
def State.acqPre (s : State) : Nat := min 16384 (s.get R.ACQ_WIN_PRE)
def State.acqPost (s : State) : Nat := max 1 (s.get R.ACQ_WIN_POST)
def State.acqMax (s : State) : Nat := max s.acqPost (s.get R.ACQ_MAXP_MAXPOST)

/-- The history ring and the record ring: base addresses and the record ring's size in bytes. -/
def State.histBase (s : State) : Nat := s.get R.ACQ_HBASE_BASE * 4096
def State.ringBase (s : State) : Nat := s.get R.ACQ_RBASE_BASE * 4096
def State.ringSize (s : State) : Nat := s.get R.ACQ_RSIZE_SIZE * 4096

/-- The measurement of a record is enabled: never in a Cell (R294). -/
def State.acqMeas (s : State) : Bool := !s.isK && s.on R.ACQ_MEAS_EN

/-- MWIN. DEDUCED (log 173). -/
def State.mwin (s : State) : Nat := s.get R.ACQ_MEAS_MWM1 + 1

/-- A region lies within the memory that the role permits (R294). -/
def State.acqRegion (s : State) (base size : Nat) : Bool :=
  if s.isK then decide (0x20180000 ≤ base ∧ base + size ≤ 0x20200000)
  else decide (0x800000000 ≤ base ∧ base + size ≤ 0xA00000000)

/-- The configuration is valid (R295). -/
def State.acqOk (s : State) : Bool :=
  let hs := s.get R.ACQ_HSIZE_SIZE * 4096
  decide (s.acqPre + 1 ≤ s.get R.ACQ_HDEP_HDEP ∧ s.get R.ACQ_HDEP_HDEP * s.acqChans.length * 4 ≤ hs) &&
    s.acqRegion s.histBase hs && s.acqRegion s.ringBase s.ringSize &&
    decide (s.histBase + hs ≤ s.ringBase ∨ s.ringBase + s.ringSize ≤ s.histBase) &&
    (!s.acqMeas || decide (s.get R.ACQ_MADR_XADDR + s.mwin ≤ 16384 ∧ s.get R.ACQ_MADR_YADDR + 16 ≤ 16384))

/-- CTL.EN of the ACQ page is set (R295): the configuration is checked. -/
def State.acqEnable (s : State) : State :=
  let s := s.setAcq (fun a => { AcqState.init with missed := a.missed })
  if s.acqOk then ((s.put R.ACQ_STA_CFGERR 0).put R.ACQ_STA_STATE 1).put R.ACQ_STA_SCAUSE 0
  else (s.put R.ACQ_STA_CFGERR 1).put R.ACQ_STA_STATE 0

/-- CTL.EN of the ACQ page is cleared (R296): a record in the making is dropped. -/
def State.acqDisable (s : State) : State :=
  (s.setAcq (fun a => { AcqState.init with missed := a.missed })).put R.ACQ_STA_STATE 0

/-- Entry to STOPPED with its cause. -/
def State.acqStopped (s : State) (cause : Nat) : State :=
  (s.put R.ACQ_STA_STATE 1).put R.ACQ_STA_SCAUSE cause

/-! ### Sources (R293) -/

/-- The value of channel `n`'s source word: a block that is gated reads 0, and an undefined page has no stated value. -/
def State.chanSource (s : State) (n : Nat) : Nat × State :=
  let sel := s.get (R.ACQ_CHSRC_SEL n)
  let from_ := fun (p v : Nat) => (if s.gated p then 0 else v, s)
  match s.get (R.ACQ_CHSRC_TYPE n) with
  | 0 => from_ 0x15 (if sel % 2 = 0 then s.get R.ADC_STRK_CODE0 else s.get R.ADC_STRK_CODE1)
  | 1 => from_ 0x15 (s.get (R.ADC_RES_CODE (sel / 16 % 2) (sel % 16)))
  | 2 => from_ 0x0E (s.get (R.CLE_OUT_U (sel % 256)))
  | 3 => from_ 0x0E (s.get (R.CLE_MEAS_VAL (sel % 128)))
  | 4 => from_ 0x16 (s.get R.FIO_IN_LVL)
  | 5 => from_ 0x0D (ofSigned 32 (nth s.cle.pgnOut (sel % 16) 0))
  | 6 =>
    let p := sel / 1024
    if pageDefined p then (if s.gated p then 0 else s.peek p (sel % 1024 * 4), s) else s.fresh 32
  | _ => (0, s)

/-- Channel `n` is tested by an enabled trigger source or mask. DEDUCED (log 173). -/
def State.chanTested (s : State) (n : Nat) : Bool :=
  (List.range s.acqNum).any (fun k => s.on (R.ACQ_TCFG_EN k) && s.get (R.ACQ_TCFG_CH k) == n) ||
    (List.range 4).any (fun k => s.on (R.ACQ_MCFG_EN k) && s.get (R.ACQ_MCFG_CH k) == n)

/-- One channel of the sample: a channel that is tested but not enabled has no stated value.
DEDUCED (log 173). -/
def State.chanRead (s : State) (n : Nat) : Nat × State :=
  if s.chanOn n then s.chanSource n else if s.chanTested n then s.fresh 32 else (0, s)

/-- The values of all 64 channels. -/
def State.chanValues (s : State) : Nat → List Nat × State
  | 0 => ([], s)
  | n + 1 =>
    let (l, t) := s.chanValues n
    let (v, u) := t.chanRead n
    (l ++ [v], u)

/-- A 32-bit value of channel `n` as an integer under SGN. -/
def State.chanInt (s : State) (n v : Nat) : Int :=
  if s.on (R.ACQ_CHSRC_SGN n) then toSigned 32 v else ((v % 2 ^ 32 : Nat) : Int)

/-! ### The record ring (R305, R307, R312) -/

/-- Bytes of the trigger table with its padding. -/
def trigBytes (n : Nat) : Nat := (4 * n + 15) / 16 * 16

/-- Bytes of the record so far: header, channel table, trigger table and `k` entries. -/
def State.recordBytes (s : State) (r : AcqRec) (k : Nat) : Nat :=
  96 + 8 * s.acqChans.length + trigBytes r.trig.length + 8 * k

/-- Bytes of the ring not held by records that the firmware has not released. -/
def State.ringFree (s : State) : Nat :=
  let n := max 1 s.ringSize
  s.ringSize - (s.get R.ACQ_WRPTR_PTR * 16 + n - s.get R.ACQ_RDPTR_PTR * 16 % n) % n

/-- The ring keeps 128 bytes free after a record of `k` entries so far. -/
def State.ringRoom (s : State) (r : AcqRec) (k : Nat) : Bool := decide (s.recordBytes r k + 128 ≤ s.ringFree)

/-- Bytes written from the ring offset `o` on, modulo the ring size. -/
def State.ringWrite (s : State) (o : Nat) (l : List Byte) : State :=
  let n := s.ringSize - o
  (s.storeMem (s.ringBase + o) (l.take n)).storeMem s.ringBase (l.drop n)

/-! ### The encoder (R295, R298, R305, R310) -/

/-- An entry (R310). -/
def acqEntry (idx : Int) (ch kind value : Nat) : Nat :=
  ofSigned 16 idx * 2 ^ 48 + ch * 2 ^ 40 + kind * 2 ^ 32 + value % 2 ^ 32

/-- Channel `n`'s word of sample number `k` in the history ring. -/
def State.histAddr (s : State) (k j : Nat) : Nat :=
  s.histBase + (k % max 1 (s.get R.ACQ_HDEP_HDEP) * s.acqChans.length + j) * 4

/-- A change-only channel stores `x` after `v` (R298). -/
def State.changed (s : State) (n v x : Nat) : Bool :=
  let db := s.get (R.ACQ_CHMOD_DB n)
  if db = 0 then x != v else decide (db < (s.chanInt n x - s.chanInt n v).natAbs)

/-- The entries of the enabled channels of one sample: those stored, and the last stored values. -/
def State.encodeChans (s : State) (r : AcqRec) (idx : Int) (k : Nat) :
    List (Nat × Nat) → List Nat × List (Nat × Nat)
  | [] => ([], r.last)
  | (n, j) :: t =>
    let (es, last) := s.encodeChans r idx k t
    let x := s.mem32 (s.histAddr k j)
    if s.on (R.ACQ_CHMOD_CO n) then
      if idx = -(r.pre : Int) ∨ idx = 0 ∨ s.changed n (alGet r.last n 0) x then
        (acqEntry idx n 1 x :: es, alPut last n x)
      else (es, last)
    else (acqEntry idx n 0 x :: es, last)

/-- An overflow while a record is in the making (R305): `cause` 1 history, 2 ring. The record ends at `idx`.
DEDUCED (log 172). -/
def State.acqOverflow (s : State) (idx : Int) (cause : Nat) : State :=
  let s := s.setRec (fun r =>
    { r with
      flags := Nat.lor r.flags 1, stop := idx.toNat, marks := []
      entries := acqEntry idx 0xFF 0x80 cause :: r.entries })
  let s := s.setAcq (fun a =>
    { a with
      stop := some 1, phase := .encode, deadWait := true, deadFrom := Option.none, marked := false })
  ((s.put R.ACQ_STA_STATE 4).incSat R.ACQ_CNT_OVFC).fcuEvent 0x0E |>.raiseFlt 0x0C Flt.ACQ_OVF

/-- The encoder has given up on this record. -/
def AcqRec.over (r : AcqRec) : Bool := bitOf r.flags 0

/-- The marks `l` of a record are written: their entries, and GAP, TPC and MASKV of FLAGS (R308). -/
def AcqRec.writeMarks (r : AcqRec) (l : List (Int × Nat × Nat)) : AcqRec :=
  { r with
    entries := (l.map (fun m => acqEntry m.1 0xFF m.2.1 m.2.2)).reverse ++ r.entries
    flags := l.foldl (fun f m => Nat.lor f (match m.2.1 with
      | 0x81 => 2
      | 0x82 => 4
      | 0x83 => 0x20
      | _ => 0)) r.flags }

/-- The encoder reads one sample from the history and writes its entries. -/
def State.encodeOne (s : State) (r : AcqRec) : State :=
  let idx : Int := (r.next : Int) - (r.t0 : Int)
  let ch := s.acqChans
  let (es, last) := s.encodeChans r idx r.next (ch.zip (List.range ch.length))
  let ms := r.marks.filter (fun m => m.1 == idx)
  let j := (ch.findIdx? (· == s.get R.ACQ_MEAS_CH)).getD 0
  let win := if 0 ≤ idx ∧ r.win.length < s.mwin then r.win ++ [s.mem32 (s.histAddr r.next j)] else r.win
  let t := ({ r with entries := es.reverse ++ r.entries } : AcqRec).writeMarks ms
  if s.ringRoom r t.entries.length then
    s.setRec (fun _ => { t with next := r.next + 1, last := last, win := win })
  else s.acqOverflow idx 2

/-- The encoder reads samples below `lim` while it has time: at most `n`, each at `cost` ns. -/
def State.encodeRun (s : State) (lim cost : Nat) : Nat → State
  | 0 => s
  | n + 1 =>
    match s.acq.record with
    | Option.none => s
    | some r =>
      if r.over || decide (lim ≤ r.next ∨ r.t0 + r.stop ≤ r.next ∨ s.acq.credit < cost) then s
      else ((s.encodeOne r).setAcq (fun a => { a with credit := a.credit - cost })).encodeRun lim cost n

/-- Time for one sample of the encoder, in ns (R294). DEDUCED (log 170). -/
def State.encodeCost (s : State) : Nat := (if s.isK then 50 else 20) * s.acqChans.length

/-- The encoder works up to this instant; without work it gathers no time. DEDUCED (log 170). -/
def State.encodeNow (s : State) (dt : Nat) : State :=
  let s := s.setAcq (fun a => { a with credit := a.credit + dt })
  let s := s.encodeRun s.acq.count s.encodeCost (s.get R.ACQ_HDEP_HDEP + 1)
  match s.acq.record with
  | Option.none => s.setAcq (fun a => { a with credit := 0 })
  | some r => if s.acq.count ≤ r.next then s.setAcq (fun a => { a with credit := 0 }) else s

/-- The encoder finishes what is left of the record. DEDUCED (log 172). -/
def State.encodeRest (s : State) : State :=
  match s.acq.record with
  | Option.none => s
  | some r =>
    let s := s.encodeRun (r.t0 + r.stop) 0 (r.t0 + r.stop - r.next)
    s.setRec (fun r =>
      { r.writeMarks (r.marks.filter (fun m => decide ((r.stop : Int) ≤ m.1))) with
        marks := r.marks.filter (fun m => decide (m.1 < (r.stop : Int))) })

/-- Before a sample is written: an unread sample that it would overwrite is an overflow in POST, and is read at once
in CLOSE, where no overflow occurs. -/
def State.histGuard (s : State) : State :=
  match s.acq.record with
  | Option.none => s
  | some r =>
    if r.over || decide (r.t0 + r.stop ≤ r.next ∨ s.acq.count < r.next + s.get R.ACQ_HDEP_HDEP) then s
    else if s.acqSt = 3 then s.acqOverflow ((r.next : Int) - (r.t0 : Int)) 1
    else s.encodeRest

/-- The sample written whole into the history ring. -/
def State.histWrite (s : State) (vals : List Nat) : State :=
  let l := s.acqChans.flatMap (fun n => bytesLE 4 (nth vals n 0))
  (s.storeMem (s.histAddr s.acq.count 0) l).setAcq (fun a => { a with count := a.count + 1 })

/-! ### Masks (R304) -/

/-- The segment of mask `k` in force `p` samples after its table began. -/
def State.maskSegment (s : State) (k p : Nat) : Option Nat :=
  let l0 := s.get (R.ACQ_SLEN_LEN k 0)
  let l1 := s.get (R.ACQ_SLEN_LEN k 1)
  let l2 := s.get (R.ACQ_SLEN_LEN k 2)
  let l3 := s.get (R.ACQ_SLEN_LEN k 3)
  if p < l0 then some 0
  else if l0 = 0 then Option.none
  else if p < l0 + l1 then some 1
  else if l1 = 0 then Option.none
  else if p < l0 + l1 + l2 then some 2
  else if l2 = 0 then Option.none
  else if p < l0 + l1 + l2 + l3 then some 3
  else Option.none

/-- The limits of mask `k` in force. -/
def State.maskLimits (s : State) (k : Nat) : Nat × Nat :=
  match (nth s.acq.masks k Option.none).bind (s.maskSegment k) with
  | some g => (s.get (R.ACQ_SLO_LO k g), s.get (R.ACQ_SHI_HI k g))
  | Option.none => (s.get (R.ACQ_DLO_LO k), s.get (R.ACQ_DHI_HI k))

/-- Mask `k` is violated by the values of a sample. -/
def State.maskViolated (s : State) (vals : List Nat) (k : Nat) : Bool :=
  let n := s.get (R.ACQ_MCFG_CH k)
  let x := s.chanInt n (nth vals n 0)
  let (lo, hi) := s.maskLimits k
  s.on (R.ACQ_MCFG_EN k) && decide (x < s.chanInt n lo ∨ s.chanInt n hi < x)

/-- The masks `l` are violated by one sample: in POST, a mask mark each. DEDUCED (log 172). -/
def State.maskMark (s : State) (l : List Nat) : State :=
  if l.isEmpty || s.acqSt != 3 then s
  else
    s.setRec (fun r =>
      { r with
        marks := r.marks ++ l.map (fun k => ((s.acq.count : Int) - 1 - (r.t0 : Int), 0x83, k))
        viol := true })

/-- The masks step to the next sample: a firing of the reference source starts the table again. -/
def State.maskStep (s : State) (fired : List Nat) : State :=
  s.setAcq (fun a => { a with masks := (List.range 4).map (fun k =>
    if fired.contains (s.get (R.ACQ_MCFG_REF k)) then some 0
    else match nth a.masks k Option.none with
      | Option.none => Option.none
      | some p => if (s.maskSegment k (p + 1)).isSome then some (p + 1) else Option.none) })

/-! ### Trigger sources (R299, R300) -/

/-- The type of source `k`: 9 to 15 act as 0, and a source that is not enabled never fires. -/
def State.trigType (s : State) (k : Nat) : Nat :=
  if decide (k < s.acqNum) && s.on (R.ACQ_TCFG_EN k) then
    (if s.get (R.ACQ_TCFG_TYPE k) ≤ 8 then s.get (R.ACQ_TCFG_TYPE k) else 0)
  else 0

/-- A rising crossing of `lvl` from `a` to `b`, and its CB. -/
def rising (a b lvl : Int) : Option Nat :=
  if a < lvl ∧ lvl ≤ b then some (((b - lvl) * 256 / (b - a)).toNat) else Option.none

/-- A falling crossing, and its CB. -/
def falling (a b lvl : Int) : Option Nat :=
  if lvl < a ∧ b ≤ lvl then some (((lvl - b) * 256 / (a - b)).toNat) else Option.none

/-- Source `k` fires on this sample when armed: its CB. -/
def State.trigFires (s : State) (vals : List Nat) (viol : List Nat) (k : Nat) : Option Nat :=
  let n := s.get (R.ACQ_TCFG_CH k)
  let raw := nth vals n 0
  let b := s.chanInt n raw
  let prev := s.acq.prev.map (fun l => s.chanInt n (nth l n 0))
  let lvl := s.chanInt n (s.get (R.ACQ_LVL_LVL k))
  let lvl2 := s.chanInt n (s.get (R.ACQ_LVL2_LVL2 k))
  let u := s.get (R.ACQ_LVL_LVL k)
  let msk := s.get (R.ACQ_LVL2_LVL2 k)
  let yes := fun (c : Bool) => if c then some 0 else Option.none
  match s.trigType k with
  | 1 => prev.bind (fun a => rising a b lvl)
  | 2 => prev.bind (fun a => falling a b lvl)
  | 3 => prev.bind (fun a => (rising a b lvl).or (falling a b lvl))
  | 4 => yes (decide (b < lvl ∨ lvl2 < b))
  | 5 => prev.bind (fun a => yes (decide ((u : Int) < ((b - a).natAbs : Int))))
  | 6 => yes (Nat.land raw msk == Nat.land u msk)
  | 7 => yes (s.fcu.reacted.contains (u % 256))
  | 8 => yes (viol.contains (u % 4))
  | _ => Option.none

/-- Source `k`, disarmed, is armed again by this sample. -/
def State.trigRearms (s : State) (vals : List Nat) (viol : List Nat) (k : Nat) : Bool :=
  let n := s.get (R.ACQ_TCFG_CH k)
  let raw := nth vals n 0
  let b := s.chanInt n raw
  let prev := s.acq.prev.map (fun l => s.chanInt n (nth l n 0))
  let lvl := s.chanInt n (s.get (R.ACQ_LVL_LVL k))
  let lvl2 := s.chanInt n (s.get (R.ACQ_LVL2_LVL2 k))
  let u := s.get (R.ACQ_LVL_LVL k)
  let msk := s.get (R.ACQ_LVL2_LVL2 k)
  let hys : Int := s.get (R.ACQ_HYS_HYS k)
  match s.trigType k with
  | 1 => decide (b < lvl - hys)
  | 2 => decide (lvl + hys < b)
  | 3 => decide (hys < ((b - lvl).natAbs : Int))
  | 4 => decide (lvl + hys ≤ b ∧ b ≤ lvl2 - hys)
  | 5 => (prev.map (fun a => decide (((b - a).natAbs : Int) ≤ (u : Int)))).getD false
  | 6 => Nat.land raw msk != Nat.land u msk
  | 7 => true
  | 8 => !viol.contains (u % 4)
  | _ => false

/-- The sources that fire at this sample with their CB, ascending. -/
def State.firing (s : State) (vals viol : List Nat) : List (Nat × Nat) :=
  (List.range 64).filterMap (fun k =>
    if bitOf s.acq.armed k then (s.trigFires vals viol k).map (fun c => (k, c)) else Option.none)

/-- A source is armed when it is enabled. -/
def State.armEnabled (s : State) : State :=
  let en := chanMask64 (fun k => decide (k < s.acqNum) && s.on (R.ACQ_TCFG_EN k))
  s.setAcq (fun a => { a with armed := Nat.lor (Nat.land a.armed en) (andNot en a.known), known := en })
where
  /-- The bits 0 to 63 at which `f` holds. -/
  chanMask64 (f : Nat → Bool) : Nat := (List.range 64).foldl (fun m k => if f k then m + 2 ^ k else m) 0

/-- The arm state after this sample: a source that fired is disarmed, and one that was disarmed is tested for its
re-arm condition. DEDUCED (log 172). -/
def State.rearm (s : State) (vals viol fired : List Nat) : State :=
  s.setAcq (fun a => { a with armed := (List.range 64).foldl (fun m k =>
    if bitOf a.armed k then (if fired.contains k then m else m + 2 ^ k)
    else if bitOf a.known k && s.trigRearms vals viol k then m + 2 ^ k else m) 0 })

/-! ### Records (R297, R301 to R306) -/

/-- The record `r` with the firings `l` at the last sample: listed, and extending it where RETRIG is set (R297, R302). -/
def State.listTriggers (s : State) (r : AcqRec) (l : List (Nat × Nat)) : AcqRec :=
  let i : Int := (s.acq.count : Int) - 1 - (r.t0 : Int)
  let room := 64 - r.trig.length
  { r with
    trig := r.trig ++ (l.take room).map (fun p => (p.1, p.2, i))
    xtrg := min 65535 (r.xtrg + (l.length - room))
    stop := if s.on R.ACQ_CFG_RETRIG then max r.stop (min s.acqMax (i.toNat + s.acqPost)) else r.stop }

/-- Triggers in POST are listed; where their table would leave less than 128 bytes free, the record overflows at its next
unread sample without them (R302, R305). DEDUCED (log 172). -/
def State.postTriggers (s : State) (l : List (Nat × Nat)) : State :=
  match s.acq.record with
  | Option.none => s
  | some r =>
    let t := s.listTriggers r l
    if l.isEmpty then s
    else if r.over || s.ringRoom t t.entries.length then s.setRec (fun _ => t)
    else s.acqOverflow ((r.next : Int) - (r.t0 : Int)) 2

/-- A record starts at this sample (R297, R301, R307, R308). -/
def State.startRecord (s : State) (fired : List (Nat × Nat)) (force : Bool) : State :=
  let a := s.acq
  let t0 := a.count - 1
  let u := s.tbsNow
  let p := fired.headD (0x40, 0)
  let r : AcqRec :=
    { t0 := t0, pre := min s.acqPre t0, stop := s.acqPost, prim := p.1, cb := p.2
      fired := fired.foldl (fun m f => m + 2 ^ f.1) 0, tick := s.tick, sec := secOf u, ns := nsOf u, sub := subOf u
      tper := s.get R.TCK_PER_PER
      flags := b2n force * 2 ^ 4 + s.get R.TBS_STA_UHOLD * 2 ^ 8 + b2n (s.get R.TBS_STA_STATE != 2) * 2 ^ 9
      missed := min 65535 a.missed, dead := a.deadT
      trig := if fired.isEmpty then [(0x40, 0, 0)] else fired.map (fun f => (f.1, f.2, 0))
      xtrg := 0, viol := fired.any (fun f => s.trigType f.1 == 8), entries := [], next := t0 - min s.acqPre t0
      last := [], marks := [], win := [] }
  if s.ringRoom r 0 then
    (s.setAcq (fun a => { a with missed := 0, record := some r, credit := 0 })).put R.ACQ_STA_STATE 3
  else (((s.incSat R.ACQ_CNT_OVFC).fcuEvent 0x0E).raiseFlt 0x0C Flt.ACQ_OVF).acqStopped 1

/-- After the sample of POST whose index is one less than POSTACT. -/
def State.postEnd (s : State) : State :=
  match s.acq.record with
  | Option.none => s
  | some r => if s.acqSt = 3 ∧ r.t0 + r.stop ≤ s.acq.count then s.enterClose else s

/-- A tick ends: the next has had no sample. -/
def State.acqTick (s : State) : State := s.setAcq (fun a => { a with ticks := a.ticks + 1, sampled := false })

/-- A local tick instant: where it begins a sample tick, that tick has no sample (R299, R306).
DEDUCED (log 172). -/
def State.acqGap (s : State) : State :=
  s.when (s.runs 0x0C && s.acqSt != 0 && decide (s.get R.ACQ_CFG_SDM1 < s.acq.ticks))
    ((s.acqMark 0x81).setAcq (fun a => { a with prev := Option.none, ticks := 0 }))

/-- Firings in CLOSE are missed (R302). -/
def State.missTriggers (s : State) (n : Nat) : State :=
  if n = 0 then s else (s.setAcq (fun a => { a with missed := a.missed + n })).addSat R.ACQ_CNT_MISSED n

/-- The faults of one sample: masks violated, and `n` firings missed in CLOSE (R302, R304, R331). -/
def State.sampleFaults (s : State) (viol : List Nat) (n : Nat) : State :=
  let mask := !viol.isEmpty
  let s := if mask then s.fcuEvent 0x0D else s
  s.raiseFlts 0x0C (chosen [(decide (s.acqSt = 4 ∧ n ≠ 0), Flt.ACQ_MISS), (mask, Flt.ACQ_MASKV)])

/-- What the firings of this sample do in the state of the block (R301, R302). DEDUCED (log 172). -/
def State.actTriggers (s : State) (fired : List (Nat × Nat)) (force : Bool) : State :=
  match s.acqSt with
  | 2 => if fired.isEmpty && !force then s else s.startRecord fired force
  | 3 => s.postTriggers (if force then fired ++ [(0x40, 0)] else fired)
  | 4 => s.missTriggers fired.length
  | _ => s

/-- CMD.ARM has come: ARMED at this sample (R296). -/
def State.armNow (s : State) : State :=
  if s.acq.armReq && decide (s.acqSt = 1) then
    (s.put R.ACQ_STA_STATE 2).setAcq
      (fun a => { a with armReq := false, deadFrom := Option.none, deadWait := false, deadT := 0 })
  else s

/-- The dead time (R303): it begins at the first sample after the record and ends at the first one in ARMED.
DEDUCED (log 172). -/
def State.deadTime (s : State) : State :=
  let now := s.fcu.timeNs
  let s := if s.acq.deadWait then s.setAcq (fun a => { a with deadWait := false, deadFrom := some now }) else s
  match s.acq.deadFrom with
  | some t =>
    if s.acqSt = 2 then
      let d := min (2 ^ 32 - 1) (now - t)
      (s.setAcq (fun a => { a with deadFrom := Option.none, deadT := d })).put R.ACQ_DEAD_VAL d
    else s
  | Option.none => s

/-! ### Closing (R307 to R314) -/

/-- The header of 96 bytes (R307). -/
def State.recordHeader (s : State) (r : AcqRec) (len rseq : Nat) : List Byte :=
  bytesLE 2 0x0A01 ++ bytesLE 2 s.nodeId ++ bytesLE 4 len ++ bytesLE 4 rseq ++ bytesLE 2 r.flags ++
    bytesLE 1 r.prim ++ bytesLE 1 r.cb ++ bytesLE 8 r.fired ++ bytesLE 8 r.tick ++ bytesLE 8 r.sec ++
    bytesLE 4 r.ns ++ bytesLE 1 r.sub ++ bytesLE 1 (s.get R.ACQ_CFG_SDM1 + 1) ++ bytesLE 2 r.tper ++
    bytesLE 8 (s.acqChans.foldl (fun m n => m + 2 ^ n) 0) ++ bytesLE 2 r.pre ++ bytesLE 2 r.stop ++
    bytesLE 2 r.trig.length ++ bytesLE 2 r.missed ++ bytesLE 4 r.dead ++ bytesLE 4 r.entries.length ++
    bytesLE 2 (s.get R.ACQ_CFG_SOFS) ++ bytesLE 2 r.xtrg ++ zeros 20

/-- The channel table and the trigger table (R309). -/
def State.recordTables (s : State) (r : AcqRec) : List Byte :=
  s.acqChans.flatMap (fun n =>
    bytesLE 4 (s.fieldsValue 0x0C [R.ACQ_CHSRC_EN n, R.ACQ_CHSRC_SGN n, R.ACQ_CHSRC_TYPE n, R.ACQ_CHSRC_SEL n]) ++
      bytesLE 4 (s.fieldsValue 0x0C [R.ACQ_CHMOD_CO n, R.ACQ_CHMOD_DB n])) ++
    padTo (trigBytes r.trig.length) (r.trig.flatMap (fun t =>
      bytesLE 1 t.1 ++ bytesLE 1 t.2.1 ++ bytesLE 2 (ofSigned 16 t.2.2)))

/-- The whole record, with the measurement block `meas` (empty, or 64 bytes), its CRC included (R307, R311).
DESIGN CHOICE (log 171). -/
def State.recordBody (s : State) (r : AcqRec) (rseq : Nat) (meas : List Byte) : List Byte :=
  let es := r.entries.reverse.flatMap (bytesLE 8)
  let body := if (8 * s.acqChans.length + es.length) % 16 = 0 then es else es ++ zeros 8
  let tabs := s.recordTables r
  let len := 96 + tabs.length + body.length + meas.length + 16
  let b := s.recordHeader r len rseq ++ tabs ++ body ++ meas ++ bytesLE 4 rseq ++ bytesLE 4 len ++ zeros 4
  b ++ bytesLE 4 (crc32c b).toNat

/-- The record is closed: trailer written, WRPTR and RSEQ advanced, DSX source 0x3C issued, and the block goes on to
ARMED or STOPPED (R304, R305, R312). DESIGN CHOICE (log 171). -/
def State.closeRecord (s : State) (meas : List Byte) : State :=
  match s.acq.record with
  | Option.none => s
  | some r =>
    let q := (s.get R.ACQ_RSEQ_VAL + 1) % 2 ^ 32
    let b := s.recordBody r q meas
    let o := s.get R.ACQ_WRPTR_PTR * 16
    let s := s.ringWrite o b
    let s := (s.put R.ACQ_WRPTR_PTR ((o + b.length) % max 1 s.ringSize / 16)).put R.ACQ_RSEQ_VAL q
    let s := s.dsxIssue 0x3C (q % 2 ^ 24)
    let cause := s.acq.stop.orElse (fun _ =>
      if s.on R.ACQ_CFG_STOPV && r.viol then some 2 else Option.none)
    let s := s.setAcq (fun a => { a with record := Option.none, stop := Option.none, phase := .encode })
    match cause with
    | some c => s.acqStopped c
    | Option.none => s.put R.ACQ_STA_STATE 2

/-- The record that a gap or a change of TP has ended is closed at the next sample, so that the block is ARMED at it; a
measurement that has not come to its end is not valid (R306). DEDUCED (log 172). -/
def State.closeMarked (s : State) : State :=
  if s.acqSt = 4 ∧ s.acq.marked then
    let s := s.encodeRest
    if s.acqMeas then (s.setRec (fun r => { r with flags := Nat.lor r.flags 0x40 })).closeRecord (zeros 64)
    else s.closeRecord []
  else s

/-! ### The sample -/

/-- A sample is due in this tick, which has had none (R292). -/
def State.sampleDue (s : State) : Bool :=
  s.runs 0x0C && s.acqSt != 0 && s.lock && decide (s.tick % (s.get R.ACQ_CFG_SDM1 + 1) = 0) &&
    !s.acq.sampled

/-- The sample at the sample instant (R292, R295, R299, R304). -/
def State.acqSample (s : State) : State :=
  let s := s.toInstant (s.get R.ACQ_CFG_SOFS * 10)
  let s := s.encodeNow (s.fcu.timeNs - s.acq.since)
  let s := s.closeMarked
  let (vals, s) := s.chanValues 64
  let s := (s.histGuard).histWrite vals
  let s := (s.armNow.deadTime).armEnabled
  let viol := (List.range 4).filter (s.maskViolated vals)
  let fired := s.firing vals viol
  let force := s.acq.forceReq
  let s := s.rearm vals viol (fired.map Prod.fst)
  let s : State := { s with fcu := { s.fcu with reacted := [] } }
  let s := (s.sampleFaults viol fired.length).maskMark viol
  let s := s.maskStep (fired.map Prod.fst)
  let s := (s.actTriggers fired force).postEnd
  s.setAcq (fun a =>
    { a with prev := some vals, sampled := true, since := s.fcu.timeNs, forceReq := false, ticks := 0 })

/-- ACQ_SAMPLE (R292). -/
def execAcqSample (s : State) : Host.Outcome State Fault Refusal := .next (live s (s.when s.sampleDue s.acqSample))

/-! ### Commands (R296, R301, R312, R316) -/

/-- CMD.ARM: refused in any state but STOPPED. -/
def State.acqArm (s : State) : State :=
  if s.acqSt = 1 then s.setAcq (fun a => { a with armReq := true }) else s.put R.ACQ_STA_CMDREF 1

/-- ARM (R296). -/
def execArm (s : State) : Host.Outcome State Fault Refusal := .next (live s (s.cmd 0x0C s.acqArm))

/-- CMD.STOP: a record in POST closes at the current sample with USTOP; one in CLOSE is completed first.
DEDUCED (log 172). -/
def State.acqStop (s : State) : State :=
  let s := s.setAcq (fun a => { a with armReq := false })
  match s.acqSt with
  | 2 => s.acqStopped 0
  | 3 =>
    let s := s.setRec (fun r => { r with stop := s.acq.count - r.t0, flags := Nat.lor r.flags 8 })
    (s.setAcq (fun a => { a with stop := some 0 })).enterClose
  | 4 => s.setAcq (fun a => { a with stop := some (a.stop.getD 0) })
  | _ => s

/-- ACQ_STOP (R296). -/
def execAcqStop (s : State) : Host.Outcome State Fault Refusal := .next (live s (s.cmd 0x0C s.acqStop))

/-- CMD.FORCE: nothing is recorded in CLOSE or STOPPED. -/
def State.acqForce (s : State) : State :=
  s.when (decide (s.acqSt = 2 ∨ s.acqSt = 3)) (s.setAcq (fun a => { a with forceReq := true }))

/-- FORCE (R301). -/
def execForce (s : State) : Host.Outcome State Fault Refusal := .next (live s (s.cmd 0x0C s.acqForce))

/-- CMD.CCLR. -/
def State.acqClear (s : State) : State := s.zero [R.ACQ_CNT_MISSED, R.ACQ_CNT_OVFC, R.ACQ_DEAD_VAL]

/-- ACQ_COUNTER_CLEAR (R316). -/
def execAcqCounterClear (s : State) : Host.Outcome State Fault Refusal := .next (live s (s.cmd 0x0C s.acqClear))

/-- A write of ACQ.RDPTR (R312). -/
def State.rdptr (s : State) (v : Nat) : State :=
  if v % 16 = 0 ∧ v < s.ringSize then s.put R.ACQ_RDPTR_PTR (v / 16) else s.put R.ACQ_STA_CMDREF 1

/-- RDPTR_WRITE (R312). -/
def execRdptrWrite (v : W32) (s : State) : Host.Outcome State Fault Refusal := .next (live s (s.cmd 0x0C (s.rdptr v.toNat)))

/-! ### The steps of CLOSE (R313) -/

/-- The encoder has stored the last sample of the record: the window copy begins, or the record closes (R313). -/
def State.encoderDone (s : State) : State :=
  if s.acqSt = 4 ∧ s.acq.phase = .encode then
    let s := s.encodeRest
    if s.acqMeas then s.setAcq (fun a => { a with phase := .copy }) else s.closeRecord []
  else s

/-- ENCODER_DONE (R313). DEDUCED (log 170). -/
def execEncoderDone (s : State) : Host.Outcome State Fault Refusal := .next (live s s.encoderDone)

/-- The engine that measures. -/
def State.measEng (s : State) : Nat := s.get R.ACQ_MEAS_ENG

/-- The first W values of the window; a channel that is not recorded has no stated values. -/
def State.windowWords (s : State) (r : AcqRec) (w : Nat) : List Nat × State :=
  if s.chanOn (s.get R.ACQ_MEAS_CH) then (r.win.take w, s)
  else ((List.range w).map (fun i => Config.free (s.freeCtr + i) % 2 ^ 32), { s with freeCtr := s.freeCtr + w })

/-- The window stands in X memory, and the TRG 10 entries of the engine are triggered (R313). -/
def State.windowDone (s : State) : State :=
  match s.acq.record with
  | Option.none => s
  | some r =>
    if s.acqSt = 4 ∧ s.acq.phase = .copy then
      let n := s.measEng
      let (l, s) := s.windowWords r (min r.stop s.mwin)
      let s := forEach (l.zip (List.range l.length)) (fun p x =>
        x.seStore n false (x.get R.ACQ_MADR_XADDR + p.2) (BitVec.ofNat 32 p.1)) s
      let s := s.setAcq (fun a => { a with phase := .measure, meas := s.fcu.timeNs, trapped := false })
      s.seRecord n
    else s

/-- WINDOW_COPY_DONE (R313). -/
def execWindowCopyDone (s : State) : Host.Outcome State Fault Refusal := .next (live s s.windowDone)

/-- A TRG 10 entry of the engine is pending or running. -/
def State.measRuns (s : State) : Bool :=
  let n := s.measEng
  let e := s.eng n
  (List.range 4).any (fun k => s.get (R.SE_ENT_TRG n k) == 2 && (bitOf e.pend k || e.runsEntry k))

/-- The measurement is under way. -/
def State.measuring (s : State) : Bool := decide (s.acqSt = 4 ∧ s.acq.phase = .measure)

/-- The instant at which MTMO after step 2 has passed (R313). -/
def State.measDue (s : State) : Nat := s.acq.meas + max 1 (s.get R.ACQ_MTMO_VAL % 65536) * 1000

/-- A measurement that the engine's trap or MTMO has ended: the block is written as 0 (R313). -/
def State.measFail (s : State) : State :=
  ((s.setRec (fun r => { r with flags := Nat.lor r.flags 0x40 })).raiseFlt 0x0C Flt.ACQ_MTMO).closeRecord (zeros 64)

/-- No entry that measures is pending or running: the results are copied into the measurement block, unless the engine has
trapped or MTMO has passed (R313). -/
def State.measDone (s : State) : State :=
  if !s.measuring || s.measRuns then s
  else if s.acq.trapped || decide (s.measDue < s.fcu.timeNs) then s.measFail
  else
    let n := s.measEng
    let y := s.get R.ACQ_MADR_YADDR
    let b := (List.range 16).flatMap (fun i => bytesLE 4 (s.seWord n true (y + i)).toNat)
    (s.setRec (fun r => { r with flags := Nat.lor r.flags 0xC0 })).closeRecord b

/-- MEASUREMENT_DONE (R313). -/
def execMeasurementDone (s : State) : Host.Outcome State Fault Refusal := .next (live s s.measDone)

/-- MTMO after step 2, or at once where the engine has trapped, the block is written as 0 (R313). -/
def State.measTimeout (s : State) : State :=
  if s.measuring then (if s.acq.trapped then s else s.toTime s.measDue).measFail else s

/-- MEASUREMENT_TIMEOUT (R313). -/
def execMeasurementTimeout (s : State) : Host.Outcome State Fault Refusal := .next (live s s.measTimeout)

end Sys2Proof.Machine
end

