-- ==== Sys2Proof/Machine/Power.lean ====
section
/-! DEFINITION. Supplies, clocks, module resets and straps (R1, R13, R15, R403, R408 to R412, R421, R424,
R425). -/

namespace Sys2Proof.Machine

/-! ### Module resets (R399, R409, R410) -/

/-- Field keys that a software reset keeps: SYS.STRAP and SYS.NODEID, and of the FCU the sticky bits, the log's places and
its lost entries, the configuration and the state of every source (R1, R6, R340; 13_faults_wear_longrun.md, Power-up state).
DEDUCED (log 252). -/
def keptKey (k : Nat) : Bool :=
  let w := k / 32
  decide (w = 0x40 ∨ w = 0x44 ∨ (0x3040 ≤ w ∧ w < 0x3050) ∨ w = 0x3070 ∨ w = 0x3074 ∨ w = 0x3078 ∨
    (0x3100 ≤ w ∧ w < 0x3700))

/-- The FCU as a software reset keeps it, with no Restart under way. -/
def FcuState.keep (f : FcuState) : FcuState := { f with restartAt := Option.none, reacted := [] }

/-- An almanac entry that a reset interrupts stands at its index with a CRC that fails, in a sector with its header (R341,
R344). DEDUCED (log 201). -/
def State.almCut (s : State) : State :=
  match s.alm.prog with
  | Option.none => s
  | some _ =>
    let (junk, s) := s.openBytes 96
    s.almPlace (s.get R.ALM_STA_WIDX) (almTorn junk)

/-- The strap combinations of R13. -/
def strapsOk (p : Straps) : Bool :=
  match p.role.val with
  | 1 => p.pair == 0
  | 2 => decide (p.pair.val ≤ 14)
  | 3 => true
  | _ => false

/-- The NodeID that valid straps give (R13). -/
def strapNode (p : Straps) : Nat :=
  match p.role.val with
  | 1 => 1 + p.side.val
  | 2 => 0x100 + 2 * p.pair.val + p.side.val
  | _ => 0

/-- The straps as they were latched (R20). -/
def State.latched (s : State) : Straps :=
  ⟨Fin.ofNat 4 (s.get R.SYS_STRAP_ROLE), Fin.ofNat 2 (s.get R.SYS_STRAP_SIDE), Fin.ofNat 16 (s.get R.SYS_STRAP_PAIR)⟩

/-- SYS.NODEID as the release from a reset sets it: from valid straps in roles C and S, none in the others (R21, R22). -/
def State.nodeReset (s : State) : State :=
  let p := s.latched
  let own := strapsOk p && p.role != 3
  ((s.put R.SYS_NODEID_ID (if own then strapNode p else 0)).putB R.SYS_NODEID_VALID own).putB R.SYS_NODEID_SRC
    (strapsOk p && p.role == 3)

/-- PWM.SCFG.MODE at reset in the latched role (R237). DEDUCED (log 143). -/
def State.pwmMode (s : State) : State := s.when s.isK (s.put R.PWM_SCFG_MODE 0)

/-- TBS.CFG.SRC and AUTOACC reset to 01 and 1 in roles S and K (R290). -/
def State.tbsRole (s : State) : State := s.when (s.isS || s.isK) ((s.put R.TBS_CFG_SRC 1).put R.TBS_CFG_AUTOACC 1)

/-- The fields whose reset value depends on the role. -/
def State.roleResets (s : State) : State := s.pwmMode.tbsRole

/-- The registers of a module that leaves reset with its latched role, before the wipe is complete. -/
def State.roleRegs (s : State) : State := s.nodeReset.roleResets

/-- What every module reset keeps: flash, OTP and key store, memory until the wipe has run, the supply side, the
field die with its side of the link, and the model's own fields. DEDUCED (log 252). -/
def State.afterReset (s : State) : State :=
  { State.reset with
    mem := s.mem, bad := s.bad, soft := s.soft, flash := s.flash, store := s.store
    pwr := { s.pwr with armed := false, swPend := false }
    field := { s.field with
      lossMain := true, lossFlag := false, badMain := 0, goodMain := 0, rx := s.fioRx, bypBad := false }
    out := s.out, freeCtr := s.freeCtr, pending := s.pending }

/-- PWR.RSTC and PWR.VIN after a reset: the cause, WIPER if a wipe was running, and the flags of a power-on reset. -/
def State.rstc (s : State) (wiping : Bool) (cause brown ovsd thsd clkf : Nat) : State :=
  let s := ((s.put R.PWR_RSTC_CAUSE cause).putB R.PWR_RSTC_WIPER wiping).put R.PWR_RSTC_BROWN brown
  let s := ((s.put R.PWR_RSTC_OVSD ovsd).put R.PWR_RSTC_THSD thsd).put R.PWR_RSTC_CLKF clkf
  s.put R.PWR_VIN_VIN s.pwr.vin

/-- A reset that latches the straps again: power-on or nRESET. The module is held until its release. -/
def State.hardReset (s : State) (cause brown ovsd thsd clkf : Nat) : State :=
  let w := decide (s.phase = .wiping)
  (s.almCut.afterReset).rstc w cause brown ovsd thsd clkf

/-- A software or Restart reset: the role and the FCU are kept and the wipe starts (R340, R409). A cell, whose lanes
the reset puts in OFF, relays again once they are up, without a NodeID (R22). DEDUCED (log 32). -/
def State.softReset (s : State) (cause : Nat) : State :=
  let w := decide (s.phase = .wiping)
  let old := s.almCut
  let t : State := { old.afterReset with
    phase := .wiping, regs := old.regs.filter (fun p => keptKey p.1), fcu := old.fcu.keep
    sec := { SecState.init with sigs := s.sec.sigs } }
  (t.rstc w cause 0 0 0 0).roleRegs

/-- A software or Restart reset acts on a module that is out of reset; one that comes during a wipe restarts it
(R410). -/
def State.softResetNow (s : State) (cause : Nat) : State :=
  match s.phase with
  | .held => s
  | _ => s.softReset cause

/-! ### VIN (R403, R424) -/

/-- VIN takes a new value, in 1/256 V: the rising and falling thresholds, the end of an overvoltage hold, and the
register with its lowest value. -/
def State.setVin (s : State) (v : Nat) : State :=
  let p := s.pwr
  let up := if v < 2048 then false else p.up || decide (2176 < v)
  let s : State := { s with pwr := { p with
    vin := v, up := up, seen := v != 0 && (p.seen || decide (2176 < v)), ovHold := p.ovHold && decide (4864 ≤ v) } }
  let s := s.put R.PWR_VIN_VIN v
  s.put R.PWR_VIN_VMIN (min v (s.get R.PWR_VIN_VMIN))

/-- VIN below 8.0 V, or not yet above 8.5 V, holds the module in power-on reset (R403); at 0 V it has lost all power, and no
BROWN is left of the fall (R424). DEDUCED (log 250). -/
def State.underVolt (s : State) (vin : Nat) : State :=
  let t := s.setVin vin
  if t.pwr.up then t else t.hardReset 1 (b2n (s.pwr.seen && vin != 0)) 0 0 0

/-- VIN above 20.0 V shuts the module down (R403). -/
def State.overVolt (s : State) (vin : Nat) : State :=
  let t := s.setVin vin
  if 5120 < vin then ({ t with pwr := { t.pwr with ovHold := true } } : State).hardReset 1 0 1 0 0 else t

/-- POWER_ON_RESET (R409): VIN has fallen below 8.0 V for 50 us, or has not yet risen above 8.5 V; a module that
runs above the threshold goes on. -/
def execPowerOnReset (vin : Nat) (s : State) : Host.Outcome State Fault Refusal := .next (s.underVolt vin)

/-- OVERVOLTAGE_SHUTDOWN (R403): VIN above 20.0 V for 10 us. -/
def execOvervoltageShutdown (vin : Nat) (s : State) : Host.Outcome State Fault Refusal := .next (s.overVolt vin)

/-- VIN_EXCURSION (R403): VIN outside 9-18 V for more than 1 ms; a value inside ends the excursion. A value that by
then has held the module in reset, below 8.0 V or above 20.0 V, does so. DEDUCED (log 7, 250). -/
def execVinExcursion (vin : Nat) (s : State) : Host.Outcome State Fault Refusal :=
  if vin < 2048 then .next (s.underVolt vin)
  else if 5120 < vin then .next (s.overVolt vin)
  else
    let t := s.setVin vin
    .next (if vin < 2304 ∨ 4608 < vin then
        live t (((t.hourly (fun a => { a with vinx := a.vinx + 1 })).fcuEvent 0x13).raiseFlt 2 Flt.PWR_VINX)
      else t)

/-- VIN_MIN_CLEAR (R424). -/
def State.vminClear (s : State) : State := s.put R.PWR_VIN_VMIN (s.get R.PWR_VIN_VIN)

/-- VIN_MIN_CLEAR (R424). -/
def execVinMinClear (s : State) : Host.Outcome State Fault Refusal := .next (live s s.vminClear)

/-- A rail is power-gated: MEM in role K, where DRAM is Gated (R16, R213, R424). DEDUCED (log 251). -/
def State.railGated (s : State) (rail : Nat) : Bool := s.isK && rail == 3

/-- RAIL_EXCURSION (R424): a rail leaves its tolerance without a reset, or is within it again. DEDUCED (log 251). -/
def execRailExcursion (rail : Fin 6) (ok : Bool) (s : State) : Host.Outcome State Fault Refusal :=
  .next (live s (if ok then s.putBit R.PWR_RAIL_OK rail true
    else s.when (!s.railGated rail) ((s.putBit R.PWR_RAIL_OK rail false).raiseFlt 2 Flt.PWR_RAIL)))

/-! ### Clocks and die temperature (R408, R421, R425) -/

/-- CLOCK_FAILURE (R408): the module is held until its clocks are good and RESET_RELEASE comes. DEDUCED (log 250). -/
def execClockFailure (s : State) : Host.Outcome State Fault Refusal :=
  .next (({ s with pwr := { s.pwr with ckHold := true } } : State).hardReset 1 0 0 0 1)

/-- A LANE PLL that loses lock takes its lane out of UP (R82, R408). -/
def State.pllLoss (s : State) (n : Nat) (inFrame : Bool) : State :=
  let s := (s.incSat R.CLK_LLCNT_CNT).putBit R.CLK_LANELK_LK n false
  s.when (s.laneUp n) (s.laneDepart n false true inFrame)

/-- LANE_PLL_LOCK_LOSS (R408). -/
def execLanePllLockLoss (n : Fin 20) (inFrame : Bool) (s : State) : Host.Outcome State Fault Refusal :=
  .next (live s (s.when (s.laneOn n) (s.pllLoss n inFrame)))

/-- LANE_LOCK_COUNT_CLEAR (R425). -/
def execLaneLockCountClear (s : State) : Host.Outcome State Fault Refusal :=
  .next (live s (s.put R.CLK_LLCNT_CNT 0))

/-- THERMAL_SHUTDOWN (R421): the die above 120 degrees. -/
def execThermalShutdown (s : State) : Host.Outcome State Fault Refusal :=
  .next (({ s with pwr := { s.pwr with thHold := true } } : State).hardReset 1 0 0 1 0)

/-- The die temperature in 1/16 degree against ALM.TDIE.TLIM. DEDUCED (log 251). -/
def State.dieLimit (s : State) (t : Int) : State :=
  let s := s.putS R.ALM_TDIE_TDIE t
  s.when (s.getS R.ALM_TDIE_TLIM < t) ((s.fcuEvent 0x14).raiseFlt 4 Flt.ALM_TLIM)

/-- DIE_TEMPERATURE_LIMIT (R421): a die above TLIM; a die below 100 degrees ends a thermal hold.
DEDUCED (log 251). -/
def execDieTemperatureLimit (t : Int) (s : State) : Host.Outcome State Fault Refusal :=
  let s : State := { s with pwr := { s.pwr with thHold := s.pwr.thHold && decide (1600 ≤ t) } }
  .next (live s (s.dieLimit t))

/-! ### nRESET, software and Restart resets (R337, R410, R411, R424) -/

/-- The PGOOD pin reads high: the rails are good and reset is released (R409, R411, R414); a software or Restart reset is
released when its wipe is complete. DEDUCED (log 250). -/
def State.pgood (s : State) : Bool :=
  match s.phase with
  | .held => false
  | .wiping => decide (s.get R.PWR_RSTC_CAUSE ≤ 2) && s.get R.PWR_RAIL_OK == 0x3F
  | .run => s.get R.PWR_RAIL_OK == 0x3F

/-- A power-on condition holds the module (R403, R421). DEDUCED (log 7, 250). -/
def State.powerHeld (s : State) : Bool := !s.pwr.up || s.pwr.ovHold || s.pwr.thHold

/-- A recognised low pulse on nRESET; a power-on condition that holds the module stays the cause (R410). -/
def State.nresetLow (s : State) : State := if s.powerHeld || s.pwr.ckHold then s else s.hardReset 2 0 0 0 0

/-- NRESET (R411): 2,000 ns are always recognised, less than 1,000 ns never; between, it is open which.
DESIGN CHOICE (log 10). -/
def execNreset (ns : Nat) (s : State) : Host.Outcome State Fault Refusal :=
  if 2000 ≤ ns then .next s.nresetLow
  else if ns < 1000 then .next s
  else
    let (z, t) := s.fresh 1
    .next (if z = 1 then t.nresetLow else t)

/-- SWRST_ARM (R424). -/
def execSwrstArm (s : State) : Host.Outcome State Fault Refusal :=
  .next (live s { s with pwr := { s.pwr with armed := true, armAt := s.fcu.timeNs } })

/-- PWR.SWRST.GO, `since` fabric cycles after ARM: at the next drain instant while aligned, else at once (R410). -/
def State.swGo (s : State) (since : Nat) : State :=
  if !(s.pwr.armed && decide (since ≤ 100)) then s
  else if s.lock then { s with pwr := { s.pwr with swPend := true } }
  else s.softResetNow 3

/-- SOFTWARE_RESET (R410). -/
def execSoftwareReset (since : Nat) (s : State) : Host.Outcome State Fault Refusal :=
  .next (live s (s.swGo since))

/-- A Restart reaction is due: 1 ms has passed since it (R337). -/
def State.restartDue (s : State) : Bool :=
  match s.fcu.restartAt with
  | some t => decide (t + 1000000 ≤ s.fcu.timeNs)
  | Option.none => false

/-- The reset that a drain instant brings: Restart before software (R410). -/
def State.drainReset (s : State) : State :=
  if s.restartDue then s.softResetNow 4 else if s.pwr.swPend then s.softResetNow 3 else s

/-- A software reset that waits for a drain instant takes effect at once where no Strike exists any more (R410). -/
def State.swNow (s : State) : State := s.when (s.pwr.swPend && !s.lock) (s.softResetNow 3)

/-- RESTART (R337): `dt` ns later, at a drain instant, or while LOCK is 0. -/
def execRestart (dt : Nat) (s : State) : Host.Outcome State Fault Refusal :=
  let t := s.elapse dt
  .next (live s (t.when (t.restartDue && (!t.lock || decide (t.drainNs ≤ t.tickNs))) (t.softResetNow 4)))

/-! ### Release (R1, R13, R15) -/

/-- The straps latched, with the role's reset values. DEDUCED (log 250). -/
def State.latch (s : State) (p : Straps) : State :=
  let s := ((s.put R.SYS_STRAP_ROLE p.role).put R.SYS_STRAP_SIDE p.side).put R.SYS_STRAP_PAIR p.pair
  let s := s.putB R.SYS_STRAP_BAD (!strapsOk p)
  let s := s.roleRegs
  if strapsOk p then s
  else
    let off (h : SafChan) : SafChan := { h with so0 := false, so1 := false }
    { s with field := { s.field with saf := s.field.saf.map off } }

/-- RESET_RELEASE (R1): the straps are latched and the reset wipe starts; nothing releases a module that a
power-on condition still holds. DEDUCED (log 7, 250). -/
def execResetRelease (straps : Straps) (s : State) : Host.Outcome State Fault Refusal :=
  match s.phase with
  | .held =>
    if s.powerHeld then .next { s with pwr := { s.pwr with pins := straps } }
    else .next (({ s with phase := .wiping, pwr := { s.pwr with pins := straps, ckHold := false } } : State).latch straps)
  | _ => .next { s with pwr := { s.pwr with pins := straps } }

end Sys2Proof.Machine
end

