-- ==== Sys2Proof/Machine/Sec.lean ====
section
/-! DEFINITION. The security engine: images and verified boot, measurements, identity signatures and their
reservation log, orders and life-cycle transitions (R381 to R402). -/

namespace Sys2Proof.Machine

/-- The security state replaced by `f`. -/
def State.setSec (s : State) (f : SecState → SecState) : State := { s with sec := f s.sec }

/-- What OTP and the key store hold replaced by `f`. -/
def State.setStore (s : State) (f : SecStore → SecStore) : State := { s with store := f s.store }

/-- A digest as 32 bytes. -/
def digest (l : List Byte) : List Byte := bytesBE 32 (Config.shake256 l).toNat

/-! ### Words as bytes -/

/-- The bytes of `n` words of registers, in ascending order. -/
def State.wordBytes (s : State) (f : Nat → Fld) (n : Nat) : List Byte :=
  (List.range n).flatMap (fun w => bytesLE 4 (s.get (f w)))

/-- Registers set from bytes, in ascending order. -/
def State.putBytes (s : State) (f : Nat → Fld) (n : Nat) (l : List Byte) : State :=
  forUpTo n (fun w x => x.put (f w) (natLE (slice l (4 * w) 4))) s

/-- The first `n` bytes of SEC.BUF. -/
def State.secBuf (s : State) (n : Nat) : List Byte := (s.wordBytes R.SEC_BUF_WORD ((n + 3) / 4)).take n

/-- MEASk as bytes. -/
def State.meas (s : State) (k : Nat) : List Byte := s.wordBytes (R.SEC_MEAS_WORD k) 8

/-- MEASk := SHAKE256(MEASk followed by `d`) (R384). -/
def State.extendMeas (s : State) (k : Nat) (d : List Byte) : State :=
  s.putBytes (R.SEC_MEAS_WORD k) 8 (digest (s.meas k ++ d))

/-! ### Images (R382, R383) -/

/-- The header fields of an image that the boot reads. -/
structure ImgHdr where
  magic : Nat
  kind : Nat
  roles : Nat
  svn : Nat
  version : Nat
  len : Nat
  load : Nat
  entry : Nat
  body : List Byte
  deriving DecidableEq, Repr

/-- The header from its 128 bytes. -/
def imgHdr (h : List Byte) : ImgHdr :=
  { magic := natLE (slice h 0 4), kind := natLE (slice h 4 1), roles := natLE (slice h 5 1), svn := natLE (slice h 8 4),
    version := natLE (slice h 12 4), len := natLE (slice h 16 4), load := natLE (slice h 20 8),
    entry := natLE (slice h 28 8), body := slice h 36 32 }

/-- The keys that may sign an image of a kind: the vendor keys not revoked, or the owner root key.
DEDUCED (log 235). -/
def State.imgKeys (s : State) (kind : Nat) : List (List Byte) :=
  if kind = 1 then ((List.range 4).filter (fun i => !Config.vendorRevoked i)).map Config.vendorKey
  else s.store.ownerKey.toList

/-- The minimum SVN of a kind. -/
def State.minSvn (s : State) (kind : Nat) : Nat := if kind = 1 then s.store.vendorSvn else s.store.ownerSvn

/-- The bit of ROLES that the latched role reads. -/
def State.roleBit (s : State) : Nat :=
  match s.role with
  | .conductor => 0
  | .sect => 1
  | .cell => 2
  | .none => 8

/-- An image is valid as one of `kind`, in a place of `size` bytes read by `rd` (R383).
DEDUCED (log 235). -/
def State.imageOk (s : State) (kind size : Nat) (rd : Nat → Nat → List Byte) : Bool :=
  let h := rd 0 128
  let i := imgHdr h
  i.magic == 0x96400001 && i.kind == kind && bitOf i.roles s.roleBit && decide (s.minSvn kind ≤ i.svn) &&
    decide (1 ≤ i.svn ∧ i.svn ≤ 0xFFFF ∧ i.len + 2948 ≤ size) &&
    digest (rd 128 i.len) == i.body && (s.imgKeys kind).any (fun k => Config.xmssVerify k h (rd (128 + i.len) 2820))

/-- The flash address of slot `n` of a kind, and its size (R381). -/
def slotBase (kind n : Nat) : Nat := if kind = 1 then 0x400000 * n else 0x800000 + 0x800000 * n
/-- The size of a slot of a kind. -/
def slotSize (kind : Nat) : Nat := if kind = 1 then 0x400000 else 0x800000

/-- The header of a slot. -/
def State.slotHdr (s : State) (kind n : Nat) : List Byte := s.flashBytes (slotBase kind n) 128

/-- A slot is valid (R383). -/
def State.slotValid (s : State) (kind n : Nat) : Bool :=
  s.imageOk kind (slotSize kind) (fun o k => s.flashBytes (slotBase kind n + o) k)

/-- The slot of a kind that boots: the higher SVN, then the higher VERSION, then slot 0 (R383). -/
def State.bootSlot (s : State) (kind : Nat) : Option Nat :=
  let a := imgHdr (s.slotHdr kind 0)
  let b := imgHdr (s.slotHdr kind 1)
  match s.slotValid kind 0, s.slotValid kind 1 with
  | true, true => if b.svn > a.svn ∨ (b.svn = a.svn ∧ b.version > a.version) then some 1 else some 0
  | true, false => some 0
  | false, true => some 1
  | false, false => Option.none

/-- A slot that fails sets BOOTF. -/
def State.bootFlag (s : State) (kind : Nat) : State :=
  forEach [0, 1] (fun n x => x.raiseIf (!s.slotValid kind n) 5 Flt.SEC_BOOTF) s

/-- The body of a booted image at its load address, and CC0 at its entry. -/
def State.runImage (s : State) (kind n : Nat) : State :=
  let i := imgHdr (s.slotHdr kind n)
  let s := s.blockStore i.load (s.flashBytes (slotBase kind n + 128) i.len)
  s.setCore 0 { s.core 0 with pc := BitVec.ofNat 64 i.entry, pcOpen := false }

/-! ### Erasure of a transition (R397, R398) -/

/-- A region of the flash erased. DESIGN CHOICE (log 5). -/
def State.erase (s : State) (lo hi : Nat) : State := { s with flash := Memory.clear s.flash lo hi }

/-- What the transition of a KIND erases. -/
def State.wipeFor (s : State) (kind : Nat) : State :=
  let s := s.erase 0x01800000 0x01A00000
  let s := s.setStore (fun t => { t with ownerSvn := 0 })
  let mat := decide (kind = 3 ∨ kind = 4)
  let s := if mat then (s.setStore (fun t => { t with
      ownerKey := Option.none, newKey := Option.none, ident := false, making := false, trees := 0, next := 0 })).erase 0x01B00000 0x01C00000
    else s
  let s := if mat then s.erase 0x00800000 0x01800000 else s
  if kind = 4 then s.erase 0 0x00800000 else s

/-- The erasure is completed and the completion marker written. -/
def State.wipeDone (s : State) : State :=
  if s.store.wipe = 0 then s else (s.wipeFor s.store.wipe).setStore (fun t => { t with wipe := 0 })

/-! ### Boot (R383 to R386, R395) -/

/-- The image-failure state (R385): blocks as in the role-less state. -/
def State.imageFailure (s : State) : State :=
  let s := s.put R.SEC_STA_BSTAGE 0xF
  let keep (n : Nat) : Bool := s.isK && decide (n ≤ 1)
  let s := forUpTo 20 (fun n x => if keep n then x else
    ((x.put (R.AZL_LSTAT_STATE n) 0).put (R.AZL_LSTAT_INSVC n) 0).putBit R.CLK_LANELK_LK n false) s
  ((s.toHiz).put R.SYS_NODEID_VALID 0).put R.SYS_NODEID_ID 0

/-- The vendor base boots the owner image, or finds none. -/
def State.bootOwner (s : State) : State :=
  let s := s.bootFlag 2
  match s.bootSlot 2 with
  | Option.none => s.imageFailure
  | some n =>
    let h := s.slotHdr 2 n
    let s := (s.extendMeas 1 (digest h)).extendMeas 2 (digest (s.flashBytes 0x01800000 0x200000))
    let s := (s.setSec (fun x => { x with lock12 := true, oSvn := (imgHdr h).svn })).runImage 2 n
    (s.put R.SEC_STA_OSLOT n).put R.SEC_STA_BSTAGE 4

/-- The boot ROM and the vendor base verify the image slots and boot the valid one. DEDUCED (log 239). -/
def State.bootVerify (s : State) : State :=
  let s := (s.wipeDone).setSec (fun x => { x with booted := true })
  let s := s.extendMeas 0 (bytesBE 32 Config.romDigest.toNat)
  if s.store.lcs = 4 then s.imageFailure
  else
    let s := s.bootFlag 1
    match s.bootSlot 1 with
    | Option.none => s.imageFailure
    | some n =>
      let h := s.slotHdr 1 n
      let s := s.extendMeas 0 (digest h)
      let s := (s.setSec (fun x => { x with vendorOk := true, vSvn := (imgHdr h).svn })).runImage 1 n
      let s := (s.put R.SEC_STA_VSLOT n).put R.SEC_STA_BSTAGE 2
      let s := s.when (!s.isK) (s.put R.MEMC_STA_RATE 2)
      if s.store.lcs = 1 ∨ s.store.lcs = 2 then s.bootOwner else s

/-- BOOT_VERIFY (R383): once after each reset, while CC0 is in the boot ROM. -/
def execBootVerify (s : State) : Host.Outcome State Fault Refusal :=
  .next (live s (s.when (!s.sec.booted) s.bootVerify))

/-- MEAS0_LOCK (R384). -/
def execMeas0Lock (s : State) : Host.Outcome State Fault Refusal :=
  .next (live s (s.setSec (fun x => { x with lock0 := true })))

/-- The sectors of an owner slot whose first byte lies in a range are erased. -/
def State.eraseFirst (s : State) (base ofs n : Nat) : State :=
  forEach ((List.range (n / 65536 + 2)).map (fun k => ofs / 65536 + k)) (fun k x =>
    if ofs ≤ 65536 * k ∧ 65536 * k < ofs + n then x.erase (base + 65536 * k) (base + 65536 * (k + 1)) else x) s

/-- An Image segment: its bytes programmed into the owner slot (R386). DEDUCED (log 236). -/
def State.imageSegment (s : State) (slot ofs : Nat) (bytes : List Byte) : State :=
  if bytes.length ≤ 250 ∧ ofs + bytes.length ≤ slotSize 2 then
    (s.eraseFirst (slotBase 2 slot) ofs bytes.length).setFlash (slotBase 2 slot + ofs) bytes
  else s

/-- IMAGE_SEGMENT (R386). -/
def execImageSegment (slot : Fin 2) (ofs : Nat) (bytes : List Byte) (s : State) : Host.Outcome State Fault Refusal :=
  .next (live s (s.when s.recovers (s.imageSegment slot ofs bytes)))

/-- A software reset made by the module itself: at the next drain instant while aligned, else at once (R410).
DEDUCED (log 237). -/
def State.swReset (s : State) : State :=
  if s.lock then { s with pwr := { s.pwr with swPend := true } } else s.softResetNow 3

/-- An Image end: a valid slot resets the module; of the total length it carries, R386 states no use.
DEDUCED (log 236). -/
def State.imageEnd (s : State) (slot : Nat) : State :=
  if s.slotValid 2 slot then s.swReset else s.raiseFlt 5 Flt.SEC_BOOTF

/-- IMAGE_END (R386). -/
def execImageEnd (slot : Fin 2) (_len : Nat) (s : State) : Host.Outcome State Fault Refusal :=
  .next (live s (s.when s.recovers (s.imageEnd slot)))

/-! ### The reservation log (R389, R390) -/

/-- The record of an END. -/
def resvRecord (gen e : Nat) : List Byte :=
  let b := bytesLE 2 0x5E01 ++ bytesLE 2 gen ++ bytesLE 8 e
  b ++ bytesLE 4 (crc32c b).toNat

/-- The END of the record in a slot of the log, where its CRC and generation hold. -/
def State.resvAt (s : State) (pos : Nat) : Option Nat :=
  let e := natLE (s.flashBytes (0x01B00000 + 16 * pos + 4) 8)
  if s.flashBytes (0x01B00000 + 16 * pos) 16 == resvRecord (s.store.gen % 65536) e then some e else Option.none

/-- The slots of the log in which anything is programmed. -/
def State.resvSlots (s : State) : List Nat :=
  s.flash.foldl (fun l c =>
    let p := (c.1 - 0x01B00000) / 16
    if c.1 < 0x01B00000 ∨ 0x01C00000 ≤ c.1 ∨ l.head? = some p then l else p :: l) []

/-- From a good END on, the last of a run of records each exactly 64 above the one before, with its slot. -/
def resvChain (l : List (Nat × Nat)) : Nat → Nat × Nat → Nat × Nat
  | 0, r => r
  | n + 1, r =>
    match l.find? (fun x => x.1 == r.1 + 64) with
    | some x => resvChain l n x
    | Option.none => r

/-- END and slot of the newest valid record. -/
def State.resvNewest (s : State) : Option (Nat × Nat) :=
  let l := s.resvSlots.filterMap (fun p => (s.resvAt p).map (fun e => (e, p)))
  match l with
  | [] => Option.none
  | x :: t => some (resvChain l l.length (t.foldl (fun a b => if b.1 < a.1 then b else a) x))

/-- The slot that the next record takes, from slot `p` on, of the slots `l` in which anything is programmed: past records that did
not verify, up to an empty slot or a sector that the log has filled before (R389). -/
def resvNext (l : List Nat) : Nat → Nat → Nat
  | 0, p => p % 65536
  | n + 1, p =>
    let q := p % 65536
    if !l.contains q || (q % 4096 == 0 && l.contains (q + 4095)) then q else resvNext l n (q + 1)

/-- One try to reserve 64 more indices; whether the record verifies is open. DESIGN CHOICE (log 234). -/
def State.reserve (s : State) : State × Bool :=
  let e := s.get R.SEC_RESV_VAL + 64
  let p := s.sec.pos
  let s := if p % 4096 = 0 then s.erase (0x01B00000 + 16 * p) (0x01B00000 + 16 * p + 65536) else s
  let (z, s) := s.fresh 1
  let s := s.setSec (fun x => { x with pos := (p + 1) % 65536 })
  if z = 0 then ((s.setFlash (0x01B00000 + 16 * p) (resvRecord (s.store.gen % 65536) e)).put R.SEC_RESV_VAL e, true)
  else
    let (junk, s) := s.openBytes 16
    ((s.setFlash (0x01B00000 + 16 * p) junk).raiseFlt 5 Flt.SEC_RESV, false)

/-! ### Signing (R388 to R393) -/

/-- The identity signature may be made now: SIGRDY, fewer than 100 in the last second, the tree complete. -/
def State.maySign (s : State) : Bool :=
  s.on R.SEC_STA_SIGRDY && decide ((s.sec.sigs.filter (fun t => decide (s.fcu.timeNs < t + 1000000000))).length < 100) &&
    decide (s.store.next / 2 ^ 20 < s.store.trees)

/-- NEXTRDY follows the index and the complete lower trees. -/
def State.treeFlag (s : State) : State :=
  s.putB R.SEC_STA_NEXTRDY (s.store.ident && decide (s.store.next / 2 ^ 20 + 2 ≤ s.store.trees))

/-- A signature of `msg` with the next index, which advances; none where the reservation has to be tried again.
DESIGN CHOICE (log 234). -/
def State.idSign (s : State) (msg : List Byte) : State × Option (List Byte) :=
  let (s, ok) := if s.store.next = s.get R.SEC_RESV_VAL then s.reserve else (s, true)
  if !ok then (s, Option.none)
  else
    let i := s.store.next
    let sig := padTo 5605 ((Config.idSign s.store.gen i msg).take 5605)
    let now := s.fcu.timeNs
    let s := s.setSec (fun x => { x with sigs := now :: x.sigs.filter (fun t => decide (now < t + 1000000000)) })
    let s := (s.setStore (fun t => { t with next := i + 1 })).put R.SEC_IDX_VAL (i + 1)
    ((s.incSat R.SEC_SIGC_SIGC).treeFlag, some sig)

/-- SEC.MADDR. -/
def State.maddr (s : State) : Nat := s.get R.SEC_MADDR_ADDR

/-- A command ends: BUSY 0, RES as given. -/
def State.secEnd (s : State) (ok : Bool) (olen : Nat) : State :=
  (((s.setSec (fun x => { x with cmd := Option.none })).put R.SEC_STA_BUSY 0).putB R.SEC_RES_OK ok).put R.SEC_RES_OLEN olen

/-- SIGN, when it completes. -/
def State.secSign (s : State) : State :=
  if !s.maySign then s
  else match s.idSign (s.secBuf 32) with
    | (s, Option.none) => s
    | (s, some sig) => (s.blockStore s.maddr sig).secEnd true 5605

/-- The good Almanac entries below WIDX as it stood at the command. -/
def State.almGood (s : State) : List (List Byte) :=
  ((List.range s.sec.attWidx).map s.almEntry).filter almOk

/-- The least or greatest of the signed 16-bit values of a list; open where there is none. -/
def State.extreme (s : State) (f : Int → Int → Int) (l : List Int) : Nat × State :=
  match l with
  | [] => s.fresh 16
  | x :: t => (ofSigned 16 (t.foldl f x), s)

/-- Bytes 0 to 287 of an attestation report (R394). DEDUCED (log 240). -/
def State.reportBytes (s : State) : List Byte × State :=
  let g := s.almGood
  let v (o : Nat) := g.map (fun b => toSigned 16 (natLE (slice b o 2)))
  let (pdc, s) := s.extreme min (v 20)
  let (pds, s) := s.extreme min (v 22)
  let (tmax, s) := s.extreme max (v 24)
  let w := s.sec.attWidx
  let st := b2n s.sec.opened + 2 * b2n (s.get R.TBS_STA_STATE == 2) + 4 * s.get R.ALM_STA_FULL
  (bytesBE 2 0x0B01 ++ bytesBE 1 s.store.lcs ++ bytesBE 1 st ++ bytesBE 8 Config.serial.toNat ++ bytesBE 2 s.nodeId ++
    bytesBE 1 (s.get R.SYS_STRAP_ROLE) ++ zeros 1 ++ s.secBuf 32 ++ bytesBE 6 s.tick ++ bytesBE 6 (secOf s.tbsNow) ++
    bytesBE 4 (nsOf s.tbsNow) ++ s.meas 0 ++ s.meas 1 ++ s.meas 2 ++ s.meas 3 ++ bytesBE 2 s.sec.vSvn ++
    bytesBE 2 s.sec.oSvn ++ zeros 4 ++ s.sec.attCfg ++ bytesBE 4 (s.get R.ALM_POH_POH) ++
    bytesBE 4 w ++ bytesBE 2 pdc ++ bytesBE 2 pds ++ bytesBE 2 tmax ++ bytesBE 2 (s.get R.ALM_WCNT_WFC) ++
    digest ((List.range w).flatMap s.almEntry) ++ bytesBE 8 s.store.next, s)

/-- ATTEST, when it completes. -/
def State.secAttest (s : State) : State :=
  if !s.maySign then s
  else
    let (b, s) := s.reportBytes
    match s.idSign b with
    | (s, Option.none) => s
    | (s, some sig) => (s.blockStore s.maddr (b ++ sig)).secEnd true 5893

/-! ### The other commands (R384, R387, R393) -/

/-- A refusal of a command or order with a code (R397). -/
def State.refuse (s : State) (code : Nat) : State :=
  (((s.put R.SEC_STA_OERR code).raiseFlt 5 Flt.SEC_OREF)).secEnd false 0

/-- A refusal for want of entropy: the code is open (R388). DEDUCED (log 233). -/
def State.refuseEntropy (s : State) : State :=
  let (z, s) := s.fresh 4
  s.refuse z

/-- NONCE, when it completes: 32 fresh bytes. -/
def State.secNonce (s : State) : State :=
  if s.sec.trng then s.refuseEntropy
  else
    let (z, s) := s.fresh 256
    ((s.putBytes R.SEC_NONCE_WORD 8 (bytesBE 32 z)).setSec (fun x => { x with nonceOk := true })).secEnd true 0

/-- VERIFY, when it completes: the image at MADDR, of the kind it names. DEDUCED (log 235). -/
def State.secVerify (s : State) : State :=
  let k := (imgHdr (s.memBytes s.maddr 128)).kind
  let ok := decide (k = 1 ∨ k = 2) &&
    s.imageOk k (min (slotSize k) (s.get R.SEC_MLEN_LEN)) (fun o n => s.memBytes (s.maddr + o) n)
  (s.raiseIf (!ok) 5 Flt.SEC_VFAIL).secEnd ok 0

/-- EXTEND, when it completes: refused on a locked register. -/
def State.secExtend (s : State) : State :=
  let k := s.get R.SEC_OPARG_MIDX
  let locked := (k == 0 && s.sec.lock0) || ((k == 1 || k == 2) && s.sec.lock12)
  if locked then (s.raiseFlt 5 Flt.SEC_VFAIL).secEnd false 0 else (s.extendMeas k (s.secBuf 32)).secEnd true 0

/-! ### Orders (R396, R397) -/

/-- The states from which an order of a KIND by a SIGNER, 0 vendor or 1 owner, is accepted. -/
def orderFrom (kind signer : Nat) : List Nat :=
  match kind, signer with
  | 1, 0 => [0]
  | 2, 1 => [1]
  | 3, 1 => [1, 2]
  | 4, 1 => [1, 2]
  | 4, 0 => [0, 3]
  | 5, 0 => [3]
  | 6, 0 => [0, 3]
  | 6, 1 => [1]
  | 7, 1 => [1, 2]
  | _, _ => []

/-- The state an order of a KIND leads to. -/
def orderTo (kind lcs : Nat) : Nat :=
  match kind with
  | 1 => 1
  | 2 => 2
  | 3 => 3
  | 4 => 4
  | 5 => 0
  | _ => lcs

/-- The key that verifies an order: any vendor key not revoked, or the owner root key. -/
def State.orderSig (s : State) (b : List Byte) : Bool :=
  (s.imgKeys (if byteAt b 3 = 0 then 1 else 2)).any (fun k => Config.xmssVerify k (b.take 120) (slice b 120 2820))

/-- The refusal codes of every condition of R397 that an order fails; in Field every debug unlock is refused with
code 5 (R400). DEDUCED (log 232). -/
def State.orderFails (s : State) (b : List Byte) : List Nat :=
  let kind := byteAt b 2
  let signer := byteAt b 3
  let from' := byteAt b 44
  let both := orderFrom kind 0 ++ orderFrom kind 1
  let fmt := natLE (slice b 0 2) == 0x0C01 && decide (1 ≤ kind ∧ kind ≤ 7 ∧ signer ≤ 1)
  if fmt && kind == 6 && s.store.lcs == 2 then [5] else
  (if fmt then [] else [1]) ++
  (if s.orderSig b then [] else [2]) ++
  (if natLE (slice b 4 8) == Config.serial.toNat then [] else [3]) ++
  (if s.sec.nonceOk && slice b 12 32 == s.wordBytes R.SEC_NONCE_WORD 8 then [] else [4]) ++
  (if from' == s.store.lcs && both.contains s.store.lcs then [] else [5]) ++
  (if both.contains s.store.lcs && !(orderFrom kind signer).contains s.store.lcs then [6] else []) ++
  (if kind == 5 && decide (16 ≤ s.store.passes) then [7] else [])

/-- The nonce has served its one ORDER (R397). -/
def State.spendNonce (s : State) : State :=
  (s.putBytes R.SEC_NONCE_WORD 8 []).setSec (fun x => { x with nonceOk := false })

/-- An accepted transition: the OTP state is burnt, and the erasure is under way until the reset that ends it (R398). -/
def State.secTransition (s : State) (kind : Nat) (key : List Byte) : State :=
  let dest := orderTo kind s.store.lcs
  let s := s.setStore (fun t => { t with
    lcs := dest, passes := if kind = 5 then t.passes + 1 else t.passes, wipe := kind
    ownerKey := if kind = 1 then some key else t.ownerKey
    gen := if kind = 1 then t.gen + 1 else t.gen, ident := if kind = 1 then false else t.ident
    making := kind == 1 || t.making
    trees := if kind = 1 then 0 else t.trees, next := if kind = 1 then 0 else t.next })
  (s.put R.SEC_STA_LCS dest).setSec (fun x => { x with trans := true })

/-- An accepted debug unlock: the port opens and MEAS0 says so (R384, R400). -/
def State.debugOpen (s : State) (scope : Nat) : State :=
  (((s.put R.SEC_STA_DBGOPEN 1).put R.SEC_DBG_SCOPE scope).extendMeas 0 (List.replicate 32 0xDB)).setSec
    (fun x => { x with opened := true })

/-- ORDER, when it completes. A transition keeps BUSY until its reset. DEDUCED (log 232). -/
def State.secOrder (s : State) : State :=
  let b := s.secBuf 2940
  let kind := byteAt b 2
  let bad := s.orderFails b
  let s := s.spendNonce
  match bad with
  | [] =>
    match kind with
    | 6 => (s.debugOpen (byteAt b 45 % 4)).secEnd true 0
    | 7 => (s.setStore (fun t => { t with newKey := some (slice b 48 68) })).secEnd true 0
    | _ => if kind = 1 ∧ s.sec.trng = true then s.refuseEntropy else s.secTransition kind (slice b 48 68)
  | [c] => s.refuse c
  | l =>
    let (z, s) := s.fresh 8
    s.refuse (nth l (z % l.length) 1)

/-! ### Starting and completing commands -/

/-- A command written to SEC.CMD: refused while another runs (R393). ATTEST takes the configuration digest and WIDX at
its command (R394). DEDUCED (log 232, 240). -/
def State.secStart (s : State) (c : SecCmd) : State :=
  if s.on R.SEC_STA_BUSY then (s.put R.SEC_STA_OERR 8).raiseFlt 5 Flt.SEC_OREF
  else
    let s := s.when (c == .attest) (s.setSec (fun x => { x with
      attCfg := digest (s.flashBytes 0x01800000 0x200000), attWidx := s.get R.ALM_STA_WIDX }))
    (s.setSec (fun x => { x with cmd := some c })).put R.SEC_STA_BUSY 1

/-- The command that runs completes, or goes on waiting (R389, R391 to R393). -/
def State.secDone (s : State) : State :=
  if s.sec.trans then s
  else match s.sec.cmd with
    | Option.none => s
    | some .nonce => s.secNonce
    | some .verify => s.secVerify
    | some .sign => s.secSign
    | some .attest => s.secAttest
    | some .extend => s.secExtend
    | some .order => s.secOrder

/-- NONCE (R393). -/
def execNonce (s : State) : Host.Outcome State Fault Refusal := .next (live s (s.secStart .nonce))
/-- VERIFY (R393). -/
def execVerify (s : State) : Host.Outcome State Fault Refusal := .next (live s (s.secStart .verify))
/-- SIGN (R393). -/
def execSign (s : State) : Host.Outcome State Fault Refusal := .next (live s (s.secStart .sign))
/-- ATTEST (R394). -/
def execAttest (s : State) : Host.Outcome State Fault Refusal := .next (live s (s.secStart .attest))
/-- EXTEND (R384). -/
def execExtend (s : State) : Host.Outcome State Fault Refusal := .next (live s (s.secStart .extend))
/-- ORDER (R397). -/
def execOrder (s : State) : Host.Outcome State Fault Refusal := .next (live s (s.secStart .order))

/-- A command that completes at once: refused while another runs. DESIGN CHOICE (log 30). -/
def State.secNow (s : State) (f : State → State) : State :=
  if s.on R.SEC_STA_BUSY then (s.put R.SEC_STA_OERR 8).raiseFlt 5 Flt.SEC_OREF else f s

/-- MLOCK: MEAS1 and MEAS2 are locked. DESIGN CHOICE (log 30). -/
def State.mlock (s : State) : State := s.secNow (fun s => (s.setSec (fun x => { x with lock12 := true })).secEnd true 0)

/-- MLOCK (R384). -/
def execMlock (s : State) : Host.Outcome State Fault Refusal := .next (live s s.mlock)

/-- SVNCOMMIT: the minimum of OPARG.SVNK rises to the booted SVN; that of the vendor can rise 64 times (R387).
DESIGN CHOICE (log 30). DEDUCED (log 233). PRESUMED (log 238). -/
def State.svnCommit (s : State) : State :=
  s.secNow (fun s =>
    let own := s.on R.SEC_OPARG_SVNK
    let v := if own then s.sec.oSvn else s.sec.vSvn
    if v ≤ s.minSvn (if own then 2 else 1) ∨ (own = false ∧ 64 ≤ s.store.rises) then
      let (z, s) := s.fresh 4
      s.refuse z
    else
      let s := s.setStore (fun t => if own then { t with ownerSvn := v } else { t with vendorSvn := v, rises := t.rises + 1 })
      (if own then s.put R.SEC_SVN_OWNER v else s.put R.SEC_SVN_VENDOR v).secEnd true 0)

/-- SVNCOMMIT (R387). -/
def execSvnCommit (s : State) : Host.Outcome State Fault Refusal := .next (live s s.svnCommit)

/-- SEC_COMMAND_DONE (R393). -/
def execSecCommandDone (s : State) : Host.Outcome State Fault Refusal := .next (live s s.secDone)

/-! ### Trees, entropy, transitions (R388 to R391, R398) -/

/-- TOP_TREE_DONE (R388): the identity that a provisioning ordered is complete. -/
def State.topTree (s : State) : State :=
  s.when (decide (s.store.lcs = 1 ∨ s.store.lcs = 2) && s.store.making && !s.store.ident && !s.sec.trans)
    (((s.setStore (fun t => { t with ident := true, making := false })).put R.SEC_STA_IDVALID 1).putBytes R.SEC_IDPK_WORD 17
      (padTo 68 ((Config.idKey s.store.gen).take 68)))

/-- TOP_TREE_DONE (R388). -/
def execTopTreeDone (s : State) : Host.Outcome State Fault Refusal := .next (live s s.topTree)

/-- The next lower tree is complete: the first after the top tree, tree t + 1 once tree t is in use (R391). -/
def State.lowerTree (s : State) : State :=
  let t := s.store.next / 2 ^ 20
  s.when (s.store.ident && (s.store.trees == 0 || (decide (s.store.trees ≤ t + 1) && decide (t * 2 ^ 20 < s.store.next)) ||
      decide (s.store.trees ≤ t)))
    (s.setStore (fun x => { x with trees := x.trees + 1 })).treeFlag

/-- LOWER_TREE_DONE (R391). -/
def execLowerTreeDone (s : State) : Host.Outcome State Fault Refusal := .next (live s s.lowerTree)

/-- SUBTREE_REBUILD_DONE (R390). -/
def execSubtreeRebuildDone (s : State) : Host.Outcome State Fault Refusal :=
  .next (live s (s.when (s.store.ident && decide (s.store.next / 2 ^ 20 < s.store.trees)) (s.put R.SEC_STA_SIGRDY 1)))

/-- TRANSITION_WIPE_DONE (R398): the erasure is complete, the marker written, and the module resets.
DEDUCED (log 237). -/
def execTransitionWipeDone (s : State) : Host.Outcome State Fault Refusal :=
  .next (live s (s.when s.sec.trans ((s.wipeDone).softResetNow 3)))

/-- ENTROPY_FAILURE (R388). -/
def execEntropyFailure (s : State) : Host.Outcome State Fault Refusal :=
  .next (live s ((s.setSec (fun x => { x with trng := true })).raiseFlt 5 Flt.SEC_TRNG))

/-! ### Leaving reset -/

/-- A key store that fails its tag is treated as absent (R381, R387). DESIGN CHOICE (log 231). -/
def State.sealFails (s : State) : State :=
  (s.setStore (fun t => { t with
    ownerKey := Option.none, newKey := Option.none, ident := false, making := false, trees := 0, ownerSvn := 0 })).raiseFlt 5 Flt.SEC_SEAL

/-- The registers of the SEC as a reset release loads them, from the store `v` as it is once an erasure that was cut short has
been completed (R390, R398, R402). -/
def State.secLoad (s v : State) : State :=
  let old := s.store.next
  let (e, p) := (v.resvNewest.map (fun r => (r.1, r.2 + 1))).getD (0, 0)
  let s := (s.setStore (fun t => { t with next := e })).setSec (fun x => { x with pos := resvNext v.resvSlots 65536 p })
  let s := ((s.put R.SEC_IDX_VAL e).put R.SEC_RESV_VAL e).put R.SEC_SKIP_SKIP (min 64 (e - old))
  let s := ((s.put R.SEC_STA_LCS s.store.lcs).put R.SEC_SVN_OWNER v.store.ownerSvn).put R.SEC_SVN_VENDOR s.store.vendorSvn
  s.when v.store.ident
    ((s.put R.SEC_STA_IDVALID 1).putBytes R.SEC_IDPK_WORD 17 (padTo 68 ((Config.idKey s.store.gen).take 68))).treeFlag

/-- What the SEC does at a reset release: the key store, the newest reservation, and a pending owner key (R390, R397,
R402). Whether the key store's tag holds is open (R381). DESIGN CHOICE (log 8, 231). DEDUCED (log 237). -/
def State.secBoot (s : State) : State :=
  let s := s.setStore (fun t => { t with ownerKey := t.newKey.orElse (fun _ => t.ownerKey), newKey := Option.none })
  let (z, s) := s.fresh 1
  let s := if z = 0 then s else s.sealFails
  s.secLoad (if s.store.wipe = 0 then s else s.wipeFor s.store.wipe)

/-- The reset wipe is complete: every volatile memory is zero, CC0 starts in the boot ROM, the ALM and the SEC have
read the flash (R216, R399). DEDUCED (log 239). -/
def State.wipeComplete (s : State) : State :=
  let s : State := { s with
    phase := .run, mem := [], bad := [], soft := [], tickNs := 0, cores := CoreState.fresh }
  let s := s.put R.DSX_CRUN_RUNNING 1
  let s := s.when (decide (s.role ≠ .cell)) (s.put R.MEMC_STA_RATE 1)
  (s.almBoot).secBoot

/-- RESET_WIPE_COMPLETE (R399). DEDUCED (log 7). -/
def execResetWipeComplete (s : State) : Host.Outcome State Fault Refusal :=
  match s.phase with
  | .wiping => .next (s.fioOp State.wipeComplete)
  | _ => .next s

end Sys2Proof.Machine
end

