-- ==== Sys2Proof/Machine/Tick.lean ====
section
/-! DEFINITION. The boundary between two ticks (chapter "The tick: phases, deadlines and the boundary drain"): commits
and what they refuse, the Strike, the local tick instant, Eve and the drain. -/

namespace Sys2Proof.Machine

/-! ### Commits (R57, R58, R433) -/

/-- The keys of page `p`. -/
def keyOnPage (p k : Nat) : Bool := decide (0x20000 * p ≤ k ∧ k < 0x20000 * (p + 1))

/-- A value is staged for the field. -/
def State.isStaged (s : State) (f : Fld) : Bool := alHas s.staged f.key

/-- The staged values of refused fields are dropped: each becomes the value in force (R58). -/
def State.unstage (s : State) (l : List Fld) : State :=
  { s with staged := s.staged.filter (fun e => !l.any (fun f => f.key == e.1)) }

/-- Every staged value of page `p` takes force. -/
def State.takeStaged (s : State) (p : Nat) : State :=
  { s with
    regs := (s.staged.filter (fun e => keyOnPage p e.1)).foldl (fun r e => alPut r e.1 e.2) s.regs
    staged := s.staged.filter (fun e => !keyOnPage p e.1) }

/-- A new TP on the active Conductor: refused, announced, or applied before any Strike exists (R34, R35).
DEDUCED (log 44). -/
def State.commitPer (s : State) : State :=
  let v := s.stagedOf R.TCK_PER_PER
  let had := s.isStaged R.TCK_PER_PER
  let s := s.unstage [R.TCK_PER_PER]
  if !had || !(s.isC && s.active) || v == s.get R.TCK_PER_PER then s
  else if v < 400 ∨ 10000 < v ∨ v < s.get R.TCK_MINP_MINP ∨ s.on R.TCK_STAT_TPCHG then s.put R.TCK_STAT_PERR 1
  else if !s.lock then (s.put R.TCK_PER_PER v).dsxIssue 0x16 1
  else (({ s with tck := { s.tck with tpLeft := 32 } } : State).put R.TCK_PNEW_PNEW v).put R.TCK_STAT_TPCHG 1

/-- TCK (R34, R35, R59). DEDUCED (log 44). -/
def State.refuseTck (s : State) : State :=
  let s := s.commitPer
  if s.stagedOf R.TCK_HOLD_HOLDLIM = 0 then (s.unstage [R.TCK_HOLD_HOLDLIM]).put R.TCK_STAT_PERR 1 else s

/-- PWM: dead time and shortest pulse (R240), and VNOM (R125). -/
def State.refusePwm (s : State) : State :=
  let s := if pwmDtOk (s.stagedOf R.PWM_DT_DT) (s.stagedOf R.PWM_DT_MINP) then s
    else (s.unstage [R.PWM_DT_DT, R.PWM_DT_MINP]).put R.PWM_GSTA_PERR 1
  if s.stagedOf R.PWM_KNOM_VNOM = 0 then s.unstage [R.PWM_KNOM_VNOM] else s

/-- ADC: a Cell's Strike conversion keeps full rate (R264). DEDUCED (log 254). -/
def State.refuseAdc (s : State) : State :=
  if s.isK && s.stagedOf R.ADC_CFG_LP == 1 && s.stagedOf R.ADC_CFG_STREN == 1 then
    ((s.unstage [R.ADC_CFG_LP]).put R.ADC_CFG_LP 0).put R.ADC_CSTA_PERR 1
  else s

/-- The dimension fields of instance `i`. -/
def idimFields (i : Nat) : List Fld := [R.CLE_IDIM_NX i, R.CLE_IDIM_NU i, R.CLE_IDIM_NY i, R.CLE_IDIM_NR i]

/-- A dimension out of range keeps CLE.IDIMi (R178). -/
def State.refuseDims (s : State) (i : Nat) : State :=
  if cleDimsOk (s.stagedOf (R.CLE_IDIM_NX i)) (s.stagedOf (R.CLE_IDIM_NU i)) (s.stagedOf (R.CLE_IDIM_NY i))
      (s.stagedOf (R.CLE_IDIM_NR i)) then s
  else (s.unstage (idimFields i)).put R.CLE_FLG_PERR 1

/-- The instances that the enabled channels would name, in channel order. DEDUCED (log 254). -/
def State.pointersNext (s : State) : List Nat :=
  ((List.range 32).filter (fun n => s.stagedOf (R.CLE_CCFG_EN n) == 1)).map (fun n => s.stagedOf (R.CLE_CINST_INST n))

/-- CLE: dimensions and pointers (R166, R167). DEDUCED (log 254). -/
def State.refuseCle (s : State) : State :=
  let s := forUpTo 32 (fun i x => x.refuseDims i) s
  let l := s.pointersNext
  if l.any (fun i => decide (2 ≤ l.countP (· == i))) then
    (s.unstage ((List.range 32).map R.CLE_CINST_INST)).put R.CLE_FLG_PTRERR 1
  else s

/-- PGN: a refused limit keeps the three limits of its channel (R173). -/
def State.refusePgn (s : State) : State :=
  forUpTo 16 (fun c x =>
    if pgnLimitsOk (x.stagedOf (R.PGN_VMAX_VMAX c)) (x.stagedOf (R.PGN_AMAX_AMAX c)) (x.stagedOf (R.PGN_JMAX_JMAX c)) then x
    else (x.unstage [R.PGN_VMAX_VMAX c, R.PGN_AMAX_AMAX c, R.PGN_JMAX_JMAX c]).put R.PGN_FLG_PERR 1) s

/-- ALM: a plan is accepted or refused as a whole (R345, R346). DEDUCED (log 109). -/
def State.commitPlan (s : State) : State :=
  let l := [R.ALM_PLAN_GBC, R.ALM_PLAN_GBS, R.ALM_PLAN_DREF]
  if !l.any s.isStaged then s
  else if s.planOk then s.planApply.unstage l
  else (s.unstage l).raiseFlt 4 Flt.ALM_PREF

/-- RSE: instance 1 stays disabled in one-arm mode (R150). -/
def State.refuseRse (s : State) : State := if Config.twoArm then s else s.unstage [R.RSE_CFG_EN 1]

/-- What the commit of page `p` refuses. -/
def State.refuseStaged (s : State) (p : Nat) : State :=
  if p = 4 then s.commitPlan
  else if p = 7 then s.refuseTck
  else if p = 0x0D then s.refusePgn
  else if p = 0x0E then s.refuseCle
  else if p = 0x0F then s.refuseRse
  else if p = 0x14 then s.refusePwm
  else if p = 0x15 then s.refuseAdc
  else s

/-- Channel `n` after a commit, `old` being the state before it: a changed pointer transfers the state where XFER is
set, and the next evaluation is the first (R167, R169). -/
def State.cleChanged (s old : State) (n : Nat) : State :=
  let a := old.cleInst n
  let b := s.cleInst n
  let s := if a != b && s.on (R.CLE_CCFG_XFER n) then s.cleTransfer a b else s
  let fresh := a != b || (s.on (R.CLE_CCFG_EN n) && !old.on (R.CLE_CCFG_EN n))
  if fresh && !s.cle.first.contains n then { s with cle := { s.cle with first := n :: s.cle.first } } else s

/-- Instance `a` after a commit: a change of EN, VREFSEL or TRIMEN sets the residue to 0, and an enable starts without a
command, a key list or a mean voltage (R131, R135, R149). -/
def State.rseChanged (s old : State) (a : Nat) : State :=
  let en := s.on (R.RSE_CFG_EN a)
  let was := old.on (R.RSE_CFG_EN a)
  let ch := en != was || s.get (R.RSE_CFG_VREFSEL a) != old.get (R.RSE_CFG_VREFSEL a) ||
    s.get (R.RSE_CFG_TRIMEN a) != old.get (R.RSE_CFG_TRIMEN a)
  if !ch then s
  else
    let x := { s.inst a with rho := 0 }
    let x := if en && !was then { x with ksel := 0, vmean := Option.none, expNow := Option.none, dirs := [0, 0, 0, 0] } else x
    (s.setInst a x).put (R.RSE_RHO_RHO a) 0

/-- What the commit of page `p` does beside applying its fields. -/
def State.committed (s old : State) (p : Nat) : State :=
  if p = 6 then s.tbsSrcChange old.tbsSrc
  else if p = 0x0B then s.when (s.get R.RED_CFG_RVH == 0) { s with red := { s.red with revReq := false } }
  else if p = 0x0C then s.armEnabled
  else if p = 0x0E then forUpTo 32 (fun n x => x.cleChanged old n) s
  else if p = 0x0F then forEach [0, 1] (fun a x => x.rseChanged old a) s
  else s

/-- The commit of page `p` applies (R58). -/
def State.applyPage (s : State) (p : Nat) : State :=
  let t := s.refuseStaged p
  let t := ((t.takeStaged p).committed s p).incWrap (R.SEQ p)
  (t.putB (R.PEND p) (t.tck.later.contains p)).putB (R.LATE p) (t.tck.later.contains p)

/-- A list with a page in it. -/
def withPage (p : Nat) (l : List Nat) : List Nat := if l.contains p then l else l ++ [p]

/-- A commit is registered on page `p` (R57, R433): from the closing of Eve on it applies one tick later.
DEDUCED (log 45). -/
def State.commitPage (s : State) (p : Nat) : State :=
  if !pageDefined p || s.gated p || s.frozenPage p || s.on (R.SRB p) then s
  else
    let late := s.lock && decide (s.eveNs ≤ s.tickNs)
    let s := if late then ({ s with tck := { s.tck with later := withPage p s.tck.later } } : State).put (R.LATE p) 1
      else { s with tck := { s.tck with due := withPage p s.tck.due } }
    s.put (R.PEND p) 1

/-- COMMIT (R57). -/
def execCommit (page : Fin 64) (s : State) : Host.Outcome State Fault Refusal := .next (live s (s.commitPage page))

/-- A pending commit applies without a Strike (R433). -/
def State.commitUnlocked (s : State) (p : Nat) : State :=
  if s.lock || !(s.tck.due.contains p || s.tck.later.contains p) then s
  else
    ({ s with tck := { s.tck with
        due := s.tck.due.filter (fun q => q != p), later := s.tck.later.filter (fun q => q != p) } } : State).applyPage p

/-- COMMIT_APPLY_UNLOCKED (R433). DEDUCED (log 45). -/
def execCommitApplyUnlocked (page : Fin 64) (s : State) : Host.Outcome State Fault Refusal :=
  .next (live s (s.commitUnlocked page))

/-- The commits that are due apply; those registered after Eve are due at the next Strike.
DEDUCED (log 45). -/
def State.commitsDue (s : State) : State :=
  let due := s.tck.due
  let s := forEach due (fun p x => x.applyPage p) s
  { s with tck := { s.tck with due := s.tck.later, later := [] } }

/-- WEIGHTS_MESSAGE (R147): the key weights are written and committed on the PWM page. -/
def execWeightsMessage (age stick : BitVec 16) (s : State) : Host.Outcome State Fault Refusal :=
  .next (live s (s.when s.isK
    (((s.stage R.PWM_KWGT_AGE age.toNat).stage R.PWM_KWGT_STICK stick.toNat).commitPage 0x14)))

/-! ### The end of a tick -/

/-- The next boundary without a move, in 2^-40 ns of module time from the last one: TP after it, which the active Conductor
measures in system time without its steps, the rest of it at the rate now in force (R34, R271). DESIGN CHOICE (log 76). -/
def State.tickUnits (s : State) : Int :=
  if s.isC && s.active && s.en 6 then
    let left : Int := s.tp * 2 ^ 40 - (s.tck.sys + s.tbs.rem * 2 ^ 40)
    s.tickNs * 2 ^ 40 + left * 2 ^ 42 / ((2 ^ 42 : Int) + s.fadj)
  else s.tp * 2 ^ 40 + s.tck.frac

/-- The boundary comes TP after the last one, moved by the alignment (R34, R118, R271). DESIGN CHOICE (log 76). -/
def State.toBoundary (s : State) : State :=
  let q : Int := s.tickUnits + s.tck.move * 2 ^ 32
  let s := s.toInstant (q / 2 ^ 40).toNat
  let frac := (q % 2 ^ 40).toNat
  { s with tickNs := 0, tck := { s.tck with frac := frac, move := 0, sys := -(s.tbs.rem * 2 ^ 40 + frac : Nat) } }

/-- The message in progress on each ring, the first of it, waits a tick more for the acknowledgement of a segment it has sent
(R104); `seen` are the rings met. -/
def ageSegs (seen : List Nat) : List SegTx → List SegTx
  | [] => []
  | m :: t =>
    let r := nodeRing m.dst
    (if m.acked < m.next ∧ seen.contains r = false then { m with stall := m.stall + 1 } else m) :: ageSegs (r :: seen) t

/-- What the frame unit keeps of one tick only, and the lanes and measurements that count ticks. -/
def State.frameTick (s : State) : State :=
  let s := ((s.enumStrike.lanesTell).linksTick).lanesTick
  let s := s.put R.AZF_TSTA_TVALID 0
  { s with azf := { s.azf with
      slotSent := false, harvSeen := false, cmdSeen := false, timSeen := false, copySeen := false
      pick := Option.none, tnum := Option.none
      segTx := ageSegs [] s.azf.segTx
      outbox := s.azf.outbox.map (fun m => { m with age := m.age + 1 }) } }

/-- TCK.LAST of the tick that ends (R59); with two arms it shows the arm that began or launched last, and after a tick
without a Decide begin or a launch it reads 0. DESIGN CHOICE (log 29). -/
def State.lastTick (s : State) : State :=
  let t := (s.put R.TCK_LAST_HDONE (s.azf.hdone / 10)).put R.TCK_LAST_CMDAT (s.azf.cmdat / 10)
  { t with azf := { t.azf with hdone := 0, cmdat := 0 } }

/-- The Repeats of arm `a` are a tick older, and the conditions of R50 that no longer hold have ended.
DEDUCED (log 47). -/
def State.ageRepeats (s : State) (a : Nat) : State :=
  let l0 := nth s.tck.repeats a []
  let l := (l0.map (fun n => n + 1)).filter (fun n => decide (n < 1000))
  let rep := bitOf s.rse.reps a
  let n := if rep then nth s.tck.cons a 0 else 0
  let s : State := { s with tck := { s.tck with
      repeats := setNth s.tck.repeats a l []
      cons := setNth s.tck.cons a n 0
      consHeld := setNth s.tck.consHeld a (rep && nth s.tck.consHeld a false) false
      winHeld := setNth s.tck.winHeld a (nth s.tck.winHeld a false && decide (8 ≤ l0.length)) false } }
  if a = 0 then (s.put R.TCK_RPT_CONS0 (min 3 n)).put R.TCK_RPT_WIN0 l.length
  else (s.put R.TCK_RPT_CONS1 (min 15 n)).put R.TCK_RPT_WIN1 l.length

/-- Instance `x` at the Strike: the command of the tick that ends is the one in force. DEDUCED (log 93). -/
def RseInst.strike (x : RseInst) : RseInst :=
  { x with
    dirs := x.dirNext :: x.dirs.take 3, trimNow := x.trimNext, trimNext := 0, expNow := x.expNext
    expNext := Option.none, cmd := Option.none, dirNext := 0 }

/-- The Section's account at the Strike: what the registers show of a tick begins anew (R127, R141, R150).
DEDUCED (log 97). -/
def State.rseStrike (s : State) : State :=
  let s := forEach [0, 1] (fun a x => (x.showNone a []).put (R.RSE_ERR_NMISS a) 0) s
  { s with rse := { s.rse with
      cells := s.rse.cells.map (fun p =>
        (p.1, { p.2 with left := p.2.left || p.2.leaveDone, leaveDone := false }))
      acc := [], dup := [], prev := s.rse.copies, copies := [], inst := s.rse.inst.map RseInst.strike
      begun := 0, counted := 0, downs := 0, reps := 0, seen := 0 } }

/-- An announced TP counts down and switches at the boundary that TPCD names (R35). -/
def State.tpStrike (s : State) : State :=
  match s.tck.tpLeft with
  | 0 => s
  | 1 =>
    let s := ({ s with tck := { s.tck with tpLeft := 0 } } : State).put R.TCK_PER_PER (s.get R.TCK_PNEW_PNEW)
    ((s.put R.TCK_PNEW_PNEW 0).put R.TCK_STAT_TPCHG 0).acqTp
  | n + 2 => { s with tck := { s.tck with tpLeft := n + 1 } }

/-- The tick number of the Strike: the one the Timing frame gives, or one more than the last; the first Strike since
reset keeps 0 (R36, R118). DEDUCED (log 43). -/
def State.numStrike (s : State) (tnum : Option Nat) : State :=
  let s := match tnum with
    | some n => s.put R.TCK_NUM_NUM n
    | Option.none => if s.tck.struck then s.incWrap R.TCK_NUM_NUM else s
  { s with tck := { s.tck with struck := true }, alm := { s.alm with locked := true } }

/-- The Strike in carrier mode: held outputs take their levels again, and with SYNC the counter restarts at 0 (R245,
R249, R252). -/
def State.carrierSync (s : State) : State :=
  let s := s.when s.carrierRuns s.revive
  let waited := s.pwm.wait
  let s : State := { s with pwm := { s.pwm with wait := waited && s.frozen } }
  if s.on R.PWM_CCFG_SYNC && s.carrierRuns then
    ({ s with pwm := { s.pwm with phase := 0, begun := true } } : State).carrierBegin
  else s.when (waited && s.carrierRuns) s.carrierDrive

/-- The Strike itself; `commits` is false at the boundary at which LOCK has just been set (R37, R433). -/
def State.strikeNow (s : State) (commits : Bool) (tnum : Option Nat) : State :=
  let tpq := s.tpq
  let switch := s.tck.tpLeft == 1
  let s := (s.trimEdge).shiftOff tpq
  let s := ((s.toBoundary).numStrike tnum).tpStrike
  let s := s.dsxIssues ((0x10, 1) :: if switch then [(0x16, 1)] else [])
  let s := (s.lastTick.ageRepeats 0).ageRepeats 1
  let s := s.rseStrike.seqIdle
  let s := if commits then s.commitsDue else s
  let s := s.redStrike.trajPeriod
  let s := if s.isC && s.active then s.put R.TCK_STAT_ALGN 0 else s
  let s := ((s.tbsStrike.adcStrike).when s.isK (s.tbsStrike.adcStrike).cellStrike).carrierSync
  let s := forEach arms (fun a x => x.trajTake a) s
  let s := s.pgnStrike
  { s with rse := { s.rse with allowed := s.decideArms }, cle := { s.cle with finished := [] } }

/-- The local tick instant of a node without alignment: an announced TP runs down at it too (R35, R36). DEDUCED (log 43). -/
def State.localInstant (s : State) : State :=
  let switch := s.tck.tpLeft == 1
  let s := (s.toBoundary).tpStrike
  (s.when switch (s.dsxIssue 0x16 1)).acqGap

/-- A boundary of the tick: alignment first, then the Strike, or the local tick instant of a node without one; where LOCK has
fallen, a software reset that waited for the drain takes effect (R36, R118, R410). DEDUCED (log 43). -/
def State.boundary (s : State) : State :=
  let was := s.lock
  let s := (s.when (!s.isK) s.nodeOffset).alignTick.acqTick
  let tnum := s.azf.tnum
  let s := if s.lock then s.strikeNow was tnum else s.localInstant
  s.frameTick.swNow

/-- ALIGNMENT_LOST (R118): the tick under way ends as the 16th without an in-band frame, or with the third outlier, which is
counted and discarded; a software reset that waited for the drain takes effect (R410). -/
def execAlignmentLost (s : State) : Host.Outcome State Fault Refusal :=
  let band := match s.azf.pick with
    | some p => p.inBand
    | Option.none => false
  let third := s.azf.pick.isSome && decide (2 ≤ s.azf.align.outl)
  let t := if s.azf.pick.isSome then s.incSat R.AZF_TSTA_OUTL else s
  .next (live s (s.when (s.follows && s.aligned && !band && (third || decide (15 ≤ s.azf.align.noBand)))
    ({ t with azf := { t.azf with pick := Option.none } } : State).alignLost.swNow))

/-- STRIKE (R37). -/
def execStrike (s : State) : Host.Outcome State Fault Refusal := .next (live s (s.when s.lock s.boundary))

/-- LOCAL_TICK_INSTANT (R36). DEDUCED (log 43). -/
def execLocalTickInstant (s : State) : Host.Outcome State Fault Refusal :=
  .next (live s (s.when (!s.lock) s.boundary))

/-! ### Eve and the drain -/

/-- EVE_CLOSE (R37, R57): triggers still queued are late, the redundancy unit judges the partner, and a Cell's decision
stands. -/
def execEveClose (s : State) : Host.Outcome State Fault Refusal :=
  .next (live s (s.when s.lock (
    let t := ((((s.toInstant s.eveNs).dsxIssue 0x14 1).cleEve).seEve).redEve
    t.when t.isK t.showDecision)))

/-- The tick-scoped state of the Section and the frames in flight are discarded (R55). -/
def State.drain (s : State) : State :=
  let s := (((s.toInstant s.drainNs).dsxIssue 0x15 1).azfDrain).dsxDrain
  let s : State := { s with
    rse := { s.rse with acc := [], dup := [], inst := s.rse.inst.map (fun x => { x with cmd := Option.none }) } }
  s.drainReset

/-- DRAIN_INSTANT (R55). -/
def execDrainInstant (s : State) : Host.Outcome State Fault Refusal := .next (live s (s.when s.lock s.drain))

end Sys2Proof.Machine
end

