-- ==== Sys2Proof/Machine/Page.lean ====
section
/-! DEFINITION. The common page header (chapter "Register map and common page layout"): enabling and disabling a block,
its soft reset, and the count of its routed faults (R428, R430 to R432). -/

namespace Sys2Proof.Machine

/-- Page `p` is a defined page that answers in the latched role and is not in a soft reset. -/
def State.pageLive (s : State) (p : Nat) : Bool :=
  pageDefined p && !s.gated p && !s.frozenPage p && !s.on (R.SRB p)

/-- WERR of page `p`. -/
def State.werr (s : State) (p : Nat) : State := s.put (R.WERR p) 1

/-! ### Enable and disable (R430) -/

/-- The tick generator stops: no Strike exists, and a Cell holds its gates off (R36, R441).
DEDUCED (log 43). -/
def State.tckStop (s : State) : State :=
  let s := (s.put R.TCK_STAT_LOCK 0).put R.TCK_STAT_ALGN 0
  let s := s.setAlign { s.azf.align with good := 0, outl := 0, noBand := 0 }
  let s : State := { s with cell := { s.cell with cmd := .none } }
  s.when s.isK s.gatesHeld

/-- The tick generator of a Conductor starts: its Strikes begin, and a pending commit waits for the first whose Eve it
precedes (R433, R441); a plan needs PREF from now on (R345). -/
def State.tckStart (s : State) : State :=
  let s : State := { s.put R.TCK_STAT_LOCK 1 with alm := { s.alm with locked := true } }
  s.when (decide (s.eveNs ≤ s.tickNs)) { s with tck := { s.tck with due := [], later := s.tck.due ++ s.tck.later } }

/-- What setting CTL.EN of page `p` starts. -/
def State.onEnable (s : State) (p : Nat) : State :=
  if p = 6 then { s.put R.TBS_STA_STATE 0 with tbs := { s.tbs with lastRef := Option.none, confirm := 0 } }
  else if p = 7 then s.when s.isC s.tckStart
  else if p = 0x0C then s.acqEnable
  else if p = 0x14 then s.when (!s.heldOff) s.pwmEnable
  else if p = 0x18 then s.wireMeetAll
  else if 0x20 ≤ p ∧ p ≤ 0x33 then s.laneWake (p - 0x20)
  else s

/-- What clearing CTL.EN of page `p` stops. -/
def State.onDisable (s : State) (p : Nat) : State :=
  if p = 7 then s.tckStop.swNow
  else if p = 0x0B then s.redDisabled
  else if p = 0x0C then s.acqDisable
  else if p = 0x0E then { s with cle := { s.cle with queue := [], run := Option.none } }
  else if 0x10 ≤ p ∧ p ≤ 0x13 then s.seEnd (p - 0x10)
  else if p = 0x14 then s.toHiz
  else if p = 0x15 then
    ({ s with adc := { s.adc with conv := [Option.none, Option.none], waiting := [[], []] } } : State).put
      R.ADC_CSTA_CALBUSY 0
  else if p = 0x18 then s.wireMeetAll
  else if 0x20 ≤ p ∧ p ≤ 0x33 then s.laneOff (p - 0x20)
  else s

/-- CTL.EN of page `p` is set. -/
def State.enable (s : State) (p : Nat) : State :=
  if s.en p || pageFixed p then s
  else if p = 0x16 then s.fioOp (fun s => s.put (R.EN p) 1)
  else (s.put (R.EN p) 1).onEnable p

/-- CTL.EN of page `p` is cleared. -/
def State.disable (s : State) (p : Nat) : State :=
  if !s.en p || pageFixed p then s
  else if p = 0x16 then s.fioOp (fun s => s.put (R.EN p) 0)
  else (s.put (R.EN p) 0).onDisable p

/-- BLOCK_ENABLE (R430). -/
def execBlockEnable (page : Fin 64) (s : State) : Host.Outcome State Fault Refusal :=
  .next (live s (s.when (s.pageLive page) (s.enable page)))

/-- BLOCK_DISABLE (R430). -/
def execBlockDisable (page : Fin 64) (s : State) : Host.Outcome State Fault Refusal :=
  .next (live s (s.when (s.pageLive page) (s.disable page)))

/-- CTL.FCLR of page `p`: FCT, and on the MEMC page the corrected errors, are cleared (R432, R435). -/
def State.faultClear (s : State) (p : Nat) : State :=
  let s := s.put (R.FCT p) 0
  s.when (p == 0x0A) (s.put R.MEMC_CEC_CEC 0)

/-- FAULT_COUNT_CLEAR (R428). -/
def execFaultCountClear (page : Fin 64) (s : State) : Host.Outcome State Fault Refusal :=
  .next (live s (s.when (s.pageLive page) (s.faultClear page)))

/-! ### Soft reset (R431) -/

/-- Every register of page `p` at its reset value, nothing staged and no commit pending. -/
def State.dropPage (s : State) (p : Nat) : State :=
  { s with
    regs := s.regs.filter (fun e => !keyOnPage p e.1)
    staged := s.staged.filter (fun e => !keyOnPage p e.1)
    shadow := s.shadow.filter (fun e => decide (e.1 / 0x1000 ≠ p))
    pendHigh := s.pendHigh.filter (fun e => decide (e.1 / 0x1000 ≠ p))
    tck := { s.tck with
      due := s.tck.due.filter (fun q => q != p), later := s.tck.later.filter (fun q => q != p) } }

/-- The pulse unit keeps the bypass sources, and the GF bits and their source while their inputs are active (R431, R247); its
outputs are in high impedance. -/
def State.pwmReset (s : State) : State :=
  let src := s.get R.PWM_BYP_SRC
  let gf := s.gf
  let act := s.get R.PWM_GSTA_FLTIN
  let left := Nat.land gf act
  let s := s.setGout 0
  let t := (((s.dropPage 0x14).put R.PWM_BYP_SRC src).put (R.FLT 0x14) left).pwmMode
  let t := (t.put R.PWM_GSTA_FLTIN act).putB R.PWM_GSTA_FRZ s.frozen
  let t : State := { t with
    pwm := { PwmState.init with halt0 := s.pwm.halt0, halt1 := s.pwm.halt1, fltAt := s.pwm.fltAt }
    cell := { CellState.init with cmd := s.cell.cmd, swcnt := s.cell.swcnt, reversed := s.cell.reversed } }
  if gf != 0 && left == 0 then t.setByp 1 false else t

/-- An engine's registers, programs and memories are reset. -/
def State.seReset (s : State) (n : Nat) : State :=
  let a := 0x42000000 + 0x100000 * n
  { s.setEng n SeState.init with
    mem := Memory.clear s.mem a (a + 0x100000)
    bad := s.bad.filter (fun r => decide (r < a ∨ a + 0x100000 ≤ r))
    soft := s.soft.filter (fun r => decide (r < a ∨ a + 0x100000 ≤ r)) }

/-- The performance monitor of every core is reset. -/
def State.pmuReset (s : State) : State :=
  { s with cores := s.cores.map (fun k => { k with psb := [], psbSeq := 0, lfsr := 0, interval := 0 }) }

/-- The internal state of the block of page `p` at its reset value; its registers have been dropped.
DEDUCED (log 252). -/
def State.blockReset (s : State) (p : Nat) : State :=
  if p = 6 then ({ s with tbs := TbsState.init }).tbsRole
  else if p = 7 then
    ({ s with tck := { TckState.init with due := s.tck.due, later := s.tck.later } }).tckStop
  else if p = 8 then { s with dsx := { DsxState.init with nextId := s.dsx.nextId } }
  else if p = 9 then s.pmuReset
  else if p = 0x0B then { s with red := RedState.init }
  else if p = 0x0C then { s with acq := AcqState.init }
  else if p = 0x0D then { s with cle := { s.cle with preset := 0, pgnOut := List.replicate 16 0 } }
  else if p = 0x0E then
    { s with
      cle := { CleState.init with preset := s.cle.preset, pgnOut := s.cle.pgnOut }
      mem := Memory.clear s.mem 0x41000000 0x41040000
      bad := s.bad.filter (fun r => decide (r < 0x41000000 ∨ 0x41040000 ≤ r))
      soft := s.soft.filter (fun r => decide (r < 0x41000000 ∨ 0x41040000 ≤ r)) }
  else if p = 0x0F then { s with rse := RseState.init }
  else if 0x10 ≤ p ∧ p ≤ 0x13 then s.seReset (p - 0x10)
  else if p = 0x15 then { s with adc := AdcState.init }
  else if p = 0x16 then
    ({ s with field := { s.field with test := Option.none, round := [], cls := Option.none } }).fioRefresh
  else if p = 0x18 then
    { s with field := { s.field with enc := s.field.enc.map (fun c => { c with count := 0, bad := c.wire % 4 != 0 }) } }
  else if p = 0x19 ∨ p = 0x1A then s.setMac (p - 0x19) EthState.init
  else if 0x20 ≤ p ∧ p ≤ 0x33 then s.laneOff (p - 0x20)
  else if p = 0x34 then { s with azf := AzfState.init }
  else s

/-- The soft reset of page `p` begins: STA.SRB reads 1 until it is complete; an engine's programs have ended before it, and
the accesses that waited for its REPEAT been made. DEDUCED (log 252). -/
def State.softResetPage (s : State) (p : Nat) : State :=
  let s := if 0x10 ≤ p ∧ p ≤ 0x13 then s.seEnd (p - 0x10) else s
  let t := if p = 0x14 then s.fioOp State.pwmReset
    else if p = 0x16 then s.fioOp (fun s => (s.dropPage p).blockReset p)
    else (s.dropPage p).blockReset p
  (t.put (R.SRB p) 1).when (p == 7) (t.put (R.SRB p) 1).swNow

/-- CTL fields other than SRST: a MODE other than 0 is refused, FCLR clears, EN enables or disables (R428, R430). -/
def State.ctlFields (s : State) (p v : Nat) : State :=
  let s := if bitsOf v 8 4 = 0 then s else s.werr p
  let s := if bitOf v 2 then s.faultClear p else s
  if bitOf v 0 then s.enable p else s.disable p

/-- A write of CTL (R428, R431). -/
def State.ctlWrite (s : State) (p v : Nat) : State :=
  if !s.pageLive p then s
  else if bitOf v 1 then (if pageFixed p then (s.ctlFields p v).werr p else s.softResetPage p)
  else s.ctlFields p v

/-- SOFT_RESET (R431): a CTL write of `v` with SRST set. -/
def execSoftReset (page : Fin 64) (v : W32) (s : State) : Host.Outcome State Fault Refusal :=
  .next (live s (s.ctlWrite page (setBitN v.toNat 1)))

/-- SOFT_RESET_DONE (R431): within 1 microsecond. -/
def execSoftResetDone (page : Fin 64) (s : State) : Host.Outcome State Fault Refusal :=
  .next (live s (s.when (s.on (R.SRB page)) (s.put (R.SRB page) 0)))

end Sys2Proof.Machine
end

