-- ==== Sys2Proof/Machine/Bus.lean ====
section
/-! DEFINITION. The register region and the coefficient window: which accesses end in a bus error (R3, R16, R400), what a
write of each access code does (R7 to R11), the actions of the command words, and the effects of a read. The cores'
accesses are in Hart. -/

namespace Sys2Proof.Machine

/-! ### Which accesses are answered -/

/-- The module's answer to an access. -/
def State.respond (s : State) (err : Bool) (v : Nat) : State := { s with resp := ⟨err, BitVec.ofNat 32 v⟩ }

/-- The initiator can make an access: the core runs and is not halted, the engine executes a program. -/
def State.canAct (s : State) (ini : Initiator) : Bool :=
  match ini with
  | .core c => s.coreOn c && !s.coreHalted c
  | .engine n => s.runs (sePage n) && (s.eng n).level.isSome
  | .debug => true

/-- What the closed debug port reaches (R400). DEDUCED (log 42). -/
def debugClosedReach (p o : Nat) : Bool :=
  decide (p = 5 ∧ (o = 0x40 ∨ o = 0x44 ∨ (0x80 ≤ o ∧ o < 0xA0) ∨ o = 0x1C8 ∨ o = 0x1CC ∨ 0x400 ≤ o))

/-- The debug port is open for memory and registers (R396, R400). -/
def State.debugMem (s : State) : Bool :=
  decide (s.store.lcs ≠ 4) && s.on R.SEC_STA_DBGOPEN && bitOf (s.get R.SEC_DBG_SCOPE) 1

/-- What the debug port reaches (R396, R400): in Retired only the Almanac read registers.
DEDUCED (log 42). -/
def State.debugReach (s : State) (p o : Nat) : Bool :=
  if s.store.lcs = 4 then decide (p = 4 ∧ (o = 0x6C ∨ o = 0x70))
  else s.debugMem || debugClosedReach p o

/-- An access of the register region is answered: naturally aligned, 32 bits wide, on a defined page (R3), and of a
gated page only a read of PID (R16). -/
def State.busOk (s : State) (ini : Initiator) (write : Bool) (addr size : Nat) : Bool :=
  let p := (addr - 0x40000000) / 0x1000
  let o := (addr - 0x40000000) % 0x1000
  decide (0x40000000 ≤ addr ∧ addr < 0x40040000 ∧ size = 4 ∧ addr % 4 = 0) && pageDefined p &&
    (!s.gated p || (!write && o == 0)) && (ini != .debug || s.debugReach p o)

/-- A bus error ends an engine's access in the trap of cause 6 (R205); a core's is `Hart`'s. -/
def State.busEnd (s : State) (ini : Initiator) : State :=
  match ini with
  | .core _ => s
  | .engine n =>
    if s.resp.err then
      match (s.eng n).level with
      | some l => s.seTrap n l 6 (s.eng n).pcNow
      | Option.none => s
    else s
  | .debug => s

/-! ### A write by access code (R7, R8) -/

/-- Field `f` of page `p` is written with its part of the register value `v`. -/
def State.fieldWrite (s : State) (p v : Nat) (f : Fld) : State :=
  match f.acc with
  | .ro => s
  | .w1a => s
  | .rw => s.put f (f.of v)
  | .st => s.stage f (f.of v)
  | .do => if s.en p then (if f.of v = s.get f then s else s.werr p) else s.put f (f.of v)
  | .w1c => s.put f (andNot (s.get f) (f.of v))

/-- The register at offset `o` of page `p` is written with `v`, each field according to its access code. -/
def State.regWrite (s : State) (p o v : Nat) : State := forEach (wordFields p o) (fun f x => x.fieldWrite p v f) s

/-- The value of a register as the next write of one half finds it: what is staged, or in force. -/
def State.regNext (s : State) (p o : Nat) : Nat :=
  (wordFields p o).foldl (fun a f => a + s.stagedOf f * 2 ^ f.lsb) 0

/-- The pending high word of the 64-bit register at offset `o` of page `p`: one never written holds the high word
in force (R11). DEDUCED (log 41). -/
def State.pendingHigh (s : State) (p o : Nat) : Nat :=
  alGet s.pendHigh (0x1000 * p + o) (s.regNext p o / 2 ^ 32)

/-- The high word written: only the pending high word changes (R11). -/
def State.highWrite (s : State) (p o v : Nat) : State :=
  { s with pendHigh := alPut s.pendHigh (0x1000 * p + o) (v % 2 ^ 32) }

/-- The low word written: it applies with the pending high word as one update, which is then reloaded (R11).
DEDUCED (log 41). -/
def State.lowWrite (s : State) (p o v : Nat) : State :=
  let t := s.regWrite p o (s.pendingHigh p o * 2 ^ 32 + v % 2 ^ 32)
  { t with pendHigh := alPut t.pendHigh (0x1000 * p + o) (t.regNext p o / 2 ^ 32) }

/-! ### The command words of each page -/

/-- `f` where bit `k` of `v` is 1. DEDUCED (log 40). -/
def State.act (s : State) (v k : Nat) (f : State → State) : State := if bitOf v k then f s else s

/-- CLK (R424). -/
def State.writeCLK (s : State) (o v : Nat) : State :=
  if o = 0x4C then s.act v 0 (fun s => s.put R.CLK_LLCNT_CNT 0) else s.regWrite 1 o v

/-- PWR (R410, R424). DEDUCED (log 40). -/
def State.writePWR (s : State) (o v : Nat) : State :=
  if o = 0x44 then
    let s := s.act v 1 (fun s => s.swGo ((s.fcu.timeNs - s.pwr.armAt) * 350 / 1000))
    s.act v 0 (fun s => { s with pwr := { s.pwr with armed := true, armAt := s.fcu.timeNs } })
  else if o = 0x50 then s.act v 0 State.vminClear
  else s.regWrite 2 o v

/-- FCU (R337, R340, R350). A source that a write makes severe halts a member that is not ACTIVE (R317). -/
def State.writeFCU (s : State) (o v : Nat) : State :=
  if o = 0x68 then
    let s := s.regWrite 3 o v
    let s := s.act v 8 (fun s => s.unlatch (s.get R.FCU_CMD_SRC))
    s.act v 9 (fun s => s.put R.FCU_LOST_LOST 0)
  else if o = 0x74 then s.logrd (v % 1024)
  else
    let t := s.regWrite 3 o v
    t.when (t.sevg && !s.sevg) t.redHalt

/-- ALM (R345, R351). -/
def State.writeALM (s : State) (o v : Nat) : State :=
  if o = 0x64 then
    (s.act v 0 (fun s => s.put R.ALM_STA_EPOCH 1)).act v 1 (fun s => s.put R.ALM_STA_EPOCH 0)
  else s.regWrite 4 o v

/-- SEC.CMD (R393): the commands written as 1, from bit 0 on. -/
def State.secCmd (s : State) (v : Nat) : State :=
  let s := (s.act v 0 (fun s => s.secStart .nonce)).act v 1 (fun s => s.secStart .order)
  let s := (s.act v 2 (fun s => s.secStart .verify)).act v 3 (fun s => s.secStart .sign)
  let s := (s.act v 4 (fun s => s.secStart .attest)).act v 5 (fun s => s.secStart .extend)
  (s.act v 6 State.mlock).act v 7 State.svnCommit

/-- TBS (R275, R276). -/
def State.writeTBS (s : State) (o v : Nat) : State :=
  if o = 0x6C then
    let s := (s.act v 0 State.tbsSnap).act v 1 State.tbsAcceptCmd
    (s.act v 2 State.tbsResumeCmd).act v 3 State.tbsClear
  else s.regWrite 6 o v

/-- TCK (R35, R59). -/
def State.writeTCK (s : State) (o v : Nat) : State :=
  if o = 0x40 then s.when (s.isC && s.active) (s.regWrite 7 o v)
  else if o = 0x6C then (s.act v 0 State.drncClear).act v 1 State.rptClear
  else s.regWrite 7 o v

/-- DSX (R219, R225, R233). -/
def State.writeDSX (s : State) (o v : Nat) : State :=
  if o = 0x40 then forUpTo 7 (fun i x => x.act v (i + 1) (fun y => y.coreStart (i + 1))) s
  else if o = 0x48 then s.dsxIssue (0x80 + bitsOf v 24 6) (bitsOf v 0 24)
  else if o = 0x4C then (s.regWrite 8 o v).act v 31 (fun s => s.dsxCancel (bitsOf v 0 8) false)
  else if o = 0x68 then s.act v 0 State.dsxClear
  else if 0x100 ≤ o ∧ o < 0x180 ∧ o % 8 = 0 then s.timerWrite ((o - 0x100) / 8) v
  else s.regWrite 8 o v

/-- PMU (R232). -/
def State.writePMU (s : State) (o v : Nat) : State :=
  if 0x100 ≤ o ∧ o < 0x500 ∧ (o - 0x100) % 0x80 = 0x54 then s.psbConfigure ((o - 0x100) / 0x80) v
  else s.regWrite 9 o v

/-- RED (R330). -/
def State.writeRED (s : State) (o v : Nat) : State :=
  if o = 0x48 then (s.act v 0 State.yieldCmd).act v 1 State.redClear else s.regWrite 0x0B o v

/-- ACQ (R306): of ARM and STOP in one write, STOP acts and ARM sets CMDREF. DEDUCED (log 40). -/
def State.writeACQ (s : State) (o v : Nat) : State :=
  if o = 0x64 then s.rdptr v
  else if o = 0x68 then
    let s := s.act v 0 (fun s => if bitOf v 2 then s.put R.ACQ_STA_CMDREF 1 else s.acqArm)
    let s := (s.act v 1 State.acqForce).act v 2 State.acqStop
    s.act v 3 State.acqClear
  else s.regWrite 0x0C o v

/-- PGN (R177). -/
def State.writePGN (s : State) (o v : Nat) : State :=
  if o = 0x40 then s.pgnPreset v else s.regWrite 0x0D o v

/-- CLE (R179). -/
def State.writeCLE (s : State) (o v : Nat) : State :=
  if o = 0x48 then
    ((s.regWrite 0x0E o v).act v 5 (fun s => s.cleRunCmd (s.get R.CLE_CMD_CHAN))).act v 8 State.cleClear
  else s.regWrite 0x0E o v

/-- RSE.TDATA (R150): FB and PRES of the entry that TADDR names are DO fields. -/
def State.tableWrite (s : State) (v : Nat) : State :=
  let i := s.get R.RSE_TADDR_INDEX
  let e := s.ent i
  let e' := { e with pres := bitOf v 0, fb := bitOf v 1 }
  if e'.pres = e.pres ∧ e'.fb = e.fb then s
  else if s.en 0x0F then s.werr 0x0F
  else s.setEnt i e'

/-- RSE (R150). -/
def State.writeRSE (s : State) (o v : Nat) : State :=
  if o = 0x44 then s.tableWrite v
  else if o = 0x48 then
    ((s.act v 0 State.rseClear).act v 1 (fun s => s.rhoClear 0)).act v 2 (fun s => s.rhoClear 1)
  else s.regWrite 0x0F o v

/-- SE of engine `n` (R203, R209): START before STOP. DEDUCED (log 40). -/
def State.writeSE (s : State) (n o v : Nat) : State :=
  if o = 0x50 then (s.seStarts n (bitsOf v 0 4)).act v 8 (fun s => s.seStop n)
  else if o = 0x70 then s.act v 0 (fun s => s.seClear n)
  else s.regWrite (sePage n) o v

/-- PWM (R237, R247, R268): MODE is carrier mode in every role but K. -/
def State.writePWM (s : State) (o v : Nat) : State :=
  if o = 0x40 then s.regWrite 0x14 o (if s.isK then v else setBitN v 0)
  else if o = 0x54 then
    let s := s.fioOp (fun s => s.regWrite 0x14 o v)
    (s.act v 2 (fun s => s.setByp 3 true)).act v 3 State.bypClr
  else if o = 0x50 then (s.regWrite 0x14 o v).fltMeetAll
  else if o = 0x7C then s.act v 0 State.pwmClear
  else if o = 0x21C then (s.act v 0 State.leave).act v 1 State.rejoin
  else s.regWrite 0x14 o v

/-- ADC (R260, R267). -/
def State.writeADC (s : State) (o v : Nat) : State :=
  if o = 0x44 then (s.act v 0 State.calibrate).act v 1 State.adcClear else s.regWrite 0x15 o v

/-- FIO (R354, R356, R357, R362, R378). -/
def State.writeFIO (s : State) (o v : Nat) : State :=
  if o = 0x44 then s.fioOut (v % 65536)
  else if o = 0x48 then s.fioOut (Nat.lor (s.get R.FIO_OUT_OUT) (v % 65536))
  else if o = 0x4C then s.fioOut (andNot (s.get R.FIO_OUT_OUT) (v % 65536))
  else if o = 0x68 then
    ((s.act v 0 State.fioRestart).act v 1 (fun s => s.groupClear 0)).act v 2 (fun s => s.groupClear 1) |>.act v 3
      State.fioClear
  else if 0x100 ≤ o ∧ o < 0x140 then s.fioMode ((o - 0x100) / 4) v
  else s.fioOp (fun s => s.regWrite 0x16 o v)

/-- ENC (R365, R379). -/
def State.writeENC (s : State) (o v : Nat) : State :=
  if o = 0x40 then s.act v 0 State.encClear
  else if 0x100 ≤ o ∧ o < 0x180 ∧ o % 0x20 = 0 then s.encConfigure ((o - 0x100) / 0x20) v
  else s.regWrite 0x18 o v

/-- ETH of MAC `m` (R436). -/
def State.writeETH (s : State) (m o v : Nat) : State :=
  if o = 0x5C then s.tailWrite m true v
  else if o = 0x74 then s.tailWrite m false v
  else s.regWrite (0x19 + m) o v

/-- AZL.TXEQI (R76): a combination that the taps cannot take is refused. -/
def tapsOf (v : Nat) : Bool := tapsOk (bitsOf v 0 5) (bitsOf v 8 5) (bitsOf v 16 5)

/-- AZL of lane `n` (R75, R76, R84); what it has sent up to now it sent under the old settings. DEDUCED (log 253). -/
def State.writeAZL (s : State) (n o v : Nat) : State :=
  if o = 0x44 then (if tapsOf v then s.regWrite (lanePage n) o v else s.werr (lanePage n))
  else if o = 0x74 then
    (s.act v 0 (fun s => s.when (s.laneOn n) (s.retrain n))).act v 1 (fun s => s.laneClear n)
  else (s.idleTo n).regWrite (lanePage n) o v

/-- AZF (R125). -/
def State.writeAZF (s : State) (o v : Nat) : State :=
  if o = 0x6C then (s.act v 0 State.enumGo).act v 1 State.azfClear else s.regWrite 0x34 o v

/-- A write of the FLT word: the defined bits written as 1 are cleared; the gate faults of the pulse unit stay while
their inputs are active (R9, R245, R432). -/
def State.fltWrite (s : State) (p v : Nat) : State :=
  let v := Nat.land v (fltMask p)
  if p = 0x14 then
    let s := s.put (R.FLT p) (andNot (s.get (R.FLT p)) (v / 16 * 16))
    if v % 16 = 0 then s else s.gfClear (v % 16) (s.get R.PWM_GSTA_FLTIN)
  else s.put (R.FLT p) (andNot (s.get (R.FLT p)) v)

/-- A write of a header word (R428 to R433). -/
def State.writeHeader (s : State) (p o v : Nat) : State :=
  if o = 0x04 then s.ctlWrite p v
  else if o = 0x0C then s.act v 0 (fun s => s.commitPage p)
  else if o = 0x10 then s.fltWrite p v
  else if o = 0x14 then s.put (R.FEN p) (Nat.land v (fltMask p))
  else s.regWrite p o v

/-- A write of a block word of page `p`. -/
def State.writeBlock (s : State) (p o v : Nat) : State :=
  if p = 1 then s.writeCLK o v
  else if p = 2 then s.writePWR o v
  else if p = 3 then s.writeFCU o v
  else if p = 4 then s.writeALM o v
  else if p = 5 then (if o = 0x44 then s.secCmd v else s.regWrite 5 o v)
  else if p = 6 then s.writeTBS o v
  else if p = 7 then s.writeTCK o v
  else if p = 8 then s.writeDSX o v
  else if p = 9 then s.writePMU o v
  else if p = 0x0B then s.writeRED o v
  else if p = 0x0C then s.writeACQ o v
  else if p = 0x0D then s.writePGN o v
  else if p = 0x0E then s.writeCLE o v
  else if p = 0x0F then s.writeRSE o v
  else if 0x10 ≤ p ∧ p ≤ 0x13 then s.writeSE (p - 0x10) o v
  else if p = 0x14 then s.writePWM o v
  else if p = 0x15 then s.writeADC o v
  else if p = 0x16 then s.writeFIO o v
  else if p = 0x18 then s.writeENC o v
  else if p = 0x19 ∨ p = 0x1A then s.writeETH (p - 0x19) o v
  else if 0x20 ≤ p ∧ p ≤ 0x33 then s.writeAZL (p - 0x20) o v
  else if p = 0x34 then s.writeAZF o v
  else s.regWrite p o v

/-- A write of the low word of a 64-bit register; TBS.OFSIN takes a new offset with it (R11, R274). -/
def State.wideWrite (s : State) (p o v : Nat) : State :=
  if p = 6 ∧ o = 0x58 then s.ofsinWrite v else s.lowWrite p o v

/-- A write of the word at offset `o` of page `p` that is not ignored as a whole. -/
def State.wordWrite (s : State) (p o v : Nat) : State :=
  if isWideHigh p o then s.highWrite p (o - 4) v
  else if isWideLow p o then s.wideWrite p o v
  else if o < 0x40 then s.writeHeader p o v
  else s.writeBlock p o v

/-- A write is ignored without a flag: words that do not exist in the role, a page in soft reset (R431), the redundancy
page of a Cell (R318). DEDUCED (log 44, 143). -/
def State.writeIgnored (s : State) (p o : Nat) : Bool :=
  s.voidWord p o || s.frozenPage p || s.on (R.SRB p) ||
    (p == 3 && decide (0x100 ≤ o ∧ o < 0x500) && !fcuIsDefined ((o - 0x100) / 8))

/-- The part of a written word that the initiator reaches: the closed debug port starts only NONCE and ORDER. -/
def State.reached (s : State) (ini : Initiator) (p o v : Nat) : Nat :=
  if ini = .debug ∧ p = 5 ∧ o = 0x44 ∧ !s.debugMem then v % 4 else v

/-- A write access of the register region (R3, R7, R11). -/
def State.busWrite (s : State) (ini : Initiator) (addr size : Nat) (v : W32) : State :=
  if !s.busOk ini true addr size then s.respond true 0
  else
    let p := (addr - 0x40000000) / 0x1000
    let o := (addr - 0x40000000) % 0x1000
    let s := s.respond false 0
    if s.writeIgnored p o then s else s.wordWrite p o (s.reached ini p o v.toNat)

/-- What a read does beside returning the word: a shadow latched (R10), an entry taken (R232, R291), the next word of
the Almanac (R351), a fresh open value taken. -/
def State.readEffect (s : State) (p o : Nat) : State :=
  if s.writeIgnored p o then s
  else if p = 4 ∧ o = 0x70 then s.rdata.2
  else if openWord p o then { s with freeCtr := s.freeCtr + 1 }
  else if p = 9 ∧ 0x100 ≤ o ∧ o < 0x500 ∧ (o - 0x100) % 0x80 = 0x70 then s.psbRemove ((o - 0x100) / 0x80)
  else if (p = 0x19 ∨ p = 0x1A) ∧ o = 0x114 then (s.captureRead (p - 0x19)).2
  else s

/-- The shadow of a 64-bit register takes its high word when the low word is read (R10). -/
def State.latchShadow (s : State) (p o : Nat) : State :=
  if isWideLow p o then { s with shadow := alPut s.shadow (0x1000 * p + o + 4) (s.register p o / 2 ^ 32 % 2 ^ 32) } else s

/-- A read access of the register region. DEDUCED (log 255). -/
def State.busRead (s : State) (ini : Initiator) (addr size : Nat) : State :=
  if !s.busOk ini false addr size then s.respond true 0
  else
    let p := (addr - 0x40000000) / 0x1000
    let o := (addr - 0x40000000) % 0x1000
    ((s.latchShadow p o).readEffect p o).respond false (s.peek p o)

/-- The counters that count what sets bit `k` of FLT of page `p` (R9). -/
def fltCounters (p k : Nat) : List Fld :=
  if 0x20 ≤ p ∧ p ≤ 0x33 then
    let n := p - 0x20
    match k with
    | 0 => [R.AZL_CNT_LOSC n]
    | 1 => [R.AZL_CNT_LOLC n]
    | 4 => [R.AZL_ABTC_EBC n]
    | 5 => [R.AZL_ABTC_ABT n]
    | _ => []
  else if 0x10 ≤ p ∧ p ≤ 0x13 then
    let n := p - 0x10
    match k with
    | 1 => [R.SE_SKIPC_EVE n]
    | 2 => [R.SE_SKIPC_BUSY n]
    | 3 => [R.SE_ECC_CEC n]
    | _ => []
  else match p, k with
    | 4, 0 => [R.ALM_WCNT_WFC]
    | 6, 0 => [R.TBS_CNT_REFC]
    | 0x0A, 0 => [R.MEMC_CEC_CEC]
    | 0x0B, 0 => [R.RED_CNT_TKOC]
    | 0x0B, 1 => [R.RED_CNT_MLOSTC]
    | 0x0C, 0 => [R.ACQ_CNT_OVFC]
    | 0x0C, 1 => [R.ACQ_CNT_MISSED]
    | 0x14, 4 => [R.PWM_SCNT_MPV]
    | 0x14, 5 => [R.PWM_SCNT_SUPP]
    | 0x15, 2 => [R.ADC_SCNT_SKIP]
    | 0x16, 5 => [R.FIO_LINK_FDRC]
    | 0x18, n => if n < 4 then [R.ENC_WSTA_WFC n] else []
    | _, _ => []

/-- The counters that count what sets bit `k` of the word at offset `o` of page `p` (R9). -/
def eventCounters (p o k : Nat) : List Fld :=
  if o = 0x10 then fltCounters p k
  else if p = 9 then (if k = 9 ∧ 0x100 ≤ o then [R.PMU_PSBLOST_LOST ((o - 0x100) / 0x80)] else [])
  else if p = 0x0E ∧ 0x400 ≤ o then
    (if k = 1 then [R.CLE_SKIPC_MIXC] else if k = 2 ∨ k = 3 then [R.CLE_SKIPC_SKIP] else [])
  else if p = 0x0F ∧ 0x100 ≤ o then
    (if k = 0 then [R.RSE_STCNT_SATC ((o - 0x100) / 0x80)] else if k = 1 then [R.RSE_STCNT_RHC ((o - 0x100) / 0x80)] else [])
  else []

/-- The bits of `v` below 32. -/
def bitsIn (v : Nat) : List Nat := (List.range 32).filter (fun k => bitOf v k)

/-- The W1C bits of the word at offset `o` of page `p`. -/
def w1cMask (p o : Nat) : Nat :=
  if o = 0x10 then fltMask p
  else ((wordFields p o).filter (fun f => decide (f.acc = .w1c))).foldl (fun a f => a + (2 ^ f.width - 1) * 2 ^ f.lsb) 0

/-- The events `ev` counted where their source is counted; a source descriptor that finds no room is dropped in the pool's
count (R9, R219). -/
def State.countEvents (s : State) (p o ev : Nat) : State :=
  let s := forEach (bitsIn ev) (fun k x => forEach (eventCounters p o k) (fun f y => y.incSat f) x) s
  s.when (p == 8 && decide (0x400 ≤ o) && bitOf ev 28 && (s.dsxFree == 0 || !s.en 8)) (s.incSat R.DSX_DROP_POOL)

/-- Hardware events set the bits `ev` of the word at offset `o` of page `p` in the cycle in which it is written: the bits are
set after the write, and the events are counted where their source is counted (R9, R331). DEDUCED (log 206). -/
def State.sameCycle (s : State) (p o ev : Nat) : State :=
  let ev := Nat.land ev (w1cMask p o)
  if ev = 0 then s
  else if o = 0x10 then (s.countEvents p o ev).raiseFlts p (bitsIn ev)
  else if p = 3 ∧ 0x40 ≤ o ∧ o < 0x50 then
    forEach (bitsIn ev) (fun k x => x.fcuEvent (32 * ((o - 0x40) / 4) + k)) s
  else
    let s := s.countEvents p o ev
    forEach (wordFields p o) (fun f x => if f.acc = .w1c then x.put f (Nat.lor (x.get f) (f.of ev)) else x) s

/-- A write of the register region with the events of its cycle. -/
def State.busWriteEv (s : State) (ini : Initiator) (addr size : Nat) (v : W32) (ev : Nat) : State :=
  let t := s.busWrite ini addr size v
  if t.resp.err then t else t.sameCycle ((addr - 0x40000000) / 0x1000) ((addr - 0x40000000) % 0x1000) ev

/-- A write into the coefficient window (R155, R165). -/
def State.windowWrite (s : State) (ini : Initiator) (addr size : Nat) (v : W32) : State :=
  if s.cleBad addr size || (ini == .debug && !s.debugMem) then s.respond true 0
  else (s.cleStore ini addr v.toNat).respond false 0

/-- The address of IOLD and IOST (R205). -/
def State.ioAddr (s : State) (n word : Nat) : Nat := 0x40000000 + 0x10000 * s.get (R.SE_IOB_WIN n) + 4 * word

/-! ### IOLD and IOST -/

/-- SE.RSTA.IOW: the engine waits for the access of an IOLD or IOST (R209). -/
def State.setIow (s : State) (n : Nat) (b : Bool) : State := s.setEng n { s.eng n with iow := b }

/-- The cycles an access takes: open, at most 80 (R200). DESIGN CHOICE (log 31). -/
def State.ioCycles (s : State) : Nat × State := let (z, t) := s.fresh 16; (z % 80 + 1, t)

/-- IOLD (R205): the destination is written when the access has completed. -/
def ioldInstr (n reg word : Nat) (l : Nat) (s : State) (pc : BitVec 13) : SeOut :=
  if ((s.bank n l).read reg).isNone then SeOut.stop s pc 1
  else
    let (k, s) := s.ioCycles
    let s := ((s.setIow n true).busRead (.engine (Fin.ofNat 4 n)) (s.ioAddr n word) 4).setIow n false
    if s.resp.err then SeOut.stop s pc 6
    else { cWrite n l s pc reg s.resp.data false with cycles := k }

/-- IOLD (R205). DESIGN CHOICE (log 31). -/
def execSeIold (n : Fin 4) (reg : Fin 64) (word : Fin 16384) (s : State) : Host.Outcome State Fault Refusal :=
  .next (live s (s.seExec n (.seIold n reg word) false 0 (ioldInstr n reg word)))

/-- IOST (R205). -/
def iostInstr (n reg word : Nat) (l : Nat) (s : State) (pc : BitVec 13) : SeOut :=
  match (s.bank n l).read reg with
  | Option.none => SeOut.stop s pc 1
  | some v =>
    let (k, s) := s.ioCycles
    let s := ((s.setIow n true).busWrite (.engine (Fin.ofNat 4 n)) (s.ioAddr n word) 4 v).setIow n false
    if s.resp.err then SeOut.stop s pc 6 else { SeOut.step s pc with cycles := k }

/-- IOST (R205). DESIGN CHOICE (log 31). -/
def execSeIost (n : Fin 4) (reg : Fin 64) (word : Fin 16384) (s : State) : Host.Outcome State Fault Refusal :=
  .next (live s (s.seExec n (.seIost n reg word) false 0 (iostInstr n reg word)))

end Sys2Proof.Machine
end

