-- ==== Sys2Proof/Machine/Hart.lean ====
section
/-! DEFINITION. What a control core does to the machine (R210 to R215): its address map, loads, stores, fetches and atomic
operations with their faults, its CSRs and the return from a trap; and the accesses of the debug port. -/

namespace Sys2Proof.Machine

/-! ### The address map (R213) -/

/-- What stands at an address for a core: memory at an address of the map, DRAM apart, or a block. -/
inductive Region where
  | rom
  | ram (a : Nat)
  | dram (a : Nat)
  | pages
  | cle
  | se
  | pool
  deriving DecidableEq, Repr

/-- The region of address `a` for core `c`, or for the debug port where `c` is 8; none outside the map, in a memory that the
role has not, or in the local SRAM of a gated core (R213). -/
def State.region (s : State) (c a : Nat) : Option Region :=
  if a < 0x10000 then some .rom
  else if c < 8 ∧ 0x08000000 ≤ a ∧ a < 0x08010000 then some (.ram (0x09000000 + 0x10000 * c + (a - 0x08000000)))
  else if 0x09000000 ≤ a ∧ a < 0x09080000 then
    if s.coreGated ((a - 0x09000000) / 0x10000) then Option.none else some (.ram a)
  else if 0x20000000 ≤ a ∧ a < 0x20200000 then if s.isK then some (.ram a) else Option.none
  else if 0x40000000 ≤ a ∧ a < 0x40040000 then some .pages
  else if 0x41000000 ≤ a ∧ a < 0x41040000 then some .cle
  else if 0x42000000 ≤ a ∧ a < 0x42400000 then some .se
  else if 0x44000000 ≤ a ∧ a < 0x44400000 then some .pool
  else if 0x800000000 ≤ a ∧ a ≤ 0x9FFFFFFFF then if s.isC || s.isS then some (.dram a) else Option.none
  else Option.none

/-- The memory of a region that atomic operations and LR/SC reach: its address, and whether it is DRAM (R213). -/
def Region.memory (r : Region) : Option (Nat × Bool) :=
  match r with
  | .ram a => some (a, false)
  | .dram a => some (a, true)
  | _ => Option.none

/-! ### Memory and its errors (R208, R213 to R215) -/

/-- A little-endian number of `n` bytes of memory at an address. -/
def State.memNat (s : State) (a n : Nat) : Nat := natLE (s.memBytes a n)

/-- A little-endian number of `n` bytes of the boot ROM. -/
def romNat (a n : Nat) : Nat := natLE ((List.range n).map (fun i => Config.rom (a + i)))

/-- `n` bytes of memory written by core `c`: the row is written corrected, instruction caches may be stale (R214). -/
def State.ramPut (s : State) (c a n v : Nat) : State :=
  (((s.heal a).setMem a (bytesLE n v)).markStale a n).breakResv c a n

/-- A core's access has been answered with a value: what a load returns, zero-extended. -/
def State.loaded (s : State) (c v : Nat) : State := (s.setRd c v).respond false v

/-- A load from memory. -/
def State.ramLoad (s : State) (c a va n : Nat) (dram : Bool) (e : MemErr) : State :=
  let t := s.ramMeet a dram e
  if s.eccAt a e = .uncorrectable then t.coreFault c .load va else t.loaded c (t.memNat a n)

/-- A store into memory: one of a whole row reads nothing. -/
def State.ramStore (s : State) (c a va n : Nat) (dram : Bool) (e : MemErr) (v : Nat) : State :=
  if n = 8 then (s.ramPut c a n v).respond false 0
  else
    let t := s.ramMeet a dram e
    if s.eccAt a e = .uncorrectable then t.coreFault c .store va else (t.ramPut c a n v).respond false 0

/-- Memory that core `c` has not made its instruction cache follow by FENCE.I holds one of the `n` bytes at `a` (R214). -/
def CoreState.staleAt (k : CoreState) (a n : Nat) : Bool :=
  k.stale.any (fun r => decide (r.1 < a + n ∧ a < r.1 + r.2))

/-- A fetch of `n` bytes: an error of the instruction cache is a miss, and is counted; without one, a cache that is stale
there may give what it held (R214, R215). -/
def State.ramFetch (s : State) (c a va n : Nat) (dram : Bool) (e : MemErr) : State :=
  let s := if e = .none then s else (s.fcuEvent 0).pmuCount c 9 1
  if (s.core c).staleAt a n && e == .none then
    let (v, t) := s.fresh (8 * n)
    t.respond false v
  else
    let t := s.ramMeet a dram .none
    if s.eccAt a .none = .uncorrectable then t.coreFault c .fetch va else t.respond false (t.memNat a n)

/-- The value that an atomic operation of `w` bits stores. PRESUMED (log 33). -/
def amoNext (op : AmoOp) (w old v : Nat) : Nat :=
  let le := decide (toSigned w old ≤ toSigned w (v % 2 ^ w))
  let leu := decide (old ≤ v % 2 ^ w)
  match op with
  | .swap => v
  | .add => old + v
  | .xor => Nat.xor old v
  | .and => Nat.land old v
  | .or => Nat.lor old v
  | .min => if le then old else v
  | .max => if le then v else old
  | .minu => if leu then old else v
  | .maxu => if leu then v else old

/-- An atomic operation on memory. PRESUMED (log 33). -/
def State.ramAmo (s : State) (c a va n : Nat) (dram : Bool) (e : MemErr) (op : AmoOp) (v : Nat) : State :=
  let t := s.ramMeet a dram e
  if s.eccAt a e = .uncorrectable then t.coreFault c .store va
  else
    let old := t.memNat a n
    (t.ramPut c a n (amoNext op (8 * n) old v)).loaded c old

/-- A load-reserved. PRESUMED (log 33). -/
def State.ramReserve (s : State) (c a va n : Nat) (dram : Bool) (e : MemErr) : State :=
  let t := s.ramLoad c a va n dram e
  if s.eccAt a e = .uncorrectable then t else t.setCore c { t.core c with resv := some (a, n) }

/-- A store-conditional: it stores and returns 0 where the reservation stands, and else returns 1.
PRESUMED (log 33). -/
def State.ramConditional (s : State) (c a va n : Nat) (dram : Bool) (e : MemErr) (v : Nat) : State :=
  let held := (s.core c).resv == some (a, n)
  let s := s.setCore c { s.core c with resv := Option.none }
  if held then
    let t := s.ramStore c a va n dram e v
    if decide (n ≠ 8) && s.eccAt a e == .uncorrectable then t else t.setRd c 0
  else s.loaded c 1

/-! ### Loads, stores, atomic operations and fetches -/

/-- What an access of a core is, once it is known to be one: a fetch, a load, or a store of a value, each plain or atomic. -/
inductive CoreAcc where
  | fetch
  | load
  | reserve
  | store (v : BitVec 64)
  | conditional (v : BitVec 64)
  | amo (op : AmoOp) (v : BitVec 64)
  deriving DecidableEq, Repr

/-- The kind of an access to which protection and faults refer (R212). -/
def CoreAcc.kind (x : CoreAcc) : AccKind :=
  match x with
  | .fetch => .fetch
  | .load | .reserve => .load
  | _ => .store

/-- The value that a plain store stores. -/
def CoreAcc.stored (x : CoreAcc) : Option W32 :=
  match x with
  | .store v => some (v.setWidth 32)
  | _ => Option.none

/-- An access that every region with memory takes but a block does not: a fetch, an atomic operation, LR or SC (R213). -/
def CoreAcc.special (x : CoreAcc) : Bool :=
  match x with
  | .load | .store _ => false
  | _ => true

/-- The widths in bytes that an access of this sort has. PRESUMED (log 33). -/
def CoreAcc.width (x : CoreAcc) (n : Nat) : Bool :=
  match x with
  | .fetch => decide (n = 2 ∨ n = 4)
  | .load | .store _ => decide (n = 1 ∨ n = 2 ∨ n = 4 ∨ n = 8)
  | _ => decide (n = 4 ∨ n = 8)

/-- The bytes to which an access is aligned: a fetch to two. PRESUMED (log 33). -/
def CoreAcc.grain (x : CoreAcc) (n : Nat) : Nat :=
  match x with
  | .fetch => 2
  | _ => n

/-- A data access of core `c` to memory at address `a` is counted where it is an access of L2, and by a free value where it
misses there (R213, R230). DESIGN CHOICE (log 262). -/
def State.l2Count (s : State) (c a : Nat) (dram : Bool) : State :=
  if dram then
    let (v, s) := s.fresh 1
    (s.pmuCount c 0x0A 1).pmuCount c 0x0B v
  else if 0x20000000 ≤ a then s.pmuCount c 0x0A 1
  else s

/-- An access to memory at address `a`, which the core names `va`. -/
def State.coreRam (s : State) (c a va n : Nat) (dram : Bool) (e : MemErr) (x : CoreAcc) : State :=
  let s := if x = .fetch then s else s.l2Count c a dram
  match x with
  | .fetch => s.ramFetch c a va n dram e
  | .load => s.ramLoad c a va n dram e
  | .reserve => s.ramReserve c a va n dram e
  | .store v => s.ramStore c a va n dram e v.toNat
  | .conditional v => s.ramConditional c a va n dram e v.toNat
  | .amo op v => s.ramAmo c a va n dram e op v.toNat

/-- A block has answered a core's load or store: a bus error response is its access fault (R3, R212, R213). -/
def State.coreEnd (s : State) (c a : Nat) (x : CoreAcc) : State :=
  (s.busFault c x.stored.isSome a).busLoaded c x.stored.isSome

/-- A load or store of a register page, counted as PMU event 0x0C (R213, R230). -/
def State.corePage (s : State) (c a n ev : Nat) (x : CoreAcc) : State :=
  let s := s.pmuCount c 0x0C 1
  let ini : Initiator := .core (Fin.ofNat 8 c)
  (match x.stored with
   | some v => s.busWriteEv ini a n v ev
   | Option.none => s.busRead ini a n).coreEnd c a x

/-- A read or write of the coefficient window (R155, R165). -/
def State.cleAccess (s : State) (ini : Initiator) (a n : Nat) (v : Option W32) : State :=
  match v with
  | some v => s.windowWrite ini a n v
  | Option.none => if s.cleBad a n then s.respond true 0 else s.respond false (s.cleRead a)

/-- A read or write of the Frame Pool: naturally aligned words (R427). DEDUCED (log 207). -/
def State.poolAccess (s : State) (a n : Nat) (v : Option W32) : State :=
  if n ≠ 4 ∨ a % 4 ≠ 0 ∨ s.gated 0x34 then s.respond true 0
  else match v with
    | some v => (s.setMem32 a v.toNat).respond false 0
    | Option.none => s.respond false (s.mem32 a)

/-- A load or store of the coefficient window. -/
def State.coreCle (s : State) (c a n : Nat) (x : CoreAcc) : State :=
  (s.cleAccess (.core (Fin.ofNat 8 c)) a n x.stored).coreEnd c a x

/-- A load or store of the Frame Pool. -/
def State.corePool (s : State) (c a n : Nat) (x : CoreAcc) : State := (s.poolAccess a n x.stored).coreEnd c a x

/-- An access that is aligned and permitted, in its region; `ev` are the events of a register write. -/
def State.coreRegion (s : State) (c a n ev : Nat) (e : MemErr) (x : CoreAcc) : State :=
  match s.region c a with
  | Option.none => s.coreFault c x.kind a
  | some r =>
    match r.memory with
    | some (b, dram) => s.coreRam c b a n dram e x
    | Option.none =>
      if r = .rom then
        match x with
        | .fetch => s.respond false (romNat a n)
        | .load => s.loaded c (romNat a n)
        | _ => s.coreFault c x.kind a
      else if x.special then s.coreFault c x.kind a
      else if r = .pages then s.corePage c a n ev x
      else if r = .cle then s.coreCle c a n x
      else if r = .se then s.coreSeAccess (some c) a n x.stored e
      else s.corePool c a n x

/-- The register region and the windows answer a misaligned access with a bus error, every other address of the map with
the address-misaligned exception. DEDUCED (log 263). -/
def Region.block (r : Region) : Bool :=
  match r with
  | .pages | .cle | .se | .pool => true
  | _ => false

/-- An access of core `c` ends in the address-misaligned exception: where no block stands that answers it with a bus error
(R3, R155, R214, R427). DEDUCED (log 263). -/
def State.misaligned (s : State) (c a n : Nat) (x : CoreAcc) : Bool :=
  decide (a % x.grain n ≠ 0) && !((s.region c a).map Region.block).getD false

/-- An access of core `c`: misaligned, refused by PMP, or made (R212 to R214). -/
def State.coreAccess (s : State) (c a n ev : Nat) (e : MemErr) (x : CoreAcc) : State :=
  if !x.width n then s
  else if s.misaligned c a n x then s.coreMisaligned c x.kind a
  else if (s.core c).pmpRefuses x.kind ((s.core c).accessUser x.kind) a n then s.coreFault c x.kind a
  else s.coreRegion c a n ev e x

/-! ### CSR accesses (R210 to R212, R223, R229) -/

/-- A read of CSR `n` with its effect; the value is the core's (R223). -/
def State.csrRead (s : State) (c n : Nat) : State :=
  if n = 0x7C0 then s.mdsxTake c
  else if n = 0x7C1 then s.setRd c (s.mdsxDone c)
  else
    let t := s.csrTick c n
    t.setRd c (t.csrValue c n)

/-- A write of CSR `n`: of mdsxtake ignored, of mdsxdone the completion (R223). -/
def State.csrWrite (s : State) (c n v : Nat) : State :=
  if n = 0x7C0 then s else if n = 0x7C1 then s.setHeld c Option.none else s.csrPut c n v

/-- A CSR instruction of core `c`: `v` is what it writes, sets or clears, none where it only reads. One that only writes
mdsxtake or mdsxdone does not read them. PRESUMED (log 33). -/
def State.csrAccess (s : State) (c n : Nat) (op : CsrOp) (v : Option (BitVec 64)) : State :=
  if s.csrIllegal c n v.isSome then s.illegal c
  else
    match v with
    | Option.none => s.csrRead c n
    | some w =>
      if op = .write ∧ (n = 0x7C0 ∨ n = 0x7C1) then s.csrWrite c n w.toNat
      else
        let t := s.csrRead c n
        t.csrWrite c n (csrNext op (t.core c).rd.toNat w.toNat)

/-- MRET (R210). PRESUMED (log 33). -/
def State.coreMret (s : State) (c : Nat) : State :=
  if (s.core c).user then s.illegal c else s.mret c

/-! ### The debug port (R396, R400) -/

/-- A word, half-word or byte of a memory read or written by the debug port. DEDUCED (log 42). -/
def State.debugRam (s : State) (a n : Nat) (dram : Bool) (e : MemErr) (v : Option W32) : State :=
  let t := s.ramMeet a dram e
  if (n ≠ 1 ∧ n ≠ 2 ∧ n ≠ 4) ∨ a % n ≠ 0 then s.respond true 0
  else if s.eccAt a e = .uncorrectable then t.respond true 0
  else match v with
    | some v => ((t.heal a).storeMem a (bytesLE n v.toNat)).respond false 0
    | Option.none => t.respond false (t.memNat a n)

/-- An access of the debug port: the register pages; and with the port open for memory, whatever the cores reach.
DEDUCED (log 42). -/
def State.debugAccess (s : State) (a n ev : Nat) (e : MemErr) (v : Option W32) : State :=
  match s.region 8 a, v with
  | some .pages, some v => s.busWriteEv .debug a n v ev
  | some .pages, Option.none => s.busRead .debug a n
  | some .cle, v => if s.debugMem then s.cleAccess .debug a n v else s.respond true 0
  | some .se, v => if s.debugMem then s.coreSeAccess Option.none a n v e else s.respond true 0
  | some .pool, v => if s.debugMem then s.poolAccess a n v else s.respond true 0
  | some (.ram b), v => if s.debugMem then s.debugRam b n false e v else s.respond true 0
  | some (.dram b), v => if s.debugMem then s.debugRam b n true e v else s.respond true 0
  | some .rom, Option.none =>
    if s.debugMem && decide (n = 4 ∧ a % 4 = 0) then s.respond false (romNat a n) else s.respond true 0
  | _, _ => s.respond true 0

end Sys2Proof.Machine
end

