-- ==== Sys2Proof/Machine/RvCode.lean ====
section
/-! DEFINITION. The instructions of RV64IMAC with Zicsr and Zifencei (R210): what the words of the RISC-V unprivileged and
privileged specifications spell, in both widths, and the results of the integer operations. PRESUMED (log 37). -/

namespace Sys2Proof.Machine

/-- The integer operations of RV64I and M. -/
inductive RvAlu where
  | add | sub | sll | slt | sltu | xor | srl | sra | or | and
  | mul | mulh | mulhsu | mulhu | div | divu | rem | remu
  deriving DecidableEq, Repr

/-- The conditions of a branch. -/
inductive RvCond where
  | eq | ne | lt | ge | ltu | geu
  deriving DecidableEq, Repr

/-- A second operand: a register or an immediate. -/
inductive RvSrc where
  | reg (i : Nat)
  | imm (v : Int)
  deriving DecidableEq, Repr

/-- An instruction of a core. -/
inductive RvInsn where
  | lui (rd : Nat) (imm : Int)
  | auipc (rd : Nat) (imm : Int)
  | jal (rd : Nat) (off : Int)
  | jalr (rd rs1 : Nat) (off : Int)
  | branch (c : RvCond) (rs1 rs2 : Nat) (off : Int)
  | load (bytes : Nat) (signed : Bool) (rd rs1 : Nat) (off : Int)
  | store (bytes rs2 rs1 : Nat) (off : Int)
  /-- `word`: on 32 bits, the result sign-extended. -/
  | alu (op : RvAlu) (word : Bool) (rd rs1 : Nat) (b : RvSrc)
  | lr (bytes rd rs1 : Nat)
  | sc (bytes rd rs1 rs2 : Nat)
  | amo (op : AmoOp) (bytes rd rs1 rs2 : Nat)
  | csr (op : CsrOp) (rd csr : Nat) (b : RvSrc)
  | fence
  | fenceI
  | ecall
  | ebreak
  | mret
  | wfi
  deriving DecidableEq, Repr

/-! ### Results -/

/-- An integer operation on `w` bits; a shift takes its distance modulo `w`. -/
def rvAlu (w : Nat) (op : RvAlu) (a b : BitVec w) : BitVec w :=
  let sh := b.toNat % w
  match op with
  | .add => a + b
  | .sub => a - b
  | .sll => a <<< sh
  | .slt => BitVec.ofNat w (b2n (decide (a.toInt < b.toInt)))
  | .sltu => BitVec.ofNat w (b2n (decide (a.toNat < b.toNat)))
  | .xor => a ^^^ b
  | .srl => a >>> sh
  | .sra => a.sshiftRight sh
  | .or => a ||| b
  | .and => a &&& b
  | .mul => a * b
  | .mulh => BitVec.ofInt w (a.toInt * b.toInt / (2 ^ w : Nat))
  | .mulhsu => BitVec.ofInt w (a.toInt * (b.toNat : Int) / (2 ^ w : Nat))
  | .mulhu => BitVec.ofNat w (a.toNat * b.toNat / 2 ^ w)
  | .div => if b = 0 then BitVec.allOnes w else BitVec.ofInt w (a.toInt.tdiv b.toInt)
  | .divu => if b = 0 then BitVec.allOnes w else BitVec.ofNat w (a.toNat / b.toNat)
  | .rem => if b = 0 then a else BitVec.ofInt w (a.toInt.tmod b.toInt)
  | .remu => if b = 0 then a else BitVec.ofNat w (a.toNat % b.toNat)

/-- An integer operation of 64 bits, or of the low 32 bits with the result sign-extended. -/
def rvResult (op : RvAlu) (word : Bool) (a b : BitVec 64) : BitVec 64 :=
  if word then (rvAlu 32 op (a.setWidth 32) (b.setWidth 32)).signExtend 64 else rvAlu 64 op a b

/-- A branch is taken. -/
def rvTaken (c : RvCond) (a b : BitVec 64) : Bool :=
  match c with
  | .eq => a == b
  | .ne => a != b
  | .lt => decide (a.toInt < b.toInt)
  | .ge => decide (b.toInt ≤ a.toInt)
  | .ltu => decide (a.toNat < b.toNat)
  | .geu => decide (b.toNat ≤ a.toNat)

/-- What a load of `n` bytes writes, given the value zero-extended. -/
def rvLoaded (n : Nat) (signed : Bool) (v : BitVec 64) : BitVec 64 :=
  if signed then BitVec.ofInt 64 (toSigned (8 * n) v.toNat) else v

/-! ### Instructions of 32 bits -/

/-- The I-type immediate of a word. -/
def immI (w : Nat) : Int := toSigned 12 (bitsOf w 20 12)
/-- The S-type immediate of a word. -/
def immS (w : Nat) : Int := toSigned 12 (bitsOf w 25 7 * 32 + bitsOf w 7 5)
/-- The B-type immediate of a word. -/
def immB (w : Nat) : Int :=
  toSigned 13 (bitsOf w 31 1 * 2 ^ 12 + bitsOf w 7 1 * 2 ^ 11 + bitsOf w 25 6 * 2 ^ 5 + bitsOf w 8 4 * 2)
/-- The U-type immediate of a word. -/
def immU (w : Nat) : Int := toSigned 32 (bitsOf w 12 20 * 2 ^ 12)
/-- The J-type immediate of a word. -/
def immJ (w : Nat) : Int :=
  toSigned 21 (bitsOf w 31 1 * 2 ^ 20 + bitsOf w 12 8 * 2 ^ 12 + bitsOf w 20 1 * 2 ^ 11 + bitsOf w 21 10 * 2)

/-- The condition that funct3 of a branch names. -/
def rvCond (f3 : Nat) : Option RvCond :=
  match f3 with
  | 0 => some .eq
  | 1 => some .ne
  | 4 => some .lt
  | 5 => some .ge
  | 6 => some .ltu
  | 7 => some .geu
  | _ => Option.none

/-- The operation of OP and OP-32 by funct7 and funct3. -/
def rvOp (f7 f3 : Nat) : Option RvAlu :=
  match f7, f3 with
  | 0, 0 => some .add
  | 0x20, 0 => some .sub
  | 0, 1 => some .sll
  | 0, 2 => some .slt
  | 0, 3 => some .sltu
  | 0, 4 => some .xor
  | 0, 5 => some .srl
  | 0x20, 5 => some .sra
  | 0, 6 => some .or
  | 0, 7 => some .and
  | 1, 0 => some .mul
  | 1, 1 => some .mulh
  | 1, 2 => some .mulhsu
  | 1, 3 => some .mulhu
  | 1, 4 => some .div
  | 1, 5 => some .divu
  | 1, 6 => some .rem
  | 1, 7 => some .remu
  | _, _ => Option.none

/-- The operations that OP-32 has. -/
def rvHasWord (op : RvAlu) : Bool :=
  match op with
  | .add | .sub | .sll | .srl | .sra | .mul | .div | .divu | .rem | .remu => true
  | _ => false

/-- OP-IMM and OP-IMM-32: a shift holds its distance and the bits above it, every other operation a 12-bit immediate. -/
def rvOpImm (word : Bool) (w : Nat) : Option RvInsn :=
  let (rd, f3, rs1) := (bitsOf w 7 5, bitsOf w 12 3, bitsOf w 15 5)
  let n := if word then 5 else 6
  if f3 = 1 ∨ f3 = 5 then
    let hi := bitsOf w (20 + n) (12 - n)
    let sh : RvSrc := .imm (bitsOf w 20 n)
    if f3 = 1 ∧ hi = 0 then some (.alu .sll word rd rs1 sh)
    else if f3 = 5 ∧ hi = 0 then some (.alu .srl word rd rs1 sh)
    else if f3 = 5 ∧ hi * 2 ^ n = 2 ^ 10 then some (.alu .sra word rd rs1 sh)
    else Option.none
  else if word && f3 != 0 then Option.none
  else (rvOp 0 f3).map (fun op => .alu op word rd rs1 (.imm (immI w)))

/-- The atomic operation of funct5. -/
def rvAmo (f5 : Nat) : Option AmoOp :=
  match f5 with
  | 0 => some .add
  | 1 => some .swap
  | 4 => some .xor
  | 8 => some .or
  | 0xC => some .and
  | 0x10 => some .min
  | 0x14 => some .max
  | 0x18 => some .minu
  | 0x1C => some .maxu
  | _ => Option.none

/-- SYSTEM: the calls, returns and waits of M mode, and the CSR instructions. -/
def rvSystem (w : Nat) : Option RvInsn :=
  let (rd, f3, rs1, csr) := (bitsOf w 7 5, bitsOf w 12 3, bitsOf w 15 5, bitsOf w 20 12)
  let src : RvSrc := if 4 ≤ f3 then .imm rs1 else .reg rs1
  match f3 with
  | 0 =>
    if w = 0x00000073 then some .ecall
    else if w = 0x00100073 then some .ebreak
    else if w = 0x30200073 then some .mret
    else if w = 0x10500073 then some .wfi
    else Option.none
  | 1 | 5 => some (.csr .write rd csr src)
  | 2 | 6 => some (.csr .set rd csr src)
  | 3 | 7 => some (.csr .clear rd csr src)
  | _ => Option.none

/-- The instruction that a 32-bit word spells; none where it is illegal. -/
def rvDecode (w : Nat) : Option RvInsn :=
  let (rd, f3, rs1, rs2, f7) := (bitsOf w 7 5, bitsOf w 12 3, bitsOf w 15 5, bitsOf w 20 5, bitsOf w 25 7)
  match bitsOf w 0 7 with
  | 0x37 => some (.lui rd (immU w))
  | 0x17 => some (.auipc rd (immU w))
  | 0x6F => some (.jal rd (immJ w))
  | 0x67 => if f3 = 0 then some (.jalr rd rs1 (immI w)) else Option.none
  | 0x63 => (rvCond f3).map (fun c => .branch c rs1 rs2 (immB w))
  | 0x03 => if f3 = 7 then Option.none else some (.load (2 ^ (f3 % 4)) (decide (f3 < 4)) rd rs1 (immI w))
  | 0x23 => if f3 < 4 then some (.store (2 ^ f3) rs2 rs1 (immS w)) else Option.none
  | 0x13 => rvOpImm false w
  | 0x1B => rvOpImm true w
  | 0x33 => (rvOp f7 f3).map (fun op => .alu op false rd rs1 (.reg rs2))
  | 0x3B => match rvOp f7 f3 with
    | some op => if rvHasWord op then some (.alu op true rd rs1 (.reg rs2)) else Option.none
    | Option.none => Option.none
  | 0x0F => if f3 = 0 then some .fence else if f3 = 1 then some .fenceI else Option.none
  | 0x73 => rvSystem w
  | 0x2F =>
    let f5 := bitsOf w 27 5
    if f3 ≠ 2 ∧ f3 ≠ 3 then Option.none
    else if f5 = 2 then (if rs2 = 0 then some (.lr (2 ^ f3) rd rs1) else Option.none)
    else if f5 = 3 then some (.sc (2 ^ f3) rd rs1 rs2)
    else (rvAmo f5).map (fun op => .amo op (2 ^ f3) rd rs1 rs2)
  | _ => Option.none

/-! ### Instructions of 16 bits -/

/-- The signed 6-bit immediate of a compressed word. -/
def immC (w : Nat) : Int := toSigned 6 (bitsOf w 12 1 * 32 + bitsOf w 2 5)

/-- The offset of a compressed jump. -/
def immCJ (w : Nat) : Int :=
  toSigned 12 (bitsOf w 12 1 * 2 ^ 11 + bitsOf w 8 1 * 2 ^ 10 + bitsOf w 9 2 * 2 ^ 8 + bitsOf w 6 1 * 2 ^ 7 +
    bitsOf w 7 1 * 2 ^ 6 + bitsOf w 2 1 * 2 ^ 5 + bitsOf w 11 1 * 2 ^ 4 + bitsOf w 3 3 * 2)

/-- The offset of a compressed branch. -/
def immCB (w : Nat) : Int :=
  toSigned 9 (bitsOf w 12 1 * 2 ^ 8 + bitsOf w 5 2 * 2 ^ 6 + bitsOf w 2 1 * 2 ^ 5 + bitsOf w 10 2 * 2 ^ 3 + bitsOf w 3 2 * 2)

/-- Quadrant 0: loads and stores through the eight popular registers, and a stack address. -/
def rvQuad0 (w : Nat) : Option RvInsn :=
  let (rd, rs1) := (8 + bitsOf w 2 3, 8 + bitsOf w 7 3)
  let offW : Nat := bitsOf w 5 1 * 64 + bitsOf w 10 3 * 8 + bitsOf w 6 1 * 4
  let offD : Nat := bitsOf w 5 2 * 64 + bitsOf w 10 3 * 8
  match bitsOf w 13 3 with
  | 0 =>
    let imm : Nat := bitsOf w 7 4 * 64 + bitsOf w 11 2 * 16 + bitsOf w 5 1 * 8 + bitsOf w 6 1 * 4
    if imm = 0 then Option.none else some (.alu .add false rd 2 (.imm imm))
  | 2 => some (.load 4 true rd rs1 offW)
  | 3 => some (.load 8 true rd rs1 offD)
  | 6 => some (.store 4 rd rs1 offW)
  | 7 => some (.store 8 rd rs1 offD)
  | _ => Option.none

/-- The register operations of quadrant 1. -/
def rvQuad1Alu (w : Nat) : Option RvInsn :=
  let (rd, rs2) := (8 + bitsOf w 7 3, 8 + bitsOf w 2 3)
  let sh : RvSrc := .imm (bitsOf w 12 1 * 32 + bitsOf w 2 5 : Nat)
  match bitsOf w 10 2, bitsOf w 12 1, bitsOf w 5 2 with
  | 0, _, _ => some (.alu .srl false rd rd sh)
  | 1, _, _ => some (.alu .sra false rd rd sh)
  | 2, _, _ => some (.alu .and false rd rd (.imm (immC w)))
  | 3, 0, 0 => some (.alu .sub false rd rd (.reg rs2))
  | 3, 0, 1 => some (.alu .xor false rd rd (.reg rs2))
  | 3, 0, 2 => some (.alu .or false rd rd (.reg rs2))
  | 3, 0, 3 => some (.alu .and false rd rd (.reg rs2))
  | 3, 1, 0 => some (.alu .sub true rd rd (.reg rs2))
  | 3, 1, 1 => some (.alu .add true rd rd (.reg rs2))
  | _, _, _ => Option.none

/-- Quadrant 1: immediates, jumps and branches. -/
def rvQuad1 (w : Nat) : Option RvInsn :=
  let rd := bitsOf w 7 5
  match bitsOf w 13 3 with
  | 0 => some (.alu .add false rd rd (.imm (immC w)))
  | 1 => if rd = 0 then Option.none else some (.alu .add true rd rd (.imm (immC w)))
  | 2 => some (.alu .add false rd 0 (.imm (immC w)))
  | 3 =>
    if immC w = 0 then Option.none
    else if rd = 2 then
      some (.alu .add false 2 2 (.imm (toSigned 10 (bitsOf w 12 1 * 512 + bitsOf w 3 2 * 128 + bitsOf w 5 1 * 64 +
        bitsOf w 2 1 * 32 + bitsOf w 6 1 * 16))))
    else some (.lui rd (immC w * 2 ^ 12))
  | 4 => rvQuad1Alu w
  | 5 => some (.jal 0 (immCJ w))
  | 6 => some (.branch .eq (8 + bitsOf w 7 3) 0 (immCB w))
  | _ => some (.branch .ne (8 + bitsOf w 7 3) 0 (immCB w))

/-- Quadrant 2: shifts, register moves and the stack. -/
def rvQuad2 (w : Nat) : Option RvInsn :=
  let (rd, rs2) := (bitsOf w 7 5, bitsOf w 2 5)
  match bitsOf w 13 3 with
  | 0 => some (.alu .sll false rd rd (.imm (bitsOf w 12 1 * 32 + rs2 : Nat)))
  | 2 =>
    if rd = 0 then Option.none
    else some (.load 4 true rd 2 (bitsOf w 2 2 * 64 + bitsOf w 12 1 * 32 + bitsOf w 4 3 * 4 : Nat))
  | 3 =>
    if rd = 0 then Option.none
    else some (.load 8 true rd 2 (bitsOf w 2 3 * 64 + bitsOf w 12 1 * 32 + bitsOf w 5 2 * 8 : Nat))
  | 4 =>
    if rs2 ≠ 0 then some (.alu .add false rd (if bitOf w 12 then rd else 0) (.reg rs2))
    else if bitOf w 12 then (if rd = 0 then some .ebreak else some (.jalr 1 rd 0))
    else if rd = 0 then Option.none
    else some (.jalr 0 rd 0)
  | 6 => some (.store 4 rs2 2 (bitsOf w 7 2 * 64 + bitsOf w 9 4 * 4 : Nat))
  | 7 => some (.store 8 rs2 2 (bitsOf w 7 3 * 64 + bitsOf w 10 3 * 8 : Nat))
  | _ => Option.none

/-- The instruction that a compressed word spells; none where it is illegal. -/
def rvDecodeC (w : Nat) : Option RvInsn :=
  match w % 4 with
  | 0 => rvQuad0 w
  | 1 => rvQuad1 w
  | _ => rvQuad2 w

end Sys2Proof.Machine
end

