-- ==== Sys2Proof/Machine/Rv.lean ====
section
/-! DEFINITION. A control core executes the instruction at its pc (R210): its fetch, its effect on the registers, the memory
accesses and CSR accesses of Hart, and what the performance counters see of it (R230). PRESUMED (log 37). -/

namespace Sys2Proof.Machine

/-- Register x`i` of a core. -/
def CoreState.xr (k : CoreState) (i : Nat) : BitVec 64 := if i = 0 then 0 else nth k.x i 0

/-- Register x`i` of core `c` written; x0 discards writes. -/
def State.setX (s : State) (c i : Nat) (v : BitVec 64) : State :=
  if i = 0 then s else s.setCore c { s.core c with x := setNth (s.core c).x i v 0 }

/-- The value of a second operand. -/
def CoreState.src (k : CoreState) (b : RvSrc) : BitVec 64 :=
  match b with
  | .reg i => k.xr i
  | .imm v => BitVec.ofInt 64 v

/-! ### Retirement (R210, R230) -/

/-- Cycles pass at core `c`, with what its lanes did in them: free values, two lane-cycles a cycle. DESIGN CHOICE (log 262). -/
def State.pmuCycles (s : State) (c : Nat) : State :=
  let (n, s) := s.fresh 16
  let s := (s.pmuCount c 1 (n + 1)).pmuCount c 3 (2 * (n + 1))
  forEach [4, 5, 6, 7, 0x10] (fun code x =>
    let (k, x) := x.fresh 16
    x.pmuCount c code (min k (2 * (n + 1)))) s

/-- The instruction of core `c` retires and the next one is at `pc`; the performance monitor counts it, if it is enabled
(R230). -/
def State.retire (s : State) (c : Nat) (pc : BitVec 64) : State :=
  let s := s.setCore c { s.core c with pc := pc, pcOpen := false, minstret := (s.core c).minstret + 1 }
  s.when (s.en 9) ((s.pmuCount c 2 1).pmuCycles c)

/-- A branch or an indirect jump may have been predicted otherwise, by a free value (R230). DESIGN CHOICE (log 262). -/
def State.predicted (s : State) (c : Nat) : State :=
  let (v, s) := s.fresh 1
  s.pmuCount c 8 v

/-! ### Traps of an instruction -/

/-- ECALL: the exception of its mode. -/
def State.ecall (s : State) (c : Nat) : State := s.trap c (if (s.core c).user then 8 else 11) (s.core c).pc 0

/-- EBREAK: mtval is 0 or the address of the instruction, by a free value. -/
def State.ebreak (s : State) (c : Nat) : State :=
  let (v, s) := s.fresh 1
  s.trap c 3 (s.core c).pc (if v = 0 then 0 else (s.core c).pc)

/-- WFI ends at once; in U mode with mstatus.TW set it is illegal. The cycles waited are a free value (R230).
DESIGN CHOICE (log 262). -/
def State.wfi (s : State) (c : Nat) (next : BitVec 64) : State :=
  if (s.core c).user && (s.core c).tw then s.illegal c
  else
    let (v, t) := s.fresh 16
    (t.pmuCount c 0x0F v).retire c next

/-! ### Accesses -/

/-- A load, load-reserved, store-conditional or atomic operation of core `c`: unless it ends in an exception, what it returns
goes to x`rd` as `f` makes it. An access that the REPEAT of an engine holds has not been made yet: the instruction
executes after it (R199). -/
def State.rvAccess (s : State) (c a n ev : Nat) (err : MemErr) (x : CoreAcc) (rd : Nat)
    (f : BitVec 64 → BitVec 64) (next : BitVec 64) : State :=
  if s.region c a = some .se ∧ (s.seHeld a n).isSome then s
  else
    let t := s.coreAccess c a n ev err x
    if t.resp.err then t else (t.setX c rd (f (t.core c).rd)).retire c next

/-- A CSR instruction: one that writes nothing only reads, and one of CSRRW with x0 does not read. minstret that it writes
does not count it. -/
def State.rvCsr (s : State) (c : Nat) (op : CsrOp) (rd n : Nat) (b : RvSrc) (next : BitVec 64) : State :=
  let w := (s.core c).src b
  let writes := decide (op = .write) || (match b with | .reg i => i != 0 | .imm v => v != 0)
  if s.csrIllegal c n writes then s.illegal c
  else
    let reads := decide (op ≠ .write ∨ rd ≠ 0)
    let t := if reads then s.csrRead c n else s
    let old := (t.core c).rd
    let u := if writes then t.csrWrite c n (csrNext op old.toNat w.toNat) else t
    let u := if reads then u.setX c rd old else u
    let u := u.retire c next
    if writes ∧ n = 0xB02 then u.setCore c { u.core c with minstret := (u.core c).minstret - 1 } else u

/-! ### Execution -/

/-- Core `c` executes instruction `i`, of `len` bytes, at its pc; `ev` and `err` are the events and the memory error that
its access meets. -/
def State.rvExec (s : State) (c ev : Nat) (err : MemErr) (len : Nat) (i : RvInsn) : State :=
  let k := s.core c
  let next := k.pc + BitVec.ofNat 64 len
  let dest (off : Int) : BitVec 64 := k.pc + BitVec.ofInt 64 off
  let addr (r : Nat) (off : Int) : Nat := (k.xr r + BitVec.ofInt 64 off).toNat
  let word (n : Nat) (v : BitVec 64) : BitVec 64 := rvLoaded n true v
  match i with
  | .lui rd imm => (s.setX c rd (BitVec.ofInt 64 imm)).retire c next
  | .auipc rd imm => (s.setX c rd (dest imm)).retire c next
  | .jal rd off => (s.setX c rd next).retire c (dest off)
  | .jalr rd rs1 off =>
    ((s.setX c rd next).predicted c).retire c ((k.xr rs1 + BitVec.ofInt 64 off) &&& ~~~1#64)
  | .branch q a b off => (s.predicted c).retire c (if rvTaken q (k.xr a) (k.xr b) then dest off else next)
  | .alu op w rd rs1 b => (s.setX c rd (rvResult op w (k.xr rs1) (k.src b))).retire c next
  | .load n sg rd rs1 off => s.rvAccess c (addr rs1 off) n ev err .load rd (rvLoaded n sg) next
  | .store n rs2 rs1 off => s.rvAccess c (addr rs1 off) n ev err (.store (k.xr rs2)) 0 id next
  | .lr n rd rs1 => s.rvAccess c (addr rs1 0) n ev err .reserve rd (word n) next
  | .sc n rd rs1 rs2 => s.rvAccess c (addr rs1 0) n ev err (.conditional (k.xr rs2)) rd id next
  | .amo op n rd rs1 rs2 => s.rvAccess c (addr rs1 0) n ev err (.amo op (k.xr rs2)) rd (word n) next
  | .csr op rd n b => s.rvCsr c op rd n b next
  | .fence => s.retire c next
  | .fenceI => (s.setCore c { k with stale := [] }).retire c next
  | .ecall => s.ecall c
  | .ebreak => s.ebreak c
  | .mret => if k.user then s.illegal c else (s.retire c next).mret c
  | .wfi => s.wfi c next

/-- The half-word of an instruction at `a`; whether the instruction cache misses is a free value (R230).
DESIGN CHOICE (log 262). -/
def State.rvFetch (s : State) (c : Nat) (a : BitVec 64) : State :=
  let (v, s) := s.fresh 1
  (s.pmuCount c 9 v).coreAccess c a.toNat 2 0 .none .fetch

/-- Core `c` executes what it has fetched, or takes the illegal-instruction exception. -/
def State.rvDo (s : State) (c ev : Nat) (err : MemErr) (len : Nat) (i : Option RvInsn) : State :=
  match i with
  | some i => s.rvExec c ev err len i
  | Option.none => s.illegal c

/-- Core `c` executes the instruction at its pc: of two or of four bytes, each half-word fetched with its faults (R210, R212,
R213). -/
def State.rvStep (s : State) (c ev : Nat) (err : MemErr) : State :=
  let pc := (s.core c).pc
  let t := s.rvFetch c pc
  let lo := t.resp.data.toNat % 65536
  if t.resp.err then t
  else if lo % 4 ≠ 3 then t.rvDo c ev err 2 (rvDecodeC lo)
  else
    let u := t.rvFetch c (pc + 2)
    if u.resp.err then u else u.rvDo c ev err 4 (rvDecode (lo + u.resp.data.toNat % 65536 * 65536))

/-- The instruction at the pc of core `c`, executed whole. Where the commands do not tell its pc and mode, the row does.
DEDUCED (log 38). -/
def State.coreRun (s : State) (c : Nat) (user : Bool) (pc : BitVec 64) (ev : Nat) (err : MemErr) : State :=
  let s := if (s.core c).pcOpen then s.setCore c { s.core c with user := user, pc := pc &&& ~~~1#64, pcOpen := false } else s
  s.rvStep c ev err

end Sys2Proof.Machine
end

