-- ==== Sys2Proof/Machine/Rows.lean ====
section
/-! DEFINITION. The rows of an access: by a control core, whose instruction it is, by a signal engine or by the debug port
(R7 to R11, R165, R183, R213). -/

namespace Sys2Proof.Machine

/-- The instruction of core `c` that the access `how` describes, at address or CSR `a`, with the value that it stores; or
the instruction at its pc. -/
def State.coreInsn (s : State) (c a : Nat) (how : Access) (v : Option (BitVec 64)) (ev : Nat) : State :=
  if how.op = .run then (s.coreRun c how.user how.pc ev how.err).irqs else
  let s := s.atInsn c how.user how.pc
  (match how.op, v with
   | .plain, Option.none => s.coreAccess c a how.size ev how.err .load
   | .plain, some v => s.coreAccess c a how.size ev how.err (.store v)
   | .fetch, Option.none => s.coreAccess c a how.size ev how.err .fetch
   | .reserved, Option.none => s.coreAccess c a how.size ev how.err .reserve
   | .reserved, some v => s.coreAccess c a how.size ev how.err (.conditional v)
   | .amo op, some v => s.coreAccess c a how.size ev how.err (.amo op v)
   | .csr op, v => s.csrAccess c a op v
   | .mret, _ => s.coreMret c
   | .run, _ => s
   | .fetch, some _ | .amo _, Option.none => s).irqs

/-- A plain load or store of core `c` in the mode and at the pc that its state holds. -/
def State.plainAccess (s : State) (c size : Nat) (err : MemErr) : Access :=
  ⟨size, .plain, (s.core c).user, (s.core c).pc, err⟩

/-- REGISTER_WRITE (R7, R9, R213): a write by the initiator; of a core, its store, conditional store, atomic operation, CSR
write or MRET. -/
def execRegisterWrite (ini : Initiator) (addr : Nat) (v : BitVec 64) (how : Access) (events : W32) (s : State) :
    Host.Outcome State Fault Refusal :=
  .next (live s (s.when (s.canAct ini) (match ini with
    | .core c => s.coreInsn c addr how (some v) events.toNat
    | .debug => s.debugAccess addr how.size events.toNat how.err (some (v.setWidth 32))
    | _ => (s.busWriteEv ini addr how.size (v.setWidth 32) events.toNat).busEnd ini)))

/-- READ_LOW_WORD (R10, R213): a read by the initiator; of a core, its load, fetch, load-reserved, CSR read or MRET. -/
def execReadLowWord (ini : Initiator) (addr : Nat) (how : Access) (s : State) : Host.Outcome State Fault Refusal :=
  .next (live s (s.when (s.canAct ini) (match ini with
    | .core c => s.coreInsn c addr how Option.none 0
    | .debug => s.debugAccess addr how.size 0 how.err Option.none
    | _ => (s.busRead ini addr how.size).busEnd ini)))

/-- A word write by an initiator that can make one. -/
def State.wordAccess (s : State) (ini : Initiator) (addr : Nat) (v : W32) : State :=
  s.when (s.canAct ini) (match ini with
    | .core c => s.coreInsn c addr (s.plainAccess c 4 .none) (some (v.setWidth 64)) 0
    | _ => (s.busWrite ini addr 4 v).busEnd ini)

/-- WRITE_HIGH_WORD (R11). -/
def execWriteHighWord (ini : Initiator) (addr : Nat) (v : W32) (s : State) : Host.Outcome State Fault Refusal :=
  .next (live s (s.wordAccess ini addr v))

/-- WRITE_LOW_WORD (R11). -/
def execWriteLowWord (ini : Initiator) (addr : Nat) (v : W32) (s : State) : Host.Outcome State Fault Refusal :=
  .next (live s (s.wordAccess ini addr v))

/-- CLE_WINDOW_WRITE (R165). -/
def execCleWindowWrite (ini : Initiator) (addr size : Nat) (v : W32) (s : State) : Host.Outcome State Fault Refusal :=
  .next (live s (s.when (s.canAct ini) (match ini with
    | .core c => s.coreInsn c addr (s.plainAccess c size .none) (some (v.setWidth 64)) 0
    | _ => (s.windowWrite ini addr size v).busEnd ini)))

/-- SE_MEMORY_ACCESS (R183). DEDUCED (log 118). -/
def execSeMemoryAccess (c : Fin 8) (addr size : Nat) (v : Option W32) (err : MemErr) (s : State) :
    Host.Outcome State Fault Refusal :=
  .next (live s (s.when (s.canAct (.core c))
    (s.coreInsn c addr (s.plainAccess c size err) (v.map (fun w => w.setWidth 64)) 0)))

end Sys2Proof.Machine
end

