-- ==== Sys2Proof/Machine/Dispatch.lean ====
section
/-! DEFINITION. The meaning of every command: one arm for each row of the table. -/

namespace Sys2Proof.Machine

/-- What a command does to the state, its queue of waiting commands apart. -/
def exec (i : Instr) (s : State) : Host.Outcome State Fault Refusal :=
  match i with
  | .registerWrite ini addr v how events => Sys2Proof.Machine.execRegisterWrite ini addr v how events s
  | .readLowWord ini addr how => Sys2Proof.Machine.execReadLowWord ini addr how s
  | .writeHighWord ini addr v => Sys2Proof.Machine.execWriteHighWord ini addr v s
  | .writeLowWord ini addr v => Sys2Proof.Machine.execWriteLowWord ini addr v s
  | .commit page => Sys2Proof.Machine.execCommit page s
  | .commitApplyUnlocked page => Sys2Proof.Machine.execCommitApplyUnlocked page s
  | .softReset page v => Sys2Proof.Machine.execSoftReset page v s
  | .softResetDone page => Sys2Proof.Machine.execSoftResetDone page s
  | .faultCountClear page => Sys2Proof.Machine.execFaultCountClear page s
  | .blockEnable page => Sys2Proof.Machine.execBlockEnable page s
  | .blockDisable page => Sys2Proof.Machine.execBlockDisable page s
  | .powerOnReset vin => Sys2Proof.Machine.execPowerOnReset vin s
  | .overvoltageShutdown vin => Sys2Proof.Machine.execOvervoltageShutdown vin s
  | .clockFailure => Sys2Proof.Machine.execClockFailure s
  | .thermalShutdown => Sys2Proof.Machine.execThermalShutdown s
  | .nreset ns => Sys2Proof.Machine.execNreset ns s
  | .swrstArm => Sys2Proof.Machine.execSwrstArm s
  | .softwareReset since => Sys2Proof.Machine.execSoftwareReset since s
  | .restart dt => Sys2Proof.Machine.execRestart dt s
  | .resetRelease straps => Sys2Proof.Machine.execResetRelease straps s
  | .resetWipeComplete => Sys2Proof.Machine.execResetWipeComplete s
  | .vinExcursion vin => Sys2Proof.Machine.execVinExcursion vin s
  | .dieTemperatureLimit t => Sys2Proof.Machine.execDieTemperatureLimit t s
  | .vinMinClear => Sys2Proof.Machine.execVinMinClear s
  | .laneLockCountClear => Sys2Proof.Machine.execLaneLockCountClear s
  | .coreStart c => Sys2Proof.Machine.execCoreStart c s
  | .strike => Sys2Proof.Machine.execStrike s
  | .localTickInstant => Sys2Proof.Machine.execLocalTickInstant s
  | .harvestOpen => Sys2Proof.Machine.execHarvestOpen s
  | .originTimeout => Sys2Proof.Machine.execOriginTimeout s
  | .harvestCutoff => Sys2Proof.Machine.execHarvestCutoff s
  | .decideBegin arm => Sys2Proof.Machine.execDecideBegin arm s
  | .broadcast arm => Sys2Proof.Machine.execBroadcast arm s
  | .commandDeadline => Sys2Proof.Machine.execCommandDeadline s
  | .eveClose => Sys2Proof.Machine.execEveClose s
  | .drainInstant => Sys2Proof.Machine.execDrainInstant s
  | .repeatCountClear => Sys2Proof.Machine.execRepeatCountClear s
  | .drainCountClear => Sys2Proof.Machine.execDrainCountClear s
  | .trajectoryLoss arm => Sys2Proof.Machine.execTrajectoryLoss arm s
  | .losAssert n lock mv ns inFrame => Sys2Proof.Machine.execLosAssert n lock mv ns inFrame s
  | .losClear n mv ns => Sys2Proof.Machine.execLosClear n mv ns s
  | .blockLock n => Sys2Proof.Machine.execBlockLock n s
  | .blockLockLoss n inFrame => Sys2Proof.Machine.execBlockLockLoss n inFrame s
  | .frequencyWindow n ppm inFrame => Sys2Proof.Machine.execFrequencyWindow n ppm inFrame s
  | .trainBlockReceive n pay sent mine => Sys2Proof.Machine.execTrainBlockReceive n pay sent mine s
  | .countdownComplete n => Sys2Proof.Machine.execCountdownComplete n s
  | .trainTimeout n => Sys2Proof.Machine.execTrainTimeout n s
  | .verifyComplete n => Sys2Proof.Machine.execVerifyComplete n s
  | .remoteFault n => Sys2Proof.Machine.execRemoteFault n s
  | .trainBlockInUp n inFrame => Sys2Proof.Machine.execTrainBlockInUp n inFrame s
  | .retryHoldoffExpiry n => Sys2Proof.Machine.execRetryHoldoffExpiry n s
  | .retrain n => Sys2Proof.Machine.execRetrain n s
  | .laneCounterClear n => Sys2Proof.Machine.execLaneCounterClear n s
  | .laneAdmission n => Sys2Proof.Machine.execLaneAdmission n s
  | .leapSite n occ inFrame leaps lstat => Sys2Proof.Machine.execLeapSite n occ inFrame leaps lstat s
  | .invalidBlock n sym inFrame gap => Sys2Proof.Machine.execInvalidBlock n sym inFrame gap s
  | .abortReceive n => Sys2Proof.Machine.execAbortReceive n s
  | .frameRelay n m f => Sys2Proof.Machine.execFrameRelay n m f s
  | .unknownFrame n m f => Sys2Proof.Machine.execUnknownFrame n m f s
  | .harvestFrameRelay n f => Sys2Proof.Machine.execHarvestFrameRelay n f s
  | .harvestFrameReceive n f => Sys2Proof.Machine.execHarvestFrameReceive n f s
  | .keyExtractReceive n f => Sys2Proof.Machine.execKeyExtractReceive n f s
  | .slotCopySend => Sys2Proof.Machine.execSlotCopySend s
  | .slotCopyReceive n f => Sys2Proof.Machine.execSlotCopyReceive n f s
  | .downFrameReceive n f => Sys2Proof.Machine.execDownFrameReceive n f s
  | .repeatFrameReceive n f => Sys2Proof.Machine.execRepeatFrameReceive n f s
  | .trajectoryReceive n f => Sys2Proof.Machine.execTrajectoryReceive n f s
  | .reportReceive n f => Sys2Proof.Machine.execReportReceive n f s
  | .mailboxResend ring => Sys2Proof.Machine.execMailboxResend ring s
  | .mailboxFrameReceive n f => Sys2Proof.Machine.execMailboxFrameReceive n f s
  | .mailboxFrameResend dst => Sys2Proof.Machine.execMailboxFrameResend dst s
  | .azfCounterClear => Sys2Proof.Machine.execAzfCounterClear s
  | .timingFrameOrigin => Sys2Proof.Machine.execTimingFrameOrigin s
  | .timingFrameRelay n m f res => Sys2Proof.Machine.execTimingFrameRelay n m f res s
  | .timingFrameReceive n f rxts => Sys2Proof.Machine.execTimingFrameReceive n f rxts s
  | .alignmentLost => Sys2Proof.Machine.execAlignmentLost s
  | .probeSend n t1 => Sys2Proof.Machine.execProbeSend n t1 s
  | .probeReceive n f turn => Sys2Proof.Machine.execProbeReceive n f turn s
  | .probeReplyReceive n f t4 => Sys2Proof.Machine.execProbeReplyReceive n f t4 s
  | .enumGo => Sys2Proof.Machine.execEnumGo s
  | .enumReceive n f => Sys2Proof.Machine.execEnumReceive n f s
  | .enumReplyReceive n f => Sys2Proof.Machine.execEnumReplyReceive n f s
  | .enumFindingTimeout ring => Sys2Proof.Machine.execEnumFindingTimeout ring s
  | .assignReceive n f => Sys2Proof.Machine.execAssignReceive n f s
  | .adcStrikeConversionDone raw0 raw1 => Sys2Proof.Machine.execAdcStrikeConversionDone raw0 raw1 s
  | .leaveSend node => Sys2Proof.Machine.execLeaveSend node s
  | .weightsMessage age stick => Sys2Proof.Machine.execWeightsMessage age stick s
  | .leaveMessage => Sys2Proof.Machine.execLeaveMessage s
  | .rejoinMessage => Sys2Proof.Machine.execRejoinMessage s
  | .icmdLeave => Sys2Proof.Machine.execIcmdLeave s
  | .icmdRejoin => Sys2Proof.Machine.execIcmdRejoin s
  | .rhoClear n => Sys2Proof.Machine.execRhoClear n s
  | .rseCounterClear => Sys2Proof.Machine.execRseCounterClear s
  | .trimEdge => Sys2Proof.Machine.execTrimEdge s
  | .deadTimeEnd => Sys2Proof.Machine.execDeadTimeEnd s
  | .gateFault n high ns => Sys2Proof.Machine.execGateFault n high ns s
  | .gateFaultClear bits active => Sys2Proof.Machine.execGateFaultClear bits active s
  | .bypassSet => Sys2Proof.Machine.execBypassSet s
  | .bypassClear => Sys2Proof.Machine.execBypassClear s
  | .debugHalt c => Sys2Proof.Machine.execDebugHalt c s
  | .debugRelease c => Sys2Proof.Machine.execDebugRelease c s
  | .carrierPeriodStart => Sys2Proof.Machine.execCarrierPeriodStart s
  | .pwmCounterClear => Sys2Proof.Machine.execPwmCounterClear s
  | .calibrate => Sys2Proof.Machine.execCalibrate s
  | .calibrationDone g0 o0 g1 o1 => Sys2Proof.Machine.execCalibrationDone g0 o0 g1 o1 s
  | .offsetTrackingConversion c z => Sys2Proof.Machine.execOffsetTrackingConversion c z s
  | .sequencerEntryDue c e => Sys2Proof.Machine.execSequencerEntryDue c e s
  | .sequencerConversionDone c e raws => Sys2Proof.Machine.execSequencerConversionDone c e raws s
  | .adcCounterClear => Sys2Proof.Machine.execAdcCounterClear s
  | .cleTrigger n => Sys2Proof.Machine.execCleTrigger n s
  | .cleRun n => Sys2Proof.Machine.execCleRun n s
  | .cleEvaluationStart => Sys2Proof.Machine.execCleEvaluationStart s
  | .cleEvaluationDone => Sys2Proof.Machine.execCleEvaluationDone s
  | .cleWindowWrite ini addr size v => Sys2Proof.Machine.execCleWindowWrite ini addr size v s
  | .cleCounterClear => Sys2Proof.Machine.execCleCounterClear s
  | .pgnPublish => Sys2Proof.Machine.execPgnPublish s
  | .pgnPreset bits => Sys2Proof.Machine.execPgnPreset bits s
  | .seNop n p => Sys2Proof.Machine.execSeNop n p s
  | .seAdd n p => Sys2Proof.Machine.execSeAdd n p s
  | .seSub n p => Sys2Proof.Machine.execSeSub n p s
  | .seCmp n p => Sys2Proof.Machine.execSeCmp n p s
  | .seMov n p => Sys2Proof.Machine.execSeMov n p s
  | .seAbs n p => Sys2Proof.Machine.execSeAbs n p s
  | .seNeg n p => Sys2Proof.Machine.execSeNeg n p s
  | .seClr n p => Sys2Proof.Machine.execSeClr n p s
  | .seMul n p => Sys2Proof.Machine.execSeMul n p s
  | .seMac n p => Sys2Proof.Machine.execSeMac n p s
  | .seMsb n p => Sys2Proof.Machine.execSeMsb n p s
  | .seMulr n p => Sys2Proof.Machine.execSeMulr n p s
  | .seMacr n p => Sys2Proof.Machine.execSeMacr n p s
  | .seMsbr n p => Sys2Proof.Machine.execSeMsbr n p s
  | .seRnd n p => Sys2Proof.Machine.execSeRnd n p s
  | .seSat n p => Sys2Proof.Machine.execSeSat n p s
  | .seShl n p => Sys2Proof.Machine.execSeShl n p s
  | .seShr n p => Sys2Proof.Machine.execSeShr n p s
  | .seExp n p => Sys2Proof.Machine.execSeExp n p s
  | .seNorm n p => Sys2Proof.Machine.execSeNorm n p s
  | .seAnd n p => Sys2Proof.Machine.execSeAnd n p s
  | .seOr n p => Sys2Proof.Machine.execSeOr n p s
  | .seXor n p => Sys2Proof.Machine.execSeXor n p s
  | .seMax n p => Sys2Proof.Machine.execSeMax n p s
  | .seMin n p => Sys2Proof.Machine.execSeMin n p s
  | .seLdi n reg hi imm => Sys2Proof.Machine.execSeLdi n reg hi imm s
  | .seMovr n dst src => Sys2Proof.Machine.execSeMovr n dst src s
  | .seLda n y reg addr => Sys2Proof.Machine.execSeLda n y reg addr s
  | .seSta n y reg addr => Sys2Proof.Machine.execSeSta n y reg addr s
  | .seLdo n y reg k ofs => Sys2Proof.Machine.execSeLdo n y reg k ofs s
  | .seSto n y reg k ofs => Sys2Proof.Machine.execSeSto n y reg k ofs s
  | .seJmpcc n cc target => Sys2Proof.Machine.execSeJmpcc n cc target s
  | .seCall n target => Sys2Proof.Machine.execSeCall n target s
  | .seRet n => Sys2Proof.Machine.execSeRet n s
  | .seRepeat n src cnt reg => Sys2Proof.Machine.execSeRepeat n src cnt reg s
  | .seDbnz n reg target => Sys2Proof.Machine.execSeDbnz n reg target s
  | .seHalt n => Sys2Proof.Machine.execSeHalt n s
  | .seSig n code => Sys2Proof.Machine.execSeSig n code s
  | .seAsh n d sh => Sys2Proof.Machine.execSeAsh n d sh s
  | .seAddi n reg imm => Sys2Proof.Machine.execSeAddi n reg imm s
  | .seIold n reg word => Sys2Proof.Machine.execSeIold n reg word s
  | .seIost n reg word => Sys2Proof.Machine.execSeIost n reg word s
  | .seEntryTrigger n k => Sys2Proof.Machine.execSeEntryTrigger n k s
  | .seStart n bits => Sys2Proof.Machine.execSeStart n bits s
  | .seStop n => Sys2Proof.Machine.execSeStop n s
  | .seProgramStart n => Sys2Proof.Machine.execSeProgramStart n s
  | .seMemoryAccess c addr size v err => Sys2Proof.Machine.execSeMemoryAccess c addr size v err s
  | .seCounterClear n => Sys2Proof.Machine.execSeCounterClear n s
  | .sourceEvent src arg => Sys2Proof.Machine.execSourceEvent src arg s
  | .slotFill => Sys2Proof.Machine.execSlotFill s
  | .mdsxTake c umode pc => Sys2Proof.Machine.execMdsxTake c umode pc s
  | .mdsxDoneRead c umode pc => Sys2Proof.Machine.execMdsxDoneRead c umode pc s
  | .mdsxDoneWrite c umode pc => Sys2Proof.Machine.execMdsxDoneWrite c umode pc s
  | .post num arg => Sys2Proof.Machine.execPost num arg s
  | .cancel src sameCycle => Sys2Proof.Machine.execCancel src sameCycle s
  | .timerConfigure n v => Sys2Proof.Machine.execTimerConfigure n v s
  | .timerExpiry n => Sys2Proof.Machine.execTimerExpiry n s
  | .dispatchWatchdog c => Sys2Proof.Machine.execDispatchWatchdog c s
  | .dsxCounterClear => Sys2Proof.Machine.execDsxCounterClear s
  | .timeCsrRead c umode pc => Sys2Proof.Machine.execTimeCsrRead c umode pc s
  | .fenceI c => Sys2Proof.Machine.execFenceI c s
  | .counterWrap c j => Sys2Proof.Machine.execCounterWrap c j s
  | .counterWrite c j v => Sys2Proof.Machine.execCounterWrite c j v s
  | .psbSample c r => Sys2Proof.Machine.execPsbSample c r s
  | .psbRead c => Sys2Proof.Machine.execPsbRead c s
  | .psbEnable c v => Sys2Proof.Machine.execPsbEnable c v s
  | .offsetDelivery v => Sys2Proof.Machine.execOffsetDelivery v s
  | .accept => Sys2Proof.Machine.execAccept s
  | .resume => Sys2Proof.Machine.execResume s
  | .snap => Sys2Proof.Machine.execSnap s
  | .tbsCounterClear => Sys2Proof.Machine.execTbsCounterClear s
  | .holdTimeout dt => Sys2Proof.Machine.execHoldTimeout dt s
  | .timedHeadArrival m => Sys2Proof.Machine.execTimedHeadArrival m s
  | .timedLaunch m => Sys2Proof.Machine.execTimedLaunch m s
  | .ethFrameTransmit m => Sys2Proof.Machine.execEthFrameTransmit m s
  | .ethFrameReceive m f fcsOk => Sys2Proof.Machine.execEthFrameReceive m f fcsOk s
  | .captureRead m => Sys2Proof.Machine.execCaptureRead m s
  | .txTailWrite m v => Sys2Proof.Machine.execTxTailWrite m v s
  | .rxTailWrite m v => Sys2Proof.Machine.execRxTailWrite m v s
  | .descriptorCompletion m tx => Sys2Proof.Machine.execDescriptorCompletion m tx s
  | .acqSample => Sys2Proof.Machine.execAcqSample s
  | .arm => Sys2Proof.Machine.execArm s
  | .acqStop => Sys2Proof.Machine.execAcqStop s
  | .force => Sys2Proof.Machine.execForce s
  | .acqCounterClear => Sys2Proof.Machine.execAcqCounterClear s
  | .rdptrWrite v => Sys2Proof.Machine.execRdptrWrite v s
  | .encoderDone => Sys2Proof.Machine.execEncoderDone s
  | .windowCopyDone => Sys2Proof.Machine.execWindowCopyDone s
  | .measurementDone => Sys2Proof.Machine.execMeasurementDone s
  | .measurementTimeout => Sys2Proof.Machine.execMeasurementTimeout s
  | .startTimeout => Sys2Proof.Machine.execStartTimeout s
  | .mirrorLaunch => Sys2Proof.Machine.execMirrorLaunch s
  | .shortMirrorSend => Sys2Proof.Machine.execShortMirrorSend s
  | .mirrorReceive n f => Sys2Proof.Machine.execMirrorReceive n f s
  | .yield => Sys2Proof.Machine.execYield s
  | .revertRequest => Sys2Proof.Machine.execRevertRequest s
  | .redCounterClear => Sys2Proof.Machine.execRedCounterClear s
  | .fcuEvent src dt => Sys2Proof.Machine.execFcuEvent src dt s
  | .quietPeriodExpiry src dt => Sys2Proof.Machine.execQuietPeriodExpiry src dt s
  | .recoveryAgeing src dt => Sys2Proof.Machine.execRecoveryAgeing src dt s
  | .unlatch src => Sys2Proof.Machine.execUnlatch src s
  | .lostClear => Sys2Proof.Machine.execLostClear s
  | .logrdWrite v => Sys2Proof.Machine.execLogrdWrite v s
  | .hourlyEntry pdc pds vstr => Sys2Proof.Machine.execHourlyEntry pdc pds vstr s
  | .startEntry => Sys2Proof.Machine.execStartEntry s
  | .almanacProgramDone ok => Sys2Proof.Machine.execAlmanacProgramDone ok s
  | .temperatureSample tdie => Sys2Proof.Machine.execTemperatureSample tdie s
  | .epOpen => Sys2Proof.Machine.execEpOpen s
  | .epClose => Sys2Proof.Machine.execEpClose s
  | .guardBandStep => Sys2Proof.Machine.execGuardBandStep s
  | .rdataRead => Sys2Proof.Machine.execRdataRead s
  | .dramScrub addr err passEnd => Sys2Proof.Machine.execDramScrub addr err passEnd s
  | .linkFrame side f => Sys2Proof.Machine.execLinkFrame side f s
  | .linkLoss side => Sys2Proof.Machine.execLinkLoss side s
  | .linkRecovery side => Sys2Proof.Machine.execLinkRecovery side s
  | .outputWrite v => Sys2Proof.Machine.execOutputWrite v s
  | .outputSet v => Sys2Proof.Machine.execOutputSet v s
  | .outputClear v => Sys2Proof.Machine.execOutputClear v s
  | .modeChange n v => Sys2Proof.Machine.execModeChange n v s
  | .inputChange n mv us => Sys2Proof.Machine.execInputChange n mv us s
  | .outputThermalShutdown n => Sys2Proof.Machine.execOutputThermalShutdown n s
  | .thermalRestart n => Sys2Proof.Machine.execThermalRestart n s
  | .groupShutdown g => Sys2Proof.Machine.execGroupShutdown g s
  | .groupClear g => Sys2Proof.Machine.execGroupClear g s
  | .fioRestart => Sys2Proof.Machine.execFioRestart s
  | .fioCounterClear => Sys2Proof.Machine.execFioCounterClear s
  | .darkTestRound => Sys2Proof.Machine.execDarkTestRound s
  | .darkTestEnd pin => Sys2Proof.Machine.execDarkTestEnd pin s
  | .darkTestAbandon => Sys2Proof.Machine.execDarkTestAbandon s
  | .stuckHighClassification n partner => Sys2Proof.Machine.execStuckHighClassification n partner s
  | .vfldThreshold volt => Sys2Proof.Machine.execVfldThreshold volt s
  | .fieldDieReset => Sys2Proof.Machine.execFieldDieReset s
  | .bypassPullInEnd => Sys2Proof.Machine.execBypassPullInEnd s
  | .encWindowEnd n => Sys2Proof.Machine.execEncWindowEnd n s
  | .wireFault n pair present => Sys2Proof.Machine.execWireFault n pair present s
  | .encConfigure n v => Sys2Proof.Machine.execEncConfigure n v s
  | .encCounterClear => Sys2Proof.Machine.execEncCounterClear s
  | .safSelfTestDone ch ok => Sys2Proof.Machine.execSafSelfTestDone ch ok s
  | .crossChannelExchange => Sys2Proof.Machine.execCrossChannelExchange s
  | .clockSupervisorFault ch => Sys2Proof.Machine.execClockSupervisorFault ch s
  | .safetyDemand ch inp => Sys2Proof.Machine.execSafetyDemand ch inp s
  | .discrepancy sip => Sys2Proof.Machine.execDiscrepancy sip s
  | .switchRead a b => Sys2Proof.Machine.execSwitchRead a b s
  | .safetyOutputTest ch ok demand => Sys2Proof.Machine.execSafetyOutputTest ch ok demand s
  | .motionViolation ch cause => Sys2Proof.Machine.execMotionViolation ch cause s
  | .violationRelease ch => Sys2Proof.Machine.execViolationRelease ch s
  | .dischargeTimeReached ch => Sys2Proof.Machine.execDischargeTimeReached ch s
  | .safMirrorUpdate => Sys2Proof.Machine.execSafMirrorUpdate s
  | .bootVerify => Sys2Proof.Machine.execBootVerify s
  | .meas0Lock => Sys2Proof.Machine.execMeas0Lock s
  | .imageSegment slot ofs bytes => Sys2Proof.Machine.execImageSegment slot ofs bytes s
  | .imageEnd slot len => Sys2Proof.Machine.execImageEnd slot len s
  | .nonce => Sys2Proof.Machine.execNonce s
  | .verify => Sys2Proof.Machine.execVerify s
  | .sign => Sys2Proof.Machine.execSign s
  | .attest => Sys2Proof.Machine.execAttest s
  | .extend => Sys2Proof.Machine.execExtend s
  | .order => Sys2Proof.Machine.execOrder s
  | .mlock => Sys2Proof.Machine.execMlock s
  | .svnCommit => Sys2Proof.Machine.execSvnCommit s
  | .secCommandDone => Sys2Proof.Machine.execSecCommandDone s
  | .subtreeRebuildDone => Sys2Proof.Machine.execSubtreeRebuildDone s
  | .lowerTreeDone => Sys2Proof.Machine.execLowerTreeDone s
  | .topTreeDone => Sys2Proof.Machine.execTopTreeDone s
  | .transitionWipeDone => Sys2Proof.Machine.execTransitionWipeDone s
  | .entropyFailure => Sys2Proof.Machine.execEntropyFailure s
  | .fieldDieStart => Sys2Proof.Machine.execFieldDieStart s
  | .lanePllLockLoss n inFrame => Sys2Proof.Machine.execLanePllLockLoss n inFrame s
  | .railExcursion rail ok => Sys2Proof.Machine.execRailExcursion rail ok s
  | .encoderEdge n inp level => Sys2Proof.Machine.execEncoderEdge n inp level s
  | .healthyFor1S sip => Sys2Proof.Machine.execHealthyFor1S sip s
  | .carrierCompare n => Sys2Proof.Machine.execCarrierCompare n s
  | .sramScrub mem word err => Sys2Proof.Machine.execSramScrub mem word err s
  | .ethLinkChange m up => Sys2Proof.Machine.execEthLinkChange m up s

end Sys2Proof.Machine
end

