-- ==== Sys2Proof/Machine/Step.lean ====
section
/-! DEFINITION. One step of the module: the first waiting command, or, with none waiting, one cycle of the 250 MHz
counter of system time. -/

namespace Sys2Proof.Machine

/-- The step: the command at the front of the queue acts on the state with the rest of the queue; with an empty queue
4 ns pass (DESIGN CHOICE), on the field die alone while the module is in reset (R367). DESIGN CHOICE (log 1, 2). -/
def step (s : State) : Host.Outcome State Fault Refusal :=
  match s.pending with
  | c :: rest => exec c { s with pending := rest }
  | [] => .next (s.idle 4)

/-- The state with the command that a word spells at the front of its queue; no word spells one, so it is unchanged.
DEDUCED (log 7). -/
def State.withFetchWord (s : State) (nbits w : Nat) : State :=
  match decodeTableWord nbits w with
  | some c => { s with pending := c :: s.pending }
  | Option.none => s

end Sys2Proof.Machine
end

