-- ==== Sys2Proof/Safety.lean ====
section
/-! DEFINITION. The terms in which claims about the module are stated: what a command answers, which register fields
it may change, and the invariant of the module's plain data. -/

namespace Sys2Proof.Machine

/-- The command answers a next state of which `P` holds. -/
def Answers (c : Instr) (s : State) (P : State → Prop) : Prop := ∃ t, exec c s = .next t ∧ P t

/-- Every register field but those of `l` reads in `t` as it reads in `s`. -/
def KeepsFieldsBut (l : List Fld) (s t : State) : Prop := ∀ g : Fld, g.key ∉ l.map Fld.key → t.get g = s.get g

/-- `t` differs from `s` in nothing but register fields of `l`: memory, flash, queues and every record behind the
registers are as they were. -/
def OnlyFields (l : List Fld) (s t : State) : Prop := { t with regs := s.regs } = s ∧ KeepsFieldsBut l s t

/-- The module runs, and page `p` is powered in the latched role and not in a soft reset: it takes command words
(R16, R431). -/
def State.Takes (s : State) (p : Nat) : Prop := s.phase = .run ∧ s.gated p = false ∧ s.on (R.SRB p) = false

/-- A plain access of a word by the initiator goes out to the register region: of a core that runs and may make it by its
PMP entries, of an engine that executes, or of an open debug port with register scope (R203, R212, R213, R396, R400). -/
def State.Reaches (s : State) (ini : Initiator) (how : Access) (kind : AccKind) (a : Nat) : Prop :=
  s.phase = .run ∧ how.size = 4 ∧ how.op = .plain ∧
  match ini with
  | .core c => s.coreOn c = true ∧ s.coreHalted c = false ∧
      (s.core c).pmpRefuses kind (({ s.core c with user := how.user } : CoreState).accessUser kind) a 4 = false
  | .engine n => s.runs (sePage n) = true ∧ (s.eng n).level.isSome = true
  | .debug => s.on R.SEC_STA_DBGOPEN = true ∧ bitOf (s.get R.SEC_DBG_SCOPE) 1 = true ∧ s.store.lcs ≠ 4

/-- No memory error stands in the row of address `a`. -/
def State.CleanRow (s : State) (a : Nat) : Prop := s.badRow a = false ∧ s.softRow a = false

/-- No memory error stands in a row that holds any of the `n` bytes at `a`. -/
def State.CleanBytes (s : State) (a n : Nat) : Prop := ∀ r ∈ rowsAt a n, s.CleanRow r

/-- Core `c` is about to execute the instruction `w` (its low half alone where that is a compressed one) at offset `o` of its
local SRAM: it runs in M mode with no interrupt due, may fetch both half-words, and its instruction cache holds nothing stale
(R210, R212 to R214). -/
def State.RunsAt (s : State) (c o w : Nat) : Prop :=
  let k := s.core c
  s.phase = .run ∧ c < 8 ∧ s.coreOn c = true ∧ s.coreHalted c = false ∧ (∀ d, s.irq d = Option.none) ∧ k.pcOpen = false ∧
  k.user = false ∧ k.mie = false ∧ k.stale = [] ∧ k.pc = BitVec.ofNat 64 (0x08000000 + o) ∧ o % 2 = 0 ∧ o + 4 ≤ 0x10000 ∧
  natLE (s.memBytes (0x09000000 + 0x10000 * c + o) 4) = w ∧
  ∀ d ∈ [0, 2], s.CleanRow (0x09000000 + 0x10000 * c + o + d) ∧
    k.pmpRefuses .fetch (k.accessUser .fetch) (0x08000000 + o + d) 2 = false

/-- The instruction `i` of `n` bytes is what the word `w` spells (R210). -/
def Spells (w n : Nat) (i : Option RvInsn) : Prop :=
  (w % 4 = 3 ∧ n = 4 ∧ rvDecode w = i) ∨ (w % 4 ≠ 3 ∧ n = 2 ∧ rvDecodeC (w % 65536) = i)

/-- What an access of the register region leaves alone: `t` differs from `s` only in register fields of `l`, in the answer,
in the counts of the performance monitor, and in the core that makes it and the interrupts that then fall due (R211, R230). -/
def AccessAnd (l : List Fld) (s t : State) : Prop :=
  { t with regs := s.regs, resp := s.resp, cores := s.cores, freeCtr := s.freeCtr } = s ∧
  ∀ g : Fld, g.key ∉ l.map Fld.key → keyOnPage 9 g.key = false → t.get g = s.get g

/-- The words that a write reaches by more than the access codes of their fields: command words, and those a block answers
with an effect of its own. -/
def ownWord (p o : Nat) : Bool :=
  if p = 1 then [0x4C].contains o
  else if p = 2 then [0x44, 0x50].contains o
  else if p = 3 then [0x68, 0x74].contains o
  else if p = 4 then [0x64].contains o
  else if p = 5 then [0x44].contains o
  else if p = 6 then [0x6C].contains o
  else if p = 7 then [0x40, 0x6C].contains o
  else if p = 8 then [0x40, 0x48, 0x4C, 0x68].contains o || decide (0x100 ≤ o ∧ o < 0x180)
  else if p = 9 then decide (0x100 ≤ o ∧ o < 0x500 ∧ (o - 0x100) % 0x80 = 0x54)
  else if p = 0x0B then [0x48].contains o
  else if p = 0x0C then [0x64, 0x68].contains o
  else if p = 0x0D then [0x40].contains o
  else if p = 0x0E then [0x48].contains o
  else if p = 0x0F then [0x44, 0x48].contains o
  else if 0x10 ≤ p ∧ p ≤ 0x13 then [0x50, 0x70].contains o
  else if p = 0x14 then [0x40, 0x50, 0x54, 0x7C, 0x21C].contains o
  else if p = 0x15 then [0x44].contains o
  else if p = 0x16 then true
  else if p = 0x18 then [0x40].contains o || decide (0x100 ≤ o ∧ o < 0x180 ∧ o % 0x20 = 0)
  else if p = 0x19 ∨ p = 0x1A then [0x5C, 0x74].contains o
  else if 0x20 ≤ p ∧ p ≤ 0x33 then [0x44, 0x74].contains o
  else if p = 0x34 then [0x6C].contains o
  else false

/-- A word of 32 bits that a write reaches by the access codes of its fields alone. -/
def plainWord (p o : Nat) : Bool := decide (0x40 ≤ o) && !isWideLow p o && !isWideHigh p o && !ownWord p o

/-- Each field of the list has taken its part of the register value `v` by its access code: an RW field in force, an ST field
staged, a DO field only while CTL.EN is 0, a W1C field loses the bits written as 1, and the others keep their value (R7, R8). -/
def FieldsWritten (p v : Nat) (l : List Fld) (s t : State) : Prop :=
  ∀ f ∈ l, match f.acc with
    | .ro | .w1a => t.get f = s.get f
    | .rw => t.get f = f.of v
    | .st => t.get f = s.get f ∧ t.stagedOf f = f.of v
    | .do => (s.en p = false → t.get f = f.of v) ∧
        (s.en p = true → t.get f = s.get f ∧ (f.of v ≠ s.get f → t.get (R.WERR p) = 1))
    | .w1c => t.get f = andNot (s.get f) (f.of v) % 2 ^ f.width

/-- `t` is `s` with the register fields of `l` reading 0. -/
def ZeroesOnly (l : List Fld) (s t : State) : Prop := OnlyFields l s t ∧ ∀ f ∈ l, t.get f = 0

/-- The register fields that an event at the FCU or the dispatcher can change: those of their two pages, RED.STA.STATE, which
a severe source can halt, and what PWM.IDEC shows of a cell that leaves (R217, R219, R317, R331 to R340). -/
def faultKey (k : Nat) : Bool :=
  decide ((0x20000 * 3 ≤ k ∧ k < 0x20000 * 4) ∨ (0x20000 * 8 ≤ k ∧ k < 0x20000 * 9)) || k == R.RED_STA_STATE.key ||
    [R.PWM_IDEC_ROW.key, R.PWM_IDEC_NEXT.key, R.PWM_IDEC_TRIMP.key].contains k

/-- What raising faults and issuing events leaves alone: `t` differs from `s` only in register fields of `l`, in those of
`faultKey`, and in what the FCU, the dispatcher, the Almanac's counts, the redundancy unit and a Leave by reaction keep. -/
def FaultsAnd (l : List Fld) (s t : State) : Prop :=
  { t with regs := s.regs, dsx := s.dsx, fcu := s.fcu, alm := s.alm, red := s.red, cell := s.cell } = s ∧
  ∀ g : Fld, g.key ∉ l.map Fld.key → faultKey g.key = false → t.get g = s.get g

/-- The fields of PWR.RSTC and PWR.VIN. -/
def rstcFields : List Fld :=
  [R.PWR_RSTC_WIPER, R.PWR_RSTC_CLKF, R.PWR_RSTC_THSD, R.PWR_RSTC_OVSD, R.PWR_RSTC_BROWN, R.PWR_RSTC_CAUSE,
    R.PWR_VIN_VMIN, R.PWR_VIN_VIN]

/-- `t` is `s` after a reset that latches the straps again, with these values in PWR.RSTC: held, every other register at
its reset value, memory (until the wipe), the key store and the waiting commands as they were, and the flash too where
no Almanac entry was being programmed (R399, R409). -/
def HeldAfter (cause brown ovsd thsd clkf : Nat) (s t : State) : Prop :=
  t.phase = .held ∧ t.get R.PWR_RSTC_CAUSE = cause ∧ t.get R.PWR_RSTC_BROWN = brown ∧ t.get R.PWR_RSTC_OVSD = ovsd ∧
  t.get R.PWR_RSTC_THSD = thsd ∧ t.get R.PWR_RSTC_CLKF = clkf ∧
  t.get R.PWR_RSTC_WIPER = (if s.phase = .wiping then 1 else 0) ∧
  (∀ f : Fld, f.key ∉ rstcFields.map Fld.key → t.get f = f.reset % 2 ^ f.width) ∧ t.staged = [] ∧ t.fcu = FcuState.init ∧
  t.mem = s.mem ∧ t.store = s.store ∧ t.pending = s.pending ∧ (s.alm.prog = Option.none → t.flash = s.flash)

/-- The fields of SYS.NODEID. -/
def nodeFields : List Fld := [R.SYS_NODEID_ID, R.SYS_NODEID_VALID, R.SYS_NODEID_SRC]

/-- `t` is `s` after a software or Restart reset of a module out of reset: the wipe runs; the straps and what the FCU keeps
are as before, and FCU.TIME, the log and the instants of the last signatures stand; valid straps give a Conductor and a
Section their NodeID again and a Cell none; every other register but PWR.RSTC, PWR.VIN and those whose reset value is the
role's reads its reset value (R6, R21, R22, R237, R290, R340, R392, R409). -/
def WipingAfter (cause : Nat) (s t : State) : Prop :=
  t.phase = .wiping ∧ t.get R.PWR_RSTC_CAUSE = cause ∧
  (∀ f : Fld, keptKey f.key = true → f.key ∉ nodeFields.map Fld.key → t.get f = s.get f) ∧
  (let own := strapsOk s.latched && s.latched.role != 3
   t.nodeId = (if own then strapNode s.latched else 0) ∧ t.idValid = own) ∧ t.sec.sigs = s.sec.sigs ∧
  (∀ f : Fld, keptKey f.key = false →
    f.key ∉ (rstcFields ++ [R.PWM_SCFG_MODE, R.TBS_CFG_SRC, R.TBS_CFG_AUTOACC]).map Fld.key →
    t.get f = f.reset % 2 ^ f.width) ∧
  t.role = s.role ∧ t.fcu.timeNs = s.fcu.timeNs ∧ t.fcu.log = s.fcu.log ∧ t.mem = s.mem ∧ t.store = s.store ∧
  t.pending = s.pending ∧ t.staged = []

/-- The outputs of a safety channel follow its functions (R372, R376): SOP0 only for SF1 with its condition, SOP1 only for
SF2 or SF3 with the condition of each that is enabled, and neither outside RUN and SAFE. -/
def OutputsFollow (h : SafChan) : Prop :=
  (h.so0 = true → (h.st = .run ∨ h.st = .safe) ∧ h.sf1 = true ∧ h.ok1 = true) ∧
  (h.so1 = true → (h.st = .run ∨ h.st = .safe) ∧ (h.sf2 = true ∨ h.sf3 = true) ∧ (h.sf2 = true → h.ok2 = true) ∧
    (h.sf3 = true → h.ok3 = true))

/-- A safety channel, of a field die that is `up` or not, is sound: its outputs follow its functions, it has no function
enabled before it has read its switches, and without supply its outputs are de-energised (R371, R372, R376). -/
def SafChan.Sound (up : Bool) (h : SafChan) : Prop :=
  OutputsFollow h ∧ (h.dipRead = false → h.dip = 0) ∧ (up = false → h.so0 = false ∧ h.so1 = false)

/-- What the module drives is sound: both safety channels, and gates in high impedance, which have no level and no turn-on to
come (R244, R368, R442). -/
def State.DriveSound (s : State) : Prop :=
  (∀ c, (s.safCh c).Sound s.field.up) ∧ (s.hiz = true → s.gout = 0 ∧ s.pwm.pendOn = 0)

/-- What the module keeps in bounded stores stays within them: the dispatcher's 4,096 descriptors (R219), a return stack of 8
(R207), the seven words latched for a slot (R265), and each register field's width. -/
def State.Bounded (s : State) : Prop :=
  s.dsxUsed ≤ 4096 ∧ (∀ n l, (s.bank n l).stack.length ≤ 8) ∧ (∀ l, s.cell.aux = some l → l.length = 7) ∧
  ∀ f : Fld, s.get f < 2 ^ f.width

/-- The channel `h` has gone to FAULT, as `g`, with its outputs de-energised; one in IDLE, which has no function enabled,
stays in IDLE (R376). -/
def InFault (h g : SafChan) : Prop :=
  (h.st = .idle → g.st = .idle) ∧ (h.st ≠ .idle → g.st = .fault ∧ (h.st ≠ .fault → g.so0 = false ∧ g.so1 = false))

/-- Every byte of memory and of flash reads in `t` as it reads in `s`. -/
def SameBytes (s t : State) : Prop :=
  ∀ a, Memory.read 0 t.mem a = Memory.read 0 s.mem a ∧ Memory.read 0xFF t.flash a = Memory.read 0xFF s.flash a

/-- Every byte of memory outside the `n` bytes from `a` on, and every byte of flash, reads in `t` as in `s`. -/
def SameBytesBut (a n : Nat) (s t : State) : Prop :=
  ∀ b, (b < a ∨ a + n ≤ b → Memory.read 0 t.mem b = Memory.read 0 s.mem b) ∧
    Memory.read 0xFF t.flash b = Memory.read 0xFF s.flash b

/-- Every byte of memory outside the Frame Pool, and every byte of flash, reads in `t` as in `s` (R427). -/
def SameOutsidePool (s t : State) : Prop :=
  ∀ b, (b < 0x44000000 ∨ 0x44400000 ≤ b → Memory.read 0 t.mem b = Memory.read 0 s.mem b) ∧
    Memory.read 0xFF t.flash b = Memory.read 0xFF s.flash b

/-- Engine `n` executes program `p` on level `l`, and the word at its PC is the instruction `i`: the page is powered and
enabled, no memory error stands in that word, and no REPEAT and no STOP is in progress (R192, R201 to R203, R208). -/
def State.Executes (s : State) (n l : Nat) (p : SeProg) (i : Instr) : Prop :=
  s.phase = .run ∧ s.runs (sePage n) = true ∧ (s.eng n).level = some l ∧ (s.eng n).prog l = some p ∧
  s.CleanRow (seAddr n 2 p.pc.toNat) ∧ s.seInsn n p.pc = some i ∧ (s.eng n).rpt = Option.none ∧ (s.eng n).stop = false

/-- The stall cycles before an instruction of engine `n` that addresses through the index registers `uses` (R200). -/
def State.seStall (s : State) (n uses : Nat) : Nat :=
  (if Nat.land (s.eng n).hazI uses = 0 then 0 else 1) + (if (s.eng n).hazM then 1 else 0)

/-- `t` is `s` after an instruction of program `p` on level `l` of engine `n`: bank `b`, next address `pc`, `cyc` cycles,
the stalls `hi` and `hm` it leaves; the other level, the other engines and everything but the engines and memory are as
before. -/
def SeDone (s : State) (n l : Nat) (p : SeProg) (b : SeBank) (pc : BitVec 13) (cyc hi : Nat) (hm : Bool) (t : State) :
    Prop :=
  t.bank n l = b ∧ (t.eng n).prog l = some { p with pc := pc } ∧ (t.eng n).last = p.pc ∧
  t.bank n (1 - l) = s.bank n (1 - l) ∧ (t.eng n).prog (1 - l) = (s.eng n).prog (1 - l) ∧
  (t.eng n).pend = (s.eng n).pend ∧ (t.eng n).rpt = Option.none ∧ (t.eng n).stop = false ∧
  (t.eng n).cyc = (if (s.eng n).prog0.isSome then (s.eng n).cyc + cyc else (s.eng n).cyc) ∧
  (t.eng n).hazI = hi ∧ (t.eng n).hazM = hm ∧ (∀ m, m ≠ n → t.eng m = s.eng m) ∧ { t with se := s.se, mem := s.mem } = s

/-- `t` is `s` after a trap of the given cause at address `pc` on level `l` of engine `n` (R207): both levels ended, nothing
pending, the trap recorded and SE.FLT.TRAP set, banks and memory as before. -/
def SeTrapped (s : State) (n l cause : Nat) (pc : BitVec 13) (t : State) : Prop :=
  (t.eng n).level = Option.none ∧ (t.eng n).pend = 0 ∧ (t.eng n).rpt = Option.none ∧ t.get (R.SE_TRAP_LVL n) = l ∧
  t.get (R.SE_TRAP_CAUSE n) = cause ∧ t.get (R.SE_TRAP_PC n) = pc.toNat ∧
  t.bit (R.FLT (sePage n)) Flt.SE_TRAP = true ∧ t.bank n 0 = s.bank n 0 ∧ t.bank n 1 = s.bank n 1 ∧ t.mem = s.mem ∧
  ∀ m, m ≠ n → t.eng m = s.eng m

/-- The flags of an exact result over FLG before it (R185, R189). -/
def FlagsFollow (old new : BitVec 8) (v : Int) : Prop :=
  new.getLsbD 0 = (BitVec.ofInt 72 v == 0) ∧ new.getLsbD 1 = (BitVec.ofInt 72 v).msb ∧
  new.getLsbD 2 = extUsed (BitVec.ofInt 72 v) ∧ new.getLsbD 3 = decide (v < -2 ^ 71 ∨ 2 ^ 71 ≤ v) ∧
  new.getLsbD 4 = (old.getLsbD 4 || decide (v < -2 ^ 71 ∨ 2 ^ 71 ≤ v)) ∧ new.toNat < 32

/-- A frame of type `ty` that arrives on lane `n` passes every check of R86, R87 and R90: it is consumed. -/
def State.Delivers (s : State) (n ty : Nat) (f : Frame) : Prop :=
  s.phase = .run ∧ s.azfOn = true ∧ s.laneOk n = true ∧ s.lock = true ∧ f.length ≤ 4096 ∧ fKnown f = true ∧
  fCrcOk f = true ∧ fTick f = s.tick16 ∧ fType f = ty

/-- The transmitter of lane `m` is not in electrical idle, nothing waits for it, and the gap after its last frame is over, so
that a frame handed to it starts at once (R69, R84, R122). -/
def State.Free (s : State) (m : Nat) : Prop :=
  s.txIdle m = false ∧ s.busy m = false ∧ (s.lane m).txStop + 512 ≤ s.now10 ∧ ∀ q ∈ s.azf.queue, q.lane ≠ m

/-- The frame `f` waits in the pool after a step: one more kept frame of one buffer, whose bytes hold it. -/
def Kept (s t : State) (lane cls : Nat) (f : List Byte) : Prop :=
  ∃ b, b < 16384 ∧ t.azf.kept = s.azf.kept ++ [{ s.entry lane false false f with cls := cls, bufs := [b] }] ∧
    t.memBytes (0x44000000 + 256 * b) f.length = f ∧
    SameBytesBut (0x44000000 + 256 * b) f.length s t

/-- The keys of a list from a number to a value rise strictly. -/
def Rising {α : Type} (l : List (Nat × α)) : Prop := l.Pairwise (fun a b => a.1 < b.1)

/-- The invariant of the module's plain data: memory and flash keep their one canonical form, and no register field is
staged twice. -/
def State.Inv (s : State) : Prop := Memory.wf 0 s.mem = true ∧ Memory.wf 0xFF s.flash = true ∧ Rising s.staged

end Sys2Proof.Machine
end

