-- ==== Sys2Proof/Certificates/Slice0/Obligations.lean ====
section
/-! DEFINITION. The statements for the provers: one definition for each, named after what it says. -/

open Sys2Proof Sys2Proof.Machine

/-- A step runs the command at the front of the queue; with none waiting, 4 ns pass on a running module and on the field
die alone. The queue of commands from outside and the 4 ns of an idle step are the model's choice (log entries 1 and
2). -/
def Obligations.StepRunsFrontCommandOrIdles : Prop :=
  (∀ (c : Instr) (rest : List Instr) (s : State), s.pending = c :: rest →
    step s = exec c { s with pending := rest }) ∧
  ∀ s : State, s.pending = [] →
    (s.phase = .run → ∃ t, step s = .next t ∧ t.tickNs = s.tickNs + 4 ∧ t.fcu.timeNs = s.fcu.timeNs + 4 ∧
      t.field = { s.field with ns := s.field.ns + 4 } ∧
      t.regs = s.regs ∧ t.mem = s.mem ∧ t.flash = s.flash ∧ t.pending = [] ∧ t.phase = .run ∧ t.lanes = s.lanes ∧
      t.se = s.se ∧ t.store = s.store) ∧
    (s.phase ≠ .run → step s = .next { s with field := { s.field with ns := s.field.ns + 4 } })

/-- After a power-on reset every register field reads its reset value, PWR.RSTC.CAUSE reads 1, and the invariants hold.
What memory and flash read before a write (log entries 4 and 5), the reset values of registers the spec gives none
(log entry 8) and the factory store (log entry 231) are the model's choice. -/
def Obligations.ResetLeavesResetValues : Prop :=
  State.reset.phase = .held ∧ State.reset.get R.PWR_RSTC_CAUSE = 1 ∧
  (∀ f : Fld, f.key ≠ R.PWR_RSTC_CAUSE.key → State.reset.get f = f.reset % 2 ^ f.width) ∧
  State.reset.staged = [] ∧ State.reset.pending = [] ∧ State.reset.fcu.timeNs = 0 ∧ State.reset.store = SecStore.init ∧
  (∀ a, State.reset.memByte a = 0 ∧ Memory.read 0xFF State.reset.flash a = 0xFF) ∧ State.reset.Inv ∧
  State.reset.DriveSound ∧ State.reset.Bounded

/-- While a module is held in reset or in the reset wipe, only the reset, supply, field-die and safety commands act. The
whole statement is the model's reading of a held module: log entry 9 (DEDUCED). -/
def Obligations.HeldModuleIgnoresCommands : Prop :=
  ∀ (c : Instr) (s : State), s.phase ≠ .run →
    match c with
    | .powerOnReset _ | .overvoltageShutdown _ | .thermalShutdown | .clockFailure | .nreset _ | .resetRelease _
    | .resetWipeComplete | .vinExcursion _ | .dieTemperatureLimit _ => True
    | .vfldThreshold .. | .fieldDieReset | .fieldDieStart | .encoderEdge .. | .safetyDemand .. | .discrepancy ..
    | .healthyFor1S .. | .switchRead .. | .safSelfTestDone .. | .crossChannelExchange | .clockSupervisorFault ..
    | .safetyOutputTest .. | .motionViolation .. | .violationRelease .. | .dischargeTimeReached .. | .linkFrame ..
    | .linkLoss .. | .linkRecovery .. | .inputChange .. | .outputThermalShutdown .. | .thermalRestart ..
    | .groupShutdown .. | .darkTestRound | .darkTestEnd .. | .darkTestAbandon | .stuckHighClassification ..
    | .bypassPullInEnd | .wireFault .. => Answers c s (fun t => { t with field := s.field } = s)
    | _ => exec c s = .next s

/-- Each counter clear sets exactly the counters of its table to 0, and the lowest-value fields among them load the
present value. A command word acts only where its page takes it (log entry 11, DEDUCED), and the Repeat clear ends
the conditions of R50 (log entry 25, DESIGN CHOICE): the model's choices. -/
def Obligations.CounterClearsZeroOrLoad : Prop :=
  (∀ (s : State) (n : Fin 20) (m : Fin 4), s.phase = .run →
    Answers .laneLockCountClear s (ZeroesOnly [R.CLK_LLCNT_CNT] s) ∧
    (s.Takes 7 → Answers .drainCountClear s (ZeroesOnly [R.TCK_DRNC_TLM, R.TCK_DRNC_CTL] s)) ∧
    (s.Takes 0x14 → Answers .pwmCounterClear s (ZeroesOnly [R.PWM_SCNT_SUPP, R.PWM_SCNT_MPV] s)) ∧
    (s.Takes 0x15 → Answers .adcCounterClear s (ZeroesOnly [R.ADC_SCNT_OTW, R.ADC_SCNT_SKIP] s)) ∧
    (s.Takes 6 → Answers .tbsCounterClear s (ZeroesOnly [R.TBS_CNT_REFC, R.TBS_CNT_STEPC] s)) ∧
    (s.Takes 0x0C → Answers .acqCounterClear s (ZeroesOnly [R.ACQ_CNT_MISSED, R.ACQ_CNT_OVFC, R.ACQ_DEAD_VAL] s)) ∧
    (s.Takes 0x16 → Answers .fioCounterClear s (ZeroesOnly [R.FIO_DTCNT_ABAND, R.FIO_DTCNT_PASS, R.FIO_LINK_FDRC,
      R.FIO_LINK_CRCE] s)) ∧
    Answers .lostClear s (ZeroesOnly [R.FCU_LOST_LOST] s) ∧
    (s.Takes (lanePage n) → Answers (.laneCounterClear n) s (ZeroesOnly [R.AZL_CNT_LOSC n, R.AZL_CNT_LOLC n,
      R.AZL_LEAP_DEL n, R.AZL_LEAP_INS n, R.AZL_SHERR_SHERR n, R.AZL_ABTC_EBC n, R.AZL_ABTC_ABT n] s)) ∧
    (s.Takes 0x0F → Answers .rseCounterClear s (ZeroesOnly [R.RSE_STCNT_SATC 0, R.RSE_STCNT_RHC 0,
      R.RSE_ERR_NMISS 0, R.RSE_ERR_EPS 0, R.RSE_STCNT_SATC 1, R.RSE_STCNT_RHC 1, R.RSE_ERR_NMISS 1,
      R.RSE_ERR_EPS 1] s)) ∧
    (s.Takes 0x0E → Answers .cleCounterClear s (ZeroesOnly [R.CLE_SKIPC_SKIP, R.CLE_SKIPC_MIXC] s)) ∧
    (s.Takes (sePage m) → Answers (.seCounterClear m) s (ZeroesOnly [R.SE_CYC_CYC m, R.SE_MAXC_MAXC m,
      R.SE_SKIPC_EVE m, R.SE_SKIPC_BUSY m, R.SE_ECC_CEC m] s)) ∧
    (s.Takes 0x0B → s.role = .conductor ∨ s.role = .sect →
      Answers .redCounterClear s (ZeroesOnly [R.RED_CNT_MLOSTC, R.RED_CNT_TKOC] s)) ∧
    (s.Takes 0x18 → Answers .encCounterClear s (ZeroesOnly [R.ENC_WSTA_WFC 0, R.ENC_WSTA_WFC 1, R.ENC_WSTA_WFC 2,
      R.ENC_WSTA_WFC 3] s))) ∧
  ∀ (s : State) (i : Fin 2), s.phase = .run →
    (s.Takes 0x34 → Answers .azfCounterClear s (fun t =>
      OnlyFields [R.AZF_DROP_MBX, R.AZF_DROP_TLM, R.AZF_DROPC_TRUNC, R.AZF_DROPC_CTL, R.AZF_RXERR_SLOT,
        R.AZF_RXERR_FCRC, R.AZF_TAGERR_UNK, R.AZF_TAGERR_STALE, R.AZF_TSTA_OUTL, R.AZF_MBX_MRETX, R.AZF_MBX_MFAIL,
        R.AZF_FRESHC_OLD, R.AZF_POOLSTA_MINFREE] s t ∧
      (∀ f ∈ [R.AZF_DROP_MBX, R.AZF_DROP_TLM, R.AZF_DROPC_TRUNC, R.AZF_DROPC_CTL, R.AZF_RXERR_SLOT,
        R.AZF_RXERR_FCRC, R.AZF_TAGERR_UNK, R.AZF_TAGERR_STALE, R.AZF_TSTA_OUTL, R.AZF_MBX_MRETX, R.AZF_MBX_MFAIL,
        R.AZF_FRESHC_OLD], t.get f = 0) ∧
      t.get R.AZF_POOLSTA_MINFREE = s.get R.AZF_POOLSTA_FREE % 2 ^ R.AZF_POOLSTA_MINFREE.width)) ∧
    (s.Takes 8 → Answers .dsxCounterClear s (fun t =>
      OnlyFields [R.DSX_DROP_POOL, R.DSX_CNCL_CANC, R.DSX_CNCL_SAME, R.DSX_DRN_DRN, R.DSX_POOL_MINFREE] s t ∧
      (∀ f ∈ [R.DSX_DROP_POOL, R.DSX_CNCL_CANC, R.DSX_CNCL_SAME, R.DSX_DRN_DRN], t.get f = 0) ∧
      t.get R.DSX_POOL_MINFREE = s.dsxFree % 2 ^ R.DSX_POOL_MINFREE.width)) ∧
    Answers .vinMinClear s (fun t => OnlyFields [R.PWR_VIN_VMIN] s t ∧
      t.get R.PWR_VIN_VMIN = s.get R.PWR_VIN_VIN % 2 ^ 16) ∧
    (s.Takes 7 → Answers .repeatCountClear s (fun t =>
      { t with regs := s.regs, tck := s.tck } = s ∧
      KeepsFieldsBut [R.TCK_RPT_WIN1, R.TCK_RPT_CONS1, R.TCK_RPT_WIN0, R.TCK_RPT_CONS0] s t ∧
      (∀ f ∈ [R.TCK_RPT_WIN1, R.TCK_RPT_CONS1, R.TCK_RPT_WIN0, R.TCK_RPT_CONS0], t.get f = 0) ∧
      t.tck.repeats = [[], []] ∧ t.tck.cons = [0, 0])) ∧
    (s.Takes 0x0F → Answers (.rhoClear i) s (fun t => { t with rse := s.rse } = s ∧ (t.inst i).clr = true ∧
      (t.inst i).rho = (s.inst i).rho))

/-- A write does to each field of a word what its access code says, and a 64-bit register is written and read through
its two words. The pending high word where none was written (log entry 41), what an open debug port needs (log entry
42), the refusal of a TXEQI write as a whole (log entry 253) and events in the cycle of a write as its operand (log
entry 206) are the model's reading (DEDUCED). -/
def Obligations.RegisterAccessesByAccessCodeAndWidth : Prop :=
  (∀ (s : State) (ini : Initiator) (how : Access) (p o : Nat) (v : BitVec 64),
    let a := 0x40000000 + 0x1000 * p + o
    let l := wordFields p o
    s.Takes p → s.Reaches ini how .store a → pageDefined p = true → o < 0x1000 → o % 4 = 0 →
    s.writeIgnored p o = false → (p = 9 → ∀ c, ini ≠ .core c) →
    (plainWord p o = true → Answers (.registerWrite ini a v how 0) s (fun t =>
      let more := l ++ [R.WERR p] ++ (if p = 3 then [R.RED_STA_STATE] else [])
      t.resp.err = false ∧ FieldsWritten p (v.toNat % 2 ^ 32) l s t ∧
      AccessAnd more { s with staged := t.staged, lanes := t.lanes } t ∧ (t.lanes = s.lanes ∨ (0x20 ≤ p ∧ p ≤ 0x33)) ∧
      (∀ g : Fld, g.key ∉ more.map Fld.key → keyOnPage 9 g.key = false → t.stagedOf g = s.stagedOf g) ∧
      (s.en p = false → t.get (R.WERR p) = s.get (R.WERR p)))) ∧
    (o = 0x14 → Answers (.registerWrite ini a v how 0) s (fun t => t.resp.err = false ∧ AccessAnd [R.FEN p] s t ∧
      t.get (R.FEN p) = Nat.land (v.toNat % 2 ^ 32) (fltMask p))) ∧
    (o = 0x10 → p ≠ 0x14 → Answers (.registerWrite ini a v how 0) s (fun t =>
      t.resp.err = false ∧ AccessAnd [R.FLT p] s t ∧
      t.get (R.FLT p) = andNot (s.get (R.FLT p)) (Nat.land (v.toNat % 2 ^ 32) (fltMask p)))) ∧
    ((p = 0x14 ∧ o = 0x50) ∨ (p = 0x16 ∧ 0x40 ≤ o ∧ (∀ f ∈ l, f.acc = .rw) ∧ o ∉ [0x44, 0x48, 0x4C, 0x68] ∧
        ¬ (0x100 ≤ o ∧ o < 0x140)) →
      Answers (.registerWrite ini a v how 0) s (fun t => t.resp.err = false ∧ FieldsWritten p (v.toNat % 2 ^ 32) l s t ∧
        t.flash = s.flash ∧ t.pending = s.pending))) ∧
  (∀ (s : State) (ini : Initiator) (how : Access) (p o : Nat) (v : W32),
    let a := 0x40000000 + 0x1000 * p + o
    let l := wordFields p o
    s.Takes p → pageDefined p = true → o < 0x1000 → o % 4 = 0 → isWideLow p o = true → s.writeIgnored p o = false →
    s.writeIgnored p (o + 4) = false → (p = 9 → ∀ c, ini ≠ .core c) →
    (∀ c, ini = .core c → how.user = (s.core c).user) →
    (s.Reaches ini how .store (a + 4) → Answers (.writeHighWord ini (a + 4) v) s (fun t =>
      t.resp.err = false ∧ AccessAnd [] { s with pendHigh := t.pendHigh } t ∧ t.pendingHigh p o = v.toNat ∧
      ∀ k, k ≠ 0x1000 * p + o → alGet t.pendHigh k 0 = alGet s.pendHigh k 0)) ∧
    (¬ (p = 6 ∧ o = 0x58) → s.Reaches ini how .store a → Answers (.writeLowWord ini a v) s (fun t =>
      t.resp.err = false ∧ FieldsWritten p (s.pendingHigh p o * 2 ^ 32 + v.toNat) l s t ∧
      AccessAnd (l ++ [R.WERR p]) { s with staged := t.staged, pendHigh := t.pendHigh } t ∧
      t.pendingHigh p o = t.regNext p o / 2 ^ 32)) ∧
    (s.Reaches ini how .load a → Answers (.readLowWord ini a how) s (fun t =>
      t.resp = ⟨false, BitVec.ofNat 32 (s.register p o % 2 ^ 32)⟩ ∧
      alGet t.shadow (0x1000 * p + o + 4) 0 = s.register p o / 2 ^ 32 % 2 ^ 32 ∧
      AccessAnd [] { s with shadow := t.shadow } t ∧
      (∀ k, k ≠ 0x1000 * p + o + 4 → alGet t.shadow k 0 = alGet s.shadow k 0) ∧
      ∀ c, ini = .core c → (t.core c).rd = BitVec.ofNat 64 (s.register p o % 2 ^ 32))) ∧
    (s.Reaches ini how .load (a + 4) → Answers (.readLowWord ini (a + 4) how) s (fun t =>
      t.resp = ⟨false, BitVec.ofNat 32 (alGet s.shadow (0x1000 * p + o + 4) 0)⟩ ∧ AccessAnd [] s t))) ∧
  ∀ (s : State) (ini : Initiator) (how : Access) (v : BitVec 64) (ev : W32) (n : Fin 20),
    (s.Takes 7 → s.Reaches ini how .store 0x40007070 → Answers (.registerWrite ini 0x40007070 v how ev) s (fun t =>
      t.resp.err = false ∧ AccessAnd [R.TCK_STAT_PERR] s t ∧
      (ev.toNat / 2 % 2 = 1 → t.get R.TCK_STAT_PERR = 1))) ∧
    (s.Takes 7 → s.Reaches ini how .store 0x4000706C → Answers (.registerWrite ini 0x4000706C 1 how 0) s (fun t =>
      t.resp.err = false ∧ AccessAnd [R.TCK_DRNC_TLM, R.TCK_DRNC_CTL] s t ∧
      t.get R.TCK_DRNC_TLM = 0 ∧ t.get R.TCK_DRNC_CTL = 0)) ∧
    (s.Takes (lanePage n) → s.Reaches ini how .store (0x40000044 + 0x1000 * lanePage n) →
      Answers (.registerWrite ini (0x40000044 + 0x1000 * lanePage n) v how 0) s (fun t => t.resp.err = false ∧
        (tapsOf (v.toNat % 2 ^ 32) = true → FieldsWritten (lanePage n) (v.toNat % 2 ^ 32) (wordFields (lanePage n) 0x44) s t ∧
          AccessAnd (wordFields (lanePage n) 0x44 ++ [R.WERR (lanePage n)]) { s with staged := t.staged } t) ∧
        (tapsOf (v.toNat % 2 ^ 32) = false → AccessAnd [R.WERR (lanePage n)] s t ∧ t.get (R.WERR (lanePage n)) = 1)))

/-- A core's access is made in its memory; one misaligned, not permitted or unanswered is the exception of its kind; the
debug port's is answered or an error. Cause numbers and trap registers (log entry 6), and LR/SC, atomic operations,
CSR accesses, PMP and the zero-extended destination (log entry 33) are PRESUMED: the model's choice; that a block
answers a misaligned access with a bus error is log entry 263. The error response to the debug port is log entry 42
(DEDUCED), the misaligned register access log entry 263 (DEDUCED). -/
def Obligations.CoreAccessesAndTheirFaults : Prop :=
  (∀ (s : State) (c : Fin 8) (a : Nat) (v : BitVec 64) (how : Access), s.phase = .run → s.coreOn c = true →
    s.coreHalted c = false → (∀ d, s.irq d = Option.none) → how.op = .plain → how.size ∈ [1, 2, 4, 8] →
    let k : CoreState := { s.core c with user := how.user, pc := how.pc }
    let ends (i : Instr) (cause : BitVec 64) (P : State → Prop) : Prop := Answers i s (fun t =>
      t.resp = ⟨true, 0⟩ ∧ (t.core c).mcause = cause ∧ (t.core c).mtval = BitVec.ofNat 64 a ∧ (t.core c).mepc = how.pc ∧
      (t.core c).user = false ∧ (t.core c).mpp = !how.user ∧ (∀ d : Fin 8, d ≠ c → t.core d = s.core d) ∧ P t)
    let store : Instr := .registerWrite (.core c) a v how 0
    let load : Instr := .readLowWord (.core c) a how
    let quiet (t : State) : Prop := { t with cores := s.cores, resp := s.resp } = s
    let block : Bool := ((s.region c a).map Region.block).getD false
    let meets : Prop := a % how.size = 0 ∨ block = true
    (a % how.size ≠ 0 → block = false → ends store 6 quiet ∧ ends load 4 quiet) ∧
    (meets → k.pmpRefuses .store (k.accessUser .store) a how.size = true → ends store 7 quiet) ∧
    (meets → k.pmpRefuses .load (k.accessUser .load) a how.size = true → ends load 5 quiet) ∧
    (meets → k.pmpRefuses .store (k.accessUser .store) a how.size = false →
      (s.region c a = Option.none → ends store 7 quiet) ∧ (s.region c a = some .rom → ends store 7 quiet) ∧
      (s.region c a = some .pages → s.busOk (.core c) true a how.size = false → ends store 7 (AccessAnd [] s)) ∧
      (s.region c a = some .cle → s.cleBad a how.size = true → ends store 7 quiet) ∧
      (s.region c a = some .pool → how.size ≠ 4 ∨ a % 4 ≠ 0 ∨ s.gated 0x34 = true → ends store 7 quiet)) ∧
    (meets → k.pmpRefuses .load (k.accessUser .load) a how.size = false →
      (s.region c a = Option.none → ends load 5 quiet) ∧
      (s.region c a = some .pages → s.busOk (.core c) false a how.size = false → ends load 5 (AccessAnd [] s)) ∧
      (s.region c a = some .cle → s.cleBad a how.size = true → ends load 5 quiet) ∧
      (s.region c a = some .pool → how.size ≠ 4 ∨ a % 4 ≠ 0 ∨ s.gated 0x34 = true → ends load 5 quiet)) ∧
    (how.size ≠ 4 ∨ a % 4 ≠ 0 ∨ a < 0x40000000 ∨ 0x40040000 ≤ a ∨ pageDefined ((a - 0x40000000) / 0x1000) = false ∨
      (s.gated ((a - 0x40000000) / 0x1000) = true) → s.busOk (.core c) true a how.size = false)) ∧
  (∀ (s : State) (a : Nat) (v : BitVec 64) (how : Access), s.phase = .run →
    let err (i : Instr) : Prop := Answers i s (fun t => t.resp.err = true ∧ { t with resp := s.resp } = s)
    (s.region 8 a = Option.none ∨ (s.region 8 a ≠ some .pages ∧ s.debugMem = false) ∨
        (s.region 8 a = some .pages ∧ s.busOk .debug true a how.size = false) →
      err (.registerWrite .debug a v how 0)) ∧
    (s.region 8 a = Option.none ∨ (s.region 8 a ≠ some .pages ∧ s.debugMem = false) ∨
        (s.region 8 a = some .pages ∧ s.busOk .debug false a how.size = false) → err (.readLowWord .debug a how)) ∧
    (s.debugMem = true → s.region 8 a = some .pool → how.size = 4 → a % 4 = 0 → s.gated 0x34 = false → s.Inv →
      Answers (.registerWrite .debug a v how 0) s (fun t => t.resp.err = false ∧ t.mem32 a = v.toNat % 2 ^ 32 ∧
        SameBytesBut a 4 s t ∧ { t with mem := s.mem, resp := s.resp } = s) ∧
      Answers (.readLowWord .debug a how) s (fun t => t.resp = ⟨false, BitVec.ofNat 32 (s.mem32 a)⟩ ∧
        { t with resp := s.resp } = s))) ∧
  (∀ (s : State) (c : Fin 8) (o : Nat) (v : BitVec 64) (pc : BitVec 64), s.phase = .run → s.coreOn c = true →
    s.coreHalted c = false → (∀ d, s.irq d = Option.none) → o % 4 = 0 → o < 0x10000 → s.Inv →
    s.CleanRow (0x09000000 + 0x10000 * c.val + o) →
    (∀ kind, (s.core c).pmpRefuses kind (({ s.core c with user := false } : CoreState).accessUser kind) (0x08000000 + o) 4 = false) →
    let at4 (op : CoreOp) : Access := ⟨4, op, false, pc, .none⟩
    let m := 0x09000000 + 0x10000 * c.val + o
    let a := 0x08000000 + o
    let old := natLE (s.memBytes m 4)
    let put (u t : State) (w : Nat) : Prop := natLE (t.memBytes m 4) = w % 2 ^ 32 ∧ SameBytesBut m 4 u t ∧
      { t with cores := s.cores, mem := s.mem, resp := s.resp } = s
    Answers (.registerWrite (.core c) a v (at4 .plain) 0) s (fun t => t.resp.err = false ∧ put s t v.toNat) ∧
    Answers (.readLowWord (.core c) a (at4 .plain)) s (fun t => (t.core c).rd = BitVec.ofNat 64 old ∧
      { t with cores := s.cores, resp := s.resp } = s) ∧
    Answers (.readLowWord (.core c) a (at4 .reserved)) s (fun t => (t.core c).rd = BitVec.ofNat 64 old ∧
      (t.core c).resv = some (m, 4) ∧ { t with cores := s.cores, resp := s.resp } = s) ∧
    ((s.core c).resv = some (m, 4) → Answers (.registerWrite (.core c) a v (at4 .reserved) 0) s (fun t =>
      (t.core c).rd = 0 ∧ put s t v.toNat)) ∧
    Answers (.registerWrite (.core c) a v (at4 (.amo .add)) 0) s (fun t => (t.core c).rd = BitVec.ofNat 64 old ∧
      put s t (old + v.toNat)) ∧
    Answers (.registerWrite (.core c) 0x340 v (at4 (.csr .write)) 0) s (fun t => (t.core c).mscratch = v ∧
      { t with cores := s.cores } = s) ∧
    Answers (.readLowWord (.core c) 0x340 (at4 (.csr .set))) s (fun t => (t.core c).rd = (s.core c).mscratch ∧
      (t.core c).mscratch = (s.core c).mscratch ∧ { t with cores := s.cores } = s) ∧
    Answers (.readLowWord (.core c) 0xC01 (at4 (.csr .set))) s (fun t => (t.core c).mcause = 2 ∧ (t.core c).mepc = pc ∧
      { t with cores := s.cores, freeCtr := s.freeCtr } = s))

/-- A core executes the instruction at its pc: integer operations, jumps, branches, ECALL and words that spell none. The
encodings and results are those of the RISC-V specifications that R210 names: log entry 37 (PRESUMED). The causes
and trap registers are log entry 6 (PRESUMED), interrupts and the pc log entry 38 (DEDUCED). -/
def Obligations.CoreExecutesTheInstructionAtItsPc : Prop :=
  ∀ (s : State) (c : Fin 8) (o w n a : Nat) (how : Access) (i : Option RvInsn), how.op = .run → how.err = .none →
    s.RunsAt c o w → Spells w n i → (s.core c).x.length = 32 →
    let k := s.core c
    let next := k.pc + BitVec.ofNat 64 n
    let run : Instr := .readLowWord (.core c) a how
    let done (t : State) (pc : BitVec 64) (rd : Nat) (v : BitVec 64) : Prop :=
      (t.core c).pc = pc ∧ (t.core c).minstret = k.minstret + 1 ∧ AccessAnd [] s t ∧ (∀ d : Fin 8, d ≠ c → t.core d = s.core d) ∧
      ∀ x < 32, (t.core c).xr x = if x = rd ∧ rd ≠ 0 then v else k.xr x
    (∀ op word rd rs1 b, i = some (.alu op word rd rs1 b) →
      Answers run s (fun t => done t next rd (rvResult op word (k.xr rs1) (k.src b)))) ∧
    (∀ rd imm, i = some (.lui rd imm) → Answers run s (fun t => done t next rd (BitVec.ofInt 64 imm))) ∧
    (∀ rd imm, i = some (.auipc rd imm) → Answers run s (fun t => done t next rd (k.pc + BitVec.ofInt 64 imm))) ∧
    (∀ rd off, i = some (.jal rd off) → Answers run s (fun t => done t (k.pc + BitVec.ofInt 64 off) rd next)) ∧
    (∀ q x y off, i = some (.branch q x y off) → Answers run s (fun t =>
      done t (if rvTaken q (k.xr x) (k.xr y) = true then k.pc + BitVec.ofInt 64 off else next) 0 0)) ∧
    (i = some .ecall → Answers run s (fun t => (t.core c).mcause = 11 ∧ (t.core c).mepc = k.pc ∧ (t.core c).mtval = 0 ∧
      (t.core c).pc = k.mtvec &&& ~~~3#64 ∧ (t.core c).x = k.x ∧ AccessAnd [] s t)) ∧
    (i = Option.none → Answers run s (fun t => (t.core c).mcause = 2 ∧ (t.core c).mepc = k.pc ∧
      (t.core c).pc = k.mtvec &&& ~~~3#64 ∧ (t.core c).x = k.x ∧ AccessAnd [] s t))

/-- BLOCK_ENABLE and BLOCK_DISABLE set and clear CTL.EN of a live page, and start and stop what the listed blocks do.
What an enable or disable of the tick generator does to commits that wait, and where LOCK falls, is log entry 43
(DEDUCED); that a calibration ends with the converters' disable is log entry 144 (DEDUCED): the model's choices. -/
def Obligations.EnableAndDisableOfBlocks : Prop :=
  ∀ (s : State) (page : Fin 64) (n : Fin 20), s.phase = .run →
    (s.pageLive page = true → pageFixed page = false → s.en page = false →
      Answers (.blockEnable page) s (fun t => t.en page = true ∧ t.phase = .run)) ∧
    (s.pageLive page = true → pageFixed page = false → s.en page = true → (page.val = 7 → s.pwr.swPend = false) →
      Answers (.blockDisable page) s (fun t => t.en page = false ∧ t.phase = .run)) ∧
    (s.pageLive page = true → pageFixed page = false → s.en page = false →
      page.val ∈ [9, 0x0D, 0x0E, 0x0F, 0x10, 0x11, 0x12, 0x13, 0x15, 0x19, 0x1A] →
      Answers (.blockEnable page) s (fun t => OnlyFields [R.EN page] s t ∧ t.en page = true)) ∧
    (s.pageLive page = true → s.en page = true ∨ pageFixed page = true →
      Answers (.blockEnable page) s (fun t => t = s)) ∧
    (s.pageLive page = true → s.en page = false ∨ pageFixed page = true →
      Answers (.blockDisable page) s (fun t => t = s)) ∧
    (s.pageLive page = true → s.en page = true → page.val ∈ [9, 0x0D, 0x0F, 0x19, 0x1A] →
      Answers (.blockDisable page) s (fun t => OnlyFields [R.EN page] s t ∧ t.en page = false)) ∧
    (s.pageLive (lanePage n) = true → s.en (lanePage n) = false →
      Answers (.blockEnable ⟨0x20 + n.val, by omega⟩) s (fun t => t.en (lanePage n) = true ∧ t.laneSt n = 1 ∧
        t.on (R.AZL_LSTAT_TXPREC n) = false ∧ t.mem = s.mem ∧ t.azf = s.azf)) ∧
    (s.pageLive (lanePage n) = true → s.en (lanePage n) = true →
      Answers (.blockDisable ⟨0x20 + n.val, by omega⟩) s (fun t => t.en (lanePage n) = false ∧ t.laneSt n = 0 ∧
        t.inSvc n = false ∧ t.mem = s.mem ∧ t.azf = s.azf)) ∧
    (s.pageLive 7 = true → s.en 7 = false → s.role = .conductor →
      Answers (.blockEnable 7) s (fun t => OnlyFields [R.EN 7, R.TCK_STAT_LOCK] { s with alm := t.alm, tck := t.tck } t ∧
        t.en 7 = true ∧ t.lock = true ∧ t.alm = { s.alm with locked := true } ∧
        (s.tickNs < s.eveNs → t.tck = s.tck) ∧
        (s.eveNs ≤ s.tickNs → t.tck = { s.tck with due := [], later := s.tck.due ++ s.tck.later }))) ∧
    (s.pageLive 7 = true → s.en 7 = true → s.role = .conductor → s.pwr.swPend = false →
      Answers (.blockDisable 7) s (fun t => t.en 7 = false ∧ t.lock = false ∧ t.get R.TCK_STAT_ALGN = 0 ∧
        KeepsFieldsBut [R.EN 7, R.TCK_STAT_LOCK, R.TCK_STAT_ALGN] s t)) ∧
    (s.pageLive 0x0E = true → s.en 0x0E = true →
      Answers (.blockDisable 0x0E) s (fun t => t.en 0x0E = false ∧ t.cle.queue = [] ∧ t.cle.run = Option.none ∧
        { t with regs := s.regs, cle := s.cle } = s)) ∧
    (s.pageLive 0x15 = true → s.en 0x15 = true →
      Answers (.blockDisable 0x15) s (fun t => t.en 0x15 = false ∧ t.adc.conv = [Option.none, Option.none] ∧
        t.adc.waiting = [[], []] ∧ t.get R.ADC_CSTA_CALBUSY = 0 ∧ KeepsFieldsBut [R.EN 0x15, R.ADC_CSTA_CALBUSY] s t ∧
        { t with regs := s.regs, adc := s.adc } = s))

/-- A soft reset returns the registers of its page to reset and ends within its own command; a fault count clear zeroes
FCT. What a soft reset does to the signal engine's memories, and that running cores go on over the dispatcher's, is
log entry 252 (DEDUCED): the model's choice. -/
def Obligations.SoftResetAndFaultCountClear : Prop :=
  ∀ (s : State) (page : Fin 64) (n : Fin 4) (v : W32), s.phase = .run → s.Inv →
    (s.pageLive page = true → (∀ m : Fin 4, (s.eng m).waits = []) → page.val ∈ [8, 9, 0x0C, 0x0D, 0x0E, 0x0F, 0x10, 0x11, 0x12, 0x13, 0x15, 0x18, 0x19,
        0x1A, 0x34] →
      Answers (.softReset page v) s (fun t => t.get (R.SRB page) = 1 ∧
        (∀ f : Fld, keyOnPage page f.key = true → f.key ≠ (R.SRB page).key → t.get f = f.reset % 2 ^ f.width) ∧
        (page.val = 8 → t.cores = s.cores) ∧
        (∀ f : Fld, keyOnPage page f.key = false → t.get f = s.get f) ∧
        (∀ e ∈ t.staged, keyOnPage page e.1 = false) ∧ page.val ∉ t.tck.due ∧ page.val ∉ t.tck.later ∧
        t.pending = s.pending)) ∧
    (s.pageLive (sePage n) = true → (s.eng n).waits = [] → Answers (.softReset ⟨0x10 + n.val, by omega⟩ v) s (fun t =>
      t.eng n = SeState.init ∧
      ∀ a, (0x42000000 + 0x100000 * n.val ≤ a ∧ a < 0x42100000 + 0x100000 * n.val → t.memByte a = 0) ∧
        (a < 0x42000000 + 0x100000 * n.val ∨ 0x42100000 + 0x100000 * n.val ≤ a → t.memByte a = s.memByte a))) ∧
    (s.pageLive page = true → pageFixed page = true →
      Answers (.softReset page v) s (fun t => t.get (R.WERR page) = 1 ∧
        KeepsFieldsBut [R.WERR page, R.FCT page, R.MEMC_CEC_CEC] s t ∧ { t with regs := s.regs } = s)) ∧
    Answers (.softResetDone page) s (fun t => OnlyFields [R.SRB page] s t ∧ t.get (R.SRB page) ≠ 1) ∧
    (s.pageLive page = true → Answers (.faultCountClear page) s (fun t =>
      OnlyFields [R.FCT page, R.MEMC_CEC_CEC] s t ∧ t.get (R.FCT page) = 0 ∧
      (page.val = 0x0A → t.get R.MEMC_CEC_CEC = 0) ∧
      (page.val ≠ 0x0A → t.get R.MEMC_CEC_CEC = s.get R.MEMC_CEC_CEC)))

/-- A commit waits for the next Strike, from Eve on for the one after, and without a Strike takes its staged values into
force. The two lists of pages due and later, and when a commit applies without Strikes, are log entry 45 (DEDUCED). -/
def Obligations.CommitsRegisterAndApply : Prop :=
  ∀ (s : State) (page : Fin 64), s.phase = .run → s.Inv →
    (s.pageLive page = true → (s.lock = false ∨ s.tickNs < s.eveNs) →
      Answers (.commit page) s (fun t => page.val ∈ t.tck.due ∧ t.tck.later = s.tck.later ∧
        OnlyFields [R.PEND page] { s with tck := t.tck } t ∧ t.get (R.PEND page) = 1 ∧
        { t.tck with due := s.tck.due } = s.tck)) ∧
    (s.pageLive page = true → s.lock = true → s.eveNs ≤ s.tickNs →
      Answers (.commit page) s (fun t => page.val ∈ t.tck.later ∧ t.tck.due = s.tck.due ∧
        OnlyFields [R.PEND page, R.LATE page] { s with tck := t.tck } t ∧ t.get (R.PEND page) = 1 ∧
        t.get (R.LATE page) = 1)) ∧
    (s.lock = false → page.val ∈ s.tck.due ∨ page.val ∈ s.tck.later →
      Answers (.commitApplyUnlocked page) s (fun t =>
        let own (f : Fld) : Prop := keyOnPage page f.key = true ∧ f.key ≠ (R.SEQ page).key ∧ f.key ≠ (R.PEND page).key ∧
          f.key ≠ (R.LATE page).key
        (∀ o < 0x1000, ∀ f ∈ wordFields page o, f.acc = .st → own f → f.key ≠ R.ADC_CFG_LP.key →
          t.get f = s.stagedOf f ∨ t.get f = s.get f) ∧
        t.get (R.SEQ page) = (s.get (R.SEQ page) + 1) % 2 ^ 32 ∧ t.get (R.PEND page) = 0 ∧ t.get (R.LATE page) = 0 ∧
        page.val ∉ t.tck.due ∧ page.val ∉ t.tck.later ∧ (∀ e ∈ t.staged, keyOnPage page e.1 = false) ∧
        (page.val ∉ [4, 6, 7, 0x0C, 0x0D, 0x0E, 0x0F, 0x14, 0x15] →
          (∀ f : Fld, own f → t.get f = s.stagedOf f) ∧
          (∀ f : Fld, keyOnPage page f.key = false → t.get f = s.get f ∧ t.stagedOf f = s.stagedOf f) ∧
          { t with regs := s.regs, staged := s.staged, tck := s.tck, red := s.red } = s)))

/-- Undervoltage, overvoltage, clock failure, heat and nRESET put the module in reset with their cause, every other
register at its reset value. The voltages as they have lasted their time, BROWN at 0 V and the hold of a clock
failure over nRESET are log entry 250 (DEDUCED), what a reset keeps log entry 252 (DEDUCED), the pulse between the
two lengths log entry 10 (DESIGN CHOICE): the model's choices. -/
def Obligations.PowerResetsHoldTheModule : Prop :=
  ∀ (s : State) (vin ns : Nat),
    (vin < 2048 → Answers (.powerOnReset vin) s (HeldAfter 1 (if s.pwr.seen = true ∧ vin ≠ 0 then 1 else 0) 0 0 0 s)) ∧
    (5120 < vin → Answers (.overvoltageShutdown vin) s (fun t => HeldAfter 1 0 1 0 0 s t ∧ t.pwr.ovHold = true)) ∧
    Answers .clockFailure s (fun t => HeldAfter 1 0 0 0 1 s t ∧ t.pwr.ckHold = true) ∧
    Answers .thermalShutdown s (fun t => HeldAfter 1 0 0 1 0 s t ∧ t.pwr.thHold = true) ∧
    (2000 ≤ ns → s.powerHeld = false → s.pwr.ckHold = false → Answers (.nreset ns) s (HeldAfter 2 0 0 0 0 s)) ∧
    (ns < 1000 → Answers (.nreset ns) s (fun t => t = s)) ∧
    (1000 ≤ ns → ns < 2000 → Answers (.nreset ns) s (fun t =>
      HeldAfter 2 0 0 0 0 s t ∨ { t with freeCtr := s.freeCtr } = s))

/-- A software reset follows an ARM within 100 cycles, a Restart its reaction by 1 ms, and both keep the role, the FCU
and the store. What these resets keep beyond the rules cited is log entry 252 (DEDUCED): the model's reading. -/
def Obligations.SoftwareAndRestartResets : Prop :=
  ∀ (s : State) (since dt r : Nat), s.phase = .run →
    Answers .swrstArm s (fun t => { t with pwr := s.pwr } = s ∧ t.pwr.armed = true ∧ t.pwr.armAt = s.fcu.timeNs ∧
      { t.pwr with armed := s.pwr.armed, armAt := s.pwr.armAt } = s.pwr) ∧
    (s.pwr.armed = true → since ≤ 100 → s.lock = true →
      Answers (.softwareReset since) s (fun t => t = { s with pwr := { s.pwr with swPend := true } })) ∧
    (s.pwr.armed = true → since ≤ 100 → s.lock = false →
      Answers (.softwareReset since) s (WipingAfter 3 s)) ∧
    (s.pwr.armed = false ∨ 100 < since → Answers (.softwareReset since) s (fun t => t = s)) ∧
    (s.fcu.restartAt = some r → r + 1000000 ≤ s.fcu.timeNs + dt → s.lock = false →
      Answers (.restart dt) s (fun t => WipingAfter 4 { s with fcu := { s.fcu with timeNs := s.fcu.timeNs + dt } } t)) ∧
    (s.fcu.restartAt = some r → r + 1000000 ≤ s.fcu.timeNs + dt → s.lock = true → s.drainNs ≤ s.tickNs + dt →
      Answers (.restart dt) s (fun t => WipingAfter 4 { s with fcu := { s.fcu with timeNs := s.fcu.timeNs + dt } } t)) ∧
    (s.lock = true → s.tickNs + dt < s.drainNs → Answers (.restart dt) s (fun t => t = s.elapse dt)) ∧
    (s.fcu.restartAt = Option.none ∨ (s.fcu.restartAt = some r ∧ s.fcu.timeNs + dt < r + 1000000) →
      Answers (.restart dt) s (fun t => t = s.elapse dt))

/-- Release latches the straps and starts the wipe; the end of the wipe runs the module with every memory byte 0. That
only the pin levels change in a module that is not held, or is held by its power, is log entry 250 (DEDUCED): the
model's choice. -/
def Obligations.ReleaseLatchesStrapsAndWipeRuns : Prop :=
  ∀ (s : State) (p : Straps),
    (s.phase = .held → s.powerHeld = false → Answers (.resetRelease p) s (fun t => t.phase = .wiping ∧
      t.get R.SYS_STRAP_ROLE = p.role ∧ t.get R.SYS_STRAP_SIDE = p.side ∧ t.get R.SYS_STRAP_PAIR = p.pair ∧
      t.get R.SYS_STRAP_BAD = (if strapsOk p then 0 else 1) ∧ t.pwr.pins = p ∧ t.pwr.ckHold = false ∧ t.mem = s.mem ∧ t.flash = s.flash ∧
      t.pending = s.pending ∧
      (strapsOk p = true → p.role.val = 1 → t.nodeId = 1 + p.side.val ∧ t.idValid = true ∧ t.role = .conductor) ∧
      (strapsOk p = true → p.role.val = 2 → t.nodeId = 0x100 + 2 * p.pair.val + p.side.val ∧ t.idValid = true ∧
        t.role = .sect ∧ t.get R.TBS_CFG_SRC = 1 ∧ t.get R.TBS_CFG_AUTOACC = 1) ∧
      (strapsOk p = true → p.role.val = 3 → t.role = .cell ∧ t.get R.PWM_SCFG_MODE = 0 ∧ t.get R.TBS_CFG_SRC = 1 ∧
        t.get R.TBS_CFG_AUTOACC = 1) ∧
      (strapsOk p = false → t.role = .none))) ∧
    (s.phase ≠ .held ∨ s.powerHeld = true → Answers (.resetRelease p) s (fun t =>
      t = { s with pwr := { s.pwr with pins := p } })) ∧
    (s.phase = .wiping → Answers .resetWipeComplete s (fun t => t.phase = .run ∧ (∀ a, t.memByte a = 0) ∧
      t.flash = s.flash ∧ t.pending = s.pending ∧ t.tickNs = 0 ∧ t.bad = [])) ∧
    (s.phase ≠ .wiping → Answers .resetWipeComplete s (fun t => t = s))

/-- Supply, rail, temperature and lane-clock events update their registers and raise their faults. A voltage as it has
lasted its time is log entry 250 (DEDUCED); the return of RAIL.OK and the gated rail of a Cell are log entry 251
(DEDUCED): the model's choices. -/
def Obligations.SupplyClockAndTemperatureEvents : Prop :=
  ∀ (s : State) (vin : Nat) (rail : Fin 6) (d : Int) (n : Fin 20) (inFrame : Bool), s.phase = .run →
    ((2048 ≤ vin ∧ vin < 2304) ∨ (4608 < vin ∧ vin ≤ 5120) → Answers (.vinExcursion vin) s (fun t => t.get R.PWR_VIN_VIN = vin % 2 ^ 16 ∧
      t.get R.PWR_VIN_VMIN = min vin (s.get R.PWR_VIN_VMIN) % 2 ^ 16 ∧ t.bit (R.FLT 2) Flt.PWR_VINX = true ∧
      FaultsAnd [R.PWR_VIN_VIN, R.PWR_VIN_VMIN, R.FLT 2, R.FCT 2] { s with pwr := t.pwr } t)) ∧
    (2304 ≤ vin → vin ≤ 4608 → Answers (.vinExcursion vin) s (fun t => t.get R.PWR_VIN_VIN = vin % 2 ^ 16 ∧
      OnlyFields [R.PWR_VIN_VIN, R.PWR_VIN_VMIN] { s with pwr := t.pwr } t)) ∧
    Answers (.railExcursion rail true) s (fun t => OnlyFields [R.PWR_RAIL_OK] s t ∧ t.bit R.PWR_RAIL_OK rail = true ∧
      ∀ k : Fin 6, k ≠ rail → t.bit R.PWR_RAIL_OK k = s.bit R.PWR_RAIL_OK k) ∧
    (s.railGated rail = true → Answers (.railExcursion rail false) s (fun t => t = s)) ∧
    (s.railGated rail = false → Answers (.railExcursion rail false) s (fun t => t.bit R.PWR_RAIL_OK rail = false ∧
      (∀ k : Fin 6, k ≠ rail → t.bit R.PWR_RAIL_OK k = s.bit R.PWR_RAIL_OK k) ∧
      t.bit (R.FLT 2) Flt.PWR_RAIL = true ∧ FaultsAnd [R.PWR_RAIL_OK, R.FLT 2, R.FCT 2] s t)) ∧
    (s.getS R.ALM_TDIE_TLIM < d → Answers (.dieTemperatureLimit d) s (fun t =>
      t.get R.ALM_TDIE_TDIE = ofSigned 16 d % 2 ^ 16 ∧ t.bit (R.FLT 4) Flt.ALM_TLIM = true ∧
      FaultsAnd [R.ALM_TDIE_TDIE, R.FLT 4, R.FCT 4] { s with pwr := t.pwr } t)) ∧
    (d ≤ s.getS R.ALM_TDIE_TLIM → Answers (.dieTemperatureLimit d) s (fun t =>
      t.get R.ALM_TDIE_TDIE = ofSigned 16 d % 2 ^ 16 ∧ OnlyFields [R.ALM_TDIE_TDIE] { s with pwr := t.pwr } t)) ∧
    (s.laneOn n = true → Answers (.lanePllLockLoss n inFrame) s (fun t =>
      t.get R.CLK_LLCNT_CNT = min (s.get R.CLK_LLCNT_CNT + 1) 65535 ∧ t.bit R.CLK_LANELK_LK n = false ∧
      t.laneUp n = false ∧ t.mem = s.mem ∧ t.flash = s.flash)) ∧
    (s.laneOn n = false → Answers (.lanePllLockLoss n inFrame) s (fun t => t = s))

/-- A security command sets BUSY and runs; one written while BUSY is 1 is refused with OERR 8 and OREF. -/
def Obligations.SecurityCommandsStartAndRefuse : Prop :=
  ∀ (s : State) (p : Instr × SecCmd), s.phase = .run →
    p ∈ [(.nonce, .nonce), (.verify, .verify), (.sign, .sign), (.attest, .attest), (.extend, .extend), (.order, .order)] →
    (s.on R.SEC_STA_BUSY = false → Answers p.1 s (fun t => t.get R.SEC_STA_BUSY = 1 ∧ t.sec.cmd = some p.2 ∧
      (p.1 ≠ .attest → { t.sec with cmd := s.sec.cmd } = s.sec) ∧
      (p.1 = .attest → t.sec.attWidx = s.get R.ALM_STA_WIDX) ∧ OnlyFields [R.SEC_STA_BUSY] { s with sec := t.sec } t)) ∧
    (s.on R.SEC_STA_BUSY = true → ∀ c ∈ [p.1, .mlock, .svnCommit], Answers c s (fun t => t.get R.SEC_STA_OERR = 8 ∧
      t.bit (R.FLT 5) Flt.SEC_OREF = true ∧ t.sec = s.sec ∧ t.store = s.store ∧
      FaultsAnd [R.SEC_STA_OERR, R.FLT 5, R.FCT 5] s t))

/-- NONCE, EXTEND, VERIFY, SIGN, ATTEST, MLOCK and SVNCOMMIT end with BUSY 0 and their result. That the two immediate
commands end at once is log entry 30 (DESIGN CHOICE), VERIFY's kind and size limit log entry 235 (DEDUCED), the
vendor minimum's 64 rises log entry 238 (PRESUMED): the model's choices. That a reservation record holds or not by a
free bit is log entry 234 (DESIGN CHOICE), when the report's fields are taken log entry 240 (DEDUCED). -/
def Obligations.SecurityCommandsComplete : Prop :=
  ∀ s : State, s.phase = .run →
    (let sig (i : Nat) (b : List Byte) := padTo 5605 ((Config.idSign s.store.gen i b).take 5605)
     let ends (t : State) (b : List Byte) (olen : Nat) : Prop :=
       t.memBytes s.maddr b.length = b ∧ SameBytesBut s.maddr b.length s t ∧ t.store = { s.store with next := s.store.next + 1 } ∧
       t.get R.SEC_IDX_VAL = (s.store.next + 1) % 2 ^ R.SEC_IDX_VAL.width ∧
       t.get R.SEC_SIGC_SIGC = min (s.get R.SEC_SIGC_SIGC + 1) (2 ^ R.SEC_SIGC_SIGC.width - 1) ∧
       t.get R.SEC_STA_BUSY = 0 ∧ t.get R.SEC_RES_OK = 1 ∧ t.get R.SEC_RES_OLEN = olen ∧ t.sec.cmd = Option.none ∧
       t.sec.nonceOk = s.sec.nonceOk
     s.Inv → s.sec.trans = false →
     (s.sec.cmd = some .sign → s.maySign = true → s.store.next ≠ s.get R.SEC_RESV_VAL → Answers .secCommandDone s (fun t =>
       ends t (sig s.store.next (s.secBuf 32)) 5605)) ∧
     (s.sec.cmd = some .attest → s.maySign = true → s.store.next ≠ s.get R.SEC_RESV_VAL → Answers .secCommandDone s (fun t =>
       ends t (s.reportBytes.1 ++ sig s.store.next s.reportBytes.1) 5893)) ∧
     (s.sec.cmd = some .sign → s.maySign = true → s.store.next = s.get R.SEC_RESV_VAL → Answers .secCommandDone s (fun t =>
       (t.get R.SEC_RESV_VAL = (s.get R.SEC_RESV_VAL + 64) % 2 ^ R.SEC_RESV_VAL.width ∧ t.store.next = s.store.next + 1 ∧
         t.get R.SEC_RES_OK = 1 ∧ t.get R.SEC_STA_BUSY = 0) ∨
       (t.bit (R.FLT 5) Flt.SEC_RESV = true ∧ t.store = s.store ∧ t.sec.cmd = some .sign ∧ t.mem = s.mem ∧
         t.get R.SEC_STA_BUSY = s.get R.SEC_STA_BUSY))) ∧
     (s.sec.cmd = some .sign ∨ s.sec.cmd = some .attest → s.maySign = false → Answers .secCommandDone s (fun t => t = s))) ∧
    (s.sec.trans = false → s.sec.cmd = some .nonce → s.sec.trng = false → Answers .secCommandDone s (fun t =>
      t.sec.nonceOk = true ∧ t.sec.cmd = Option.none ∧ t.get R.SEC_STA_BUSY = 0 ∧ t.get R.SEC_RES_OK = 1 ∧
      t.get R.SEC_RES_OLEN = 0 ∧ t.mem = s.mem ∧ t.store = s.store)) ∧
    (s.sec.trans = false → s.sec.cmd = some .extend → s.get R.SEC_OPARG_MIDX = 3 → Answers .secCommandDone s (fun t =>
      t.meas 3 = digest (s.meas 3 ++ s.secBuf 32) ∧ t.meas 0 = s.meas 0 ∧ t.meas 1 = s.meas 1 ∧ t.meas 2 = s.meas 2 ∧
      t.get R.SEC_STA_BUSY = 0 ∧ t.get R.SEC_RES_OK = 1 ∧ t.mem = s.mem ∧ t.store = s.store)) ∧
    (s.sec.trans = false → s.sec.cmd = some .extend → s.get R.SEC_OPARG_MIDX = 0 → s.sec.lock0 = true →
      Answers .secCommandDone s (fun t => t.meas 0 = s.meas 0 ∧ t.bit (R.FLT 5) Flt.SEC_VFAIL = true ∧
        t.get R.SEC_STA_BUSY = 0 ∧ t.get R.SEC_RES_OK = 0)) ∧
    (∀ k ∈ [1, 2], s.sec.trans = false → s.sec.cmd = some .verify → (imgHdr (s.memBytes s.maddr 128)).kind = k →
      let holds := s.imageOk k (min (slotSize k) (s.get R.SEC_MLEN_LEN)) (fun o n => s.memBytes (s.maddr + o) n)
      (holds = true → Answers .secCommandDone s (fun t => t.get R.SEC_RES_OK = 1 ∧ t.get R.SEC_STA_BUSY = 0 ∧ t.mem = s.mem ∧
        OnlyFields [R.SEC_STA_BUSY, R.SEC_RES_OK, R.SEC_RES_OLEN] { s with sec := t.sec } t)) ∧
      (holds = false → Answers .secCommandDone s (fun t => t.get R.SEC_RES_OK = 0 ∧ t.get R.SEC_STA_BUSY = 0 ∧
        t.bit (R.FLT 5) Flt.SEC_VFAIL = true ∧ t.mem = s.mem))) ∧
    (s.on R.SEC_STA_BUSY = false → Answers .mlock s (fun t => t.sec.lock12 = true ∧ t.get R.SEC_RES_OK = 1 ∧ t.get R.SEC_STA_BUSY = 0 ∧
      t.sec.lock0 = s.sec.lock0 ∧
      OnlyFields [R.SEC_STA_BUSY, R.SEC_RES_OK, R.SEC_RES_OLEN] { s with sec := t.sec } t)) ∧
    (s.on R.SEC_STA_BUSY = false → s.on R.SEC_OPARG_SVNK = true → s.store.ownerSvn < s.sec.oSvn →
      Answers .svnCommit s (fun t => t.store.ownerSvn = s.sec.oSvn ∧ t.store.vendorSvn = s.store.vendorSvn ∧
        t.get R.SEC_SVN_OWNER = s.sec.oSvn % 2 ^ R.SEC_SVN_OWNER.width ∧ t.get R.SEC_RES_OK = 1 ∧ t.get R.SEC_STA_BUSY = 0 ∧ t.mem = s.mem)) ∧
    (s.on R.SEC_STA_BUSY = false → s.on R.SEC_OPARG_SVNK = false → s.store.vendorSvn < s.sec.vSvn → s.store.rises < 64 →
      Answers .svnCommit s (fun t => t.store.vendorSvn = s.sec.vSvn ∧ t.store.ownerSvn = s.store.ownerSvn ∧
        t.get R.SEC_RES_OK = 1 ∧ t.get R.SEC_STA_BUSY = 0 ∧ t.mem = s.mem)) ∧
    (s.on R.SEC_STA_BUSY = false → s.on R.SEC_OPARG_SVNK = true → s.sec.oSvn ≤ s.store.ownerSvn →
      Answers .svnCommit s (fun t => t.store = s.store ∧ t.bit (R.FLT 5) Flt.SEC_OREF = true ∧
        t.get R.SEC_RES_OK = 0 ∧ t.get R.SEC_STA_BUSY = 0)) ∧
    Answers .meas0Lock s (fun t => t = { s with sec := { s.sec with lock0 := true } })

/-- An accepted order moves the life-cycle state, opens debug or keeps a new key; a refused one changes no state;
erasure, trees and entropy set what they end. Cause 3 of a transition's reset and the key that waits for it are log
entry 237 (DEDUCED), the code of a refusal log entry 232 (DEDUCED): the model's choices. -/
def Obligations.OrdersTransitionsTreesAndEntropy : Prop :=
  (∀ (s : State) (c : Nat), s.phase = .run → s.sec.trans = false → s.sec.cmd = some .order →
    (s.orderFails (s.secBuf 2940) = [] → byteAt (s.secBuf 2940) 2 = 1 → s.sec.trng = false → Answers .secCommandDone s (fun t =>
      t.store = { s.store with
        lcs := 1, wipe := 1, ownerKey := some (slice (s.secBuf 2940) 48 68), gen := s.store.gen + 1
        ident := false, making := true, trees := 0, next := 0 } ∧
      t.get R.SEC_STA_LCS = 1 ∧ t.sec.trans = true ∧ t.sec.nonceOk = false ∧ t.mem = s.mem ∧ t.flash = s.flash)) ∧
    (s.orderFails (s.secBuf 2940) = [] → byteAt (s.secBuf 2940) 2 ∈ [2, 3, 4, 5] → Answers .secCommandDone s (fun t =>
      t.store.lcs = orderTo (byteAt (s.secBuf 2940) 2) s.store.lcs ∧ t.store.wipe = byteAt (s.secBuf 2940) 2 ∧
      t.get R.SEC_STA_LCS = t.store.lcs % 2 ^ R.SEC_STA_LCS.width ∧ t.sec.trans = true ∧ t.sec.nonceOk = false ∧
      t.store.vendorSvn = s.store.vendorSvn ∧ t.mem = s.mem ∧ t.flash = s.flash)) ∧
    (s.orderFails (s.secBuf 2940) = [] → byteAt (s.secBuf 2940) 2 = 6 → Answers .secCommandDone s (fun t =>
      t.get R.SEC_STA_DBGOPEN = 1 ∧ t.get R.SEC_DBG_SCOPE = byteAt (s.secBuf 2940) 45 % 4 ∧ t.sec.opened = true ∧
      t.meas 0 = digest (s.meas 0 ++ List.replicate 32 0xDB) ∧ t.sec.nonceOk = false ∧ t.store = s.store ∧
      t.get R.SEC_STA_BUSY = 0 ∧ t.get R.SEC_RES_OK = 1)) ∧
    (s.orderFails (s.secBuf 2940) = [] → byteAt (s.secBuf 2940) 2 = 7 → Answers .secCommandDone s (fun t =>
      t.store = { s.store with newKey := some (slice (s.secBuf 2940) 48 68) } ∧ t.sec.nonceOk = false ∧
      t.get R.SEC_STA_BUSY = 0 ∧ t.get R.SEC_RES_OK = 1)) ∧
    (s.orderFails (s.secBuf 2940) = [c] → Answers .secCommandDone s (fun t => t.store = s.store ∧
      t.get R.SEC_STA_OERR = c % 2 ^ R.SEC_STA_OERR.width ∧ t.bit (R.FLT 5) Flt.SEC_OREF = true ∧
      t.sec.nonceOk = false ∧ t.get R.SEC_STA_BUSY = 0 ∧ t.get R.SEC_RES_OK = 0))) ∧
  ∀ s : State, s.phase = .run →
    (s.sec.trans = true → s.store.wipe ≠ 0 → s.alm.prog = Option.none → Answers .transitionWipeDone s (fun t =>
      t.phase = .wiping ∧ t.get R.PWR_RSTC_CAUSE = 3 ∧ t.store.wipe = 0 ∧ t.store.ownerSvn = 0 ∧
      t.store.lcs = s.store.lcs ∧ t.store.vendorSvn = s.store.vendorSvn ∧ t.mem = s.mem ∧
      (Memory.wf 0xFF s.flash = true → ∀ a, 0x01800000 ≤ a → a < 0x01A00000 → Memory.read 0xFF t.flash a = 0xFF))) ∧
    (s.sec.trans = false → Answers .transitionWipeDone s (fun t => t = s)) ∧
    (s.store.lcs = 1 ∨ s.store.lcs = 2 → s.store.making = true → s.store.ident = false → s.sec.trans = false →
      Answers .topTreeDone s (fun t => t.store = { s.store with ident := true, making := false } ∧ t.get R.SEC_STA_IDVALID = 1 ∧
        { t with regs := s.regs, store := s.store } = s)) ∧
    (s.store.ident = true → s.store.trees = 0 → Answers .lowerTreeDone s (fun t =>
      t.store = { s.store with trees := 1 } ∧ OnlyFields [R.SEC_STA_NEXTRDY] { s with store := t.store } t)) ∧
    (s.store.ident = true → s.store.next / 2 ^ 20 < s.store.trees → Answers .subtreeRebuildDone s (fun t =>
      OnlyFields [R.SEC_STA_SIGRDY] s t ∧ t.get R.SEC_STA_SIGRDY = 1)) ∧
    Answers .entropyFailure s (fun t => t.sec.trng = true ∧ t.bit (R.FLT 5) Flt.SEC_TRNG = true ∧
      { t.sec with trng := s.sec.trng } = s.sec ∧ FaultsAnd [R.FLT 5, R.FCT 5] { s with sec := t.sec } t) ∧
    (s.sec.trng = true → s.sec.trans = false → s.sec.cmd = some .nonce → Answers .secCommandDone s (fun t =>
      t.get R.SEC_RES_OK = 0 ∧ t.bit (R.FLT 5) Flt.SEC_OREF = true ∧ t.sec.nonceOk = s.sec.nonceOk ∧ t.store = s.store))

/-- Boot takes the valid vendor slot or ends in the image-failure state; a module in recovery programs image segments
and resets on a valid image. Which image is valid beyond R383's words is log entry 235 (DEDUCED), the bounds of a
segment log entry 236 (DEDUCED), the reset at the drain instant log entry 237 (DEDUCED): the model's choices. -/
def Obligations.BootAndImageUpdate : Prop :=
  ∀ (s : State) (slot : Fin 2) (ofs len n : Nat) (bytes : List Byte), s.phase = .run →
    (s.sec.booted = false → s.store.wipe = 0 → s.store.lcs = 4 ∨ s.bootSlot 1 = Option.none → Answers .bootVerify s (fun t =>
      t.get R.SEC_STA_BSTAGE = 0xF ∧ t.nodeId = 0 ∧ t.idValid = false ∧ t.sec.booted = true ∧ t.mem = s.mem)) ∧
    (s.sec.booted = false → s.store.wipe = 0 → s.store.lcs = 0 → s.bootSlot 1 = some n → Answers .bootVerify s (fun t =>
      t.get R.SEC_STA_BSTAGE = 2 ∧ t.get R.SEC_STA_VSLOT = n % 2 ∧ t.sec.vendorOk = true ∧ t.sec.booted = true ∧
      (t.core 0).pc = BitVec.ofNat 64 (imgHdr (s.slotHdr 1 n)).entry ∧ t.flash = s.flash ∧ t.store = s.store)) ∧
    (s.sec.booted = true → Answers .bootVerify s (fun t => t = s)) ∧
    (s.recovers = true → bytes.length ≤ 250 → ofs + bytes.length ≤ 0x800000 → Memory.wf 0xFF s.flash = true →
      Answers (.imageSegment slot ofs bytes) s (fun t => { t with flash := s.flash } = s ∧
        Memory.readBytes 0xFF t.flash (0x800000 + 0x800000 * slot.val + ofs) bytes.length = bytes ∧
        ∀ a, a < 0x800000 + 0x800000 * slot.val ∨ 0x1000000 + 0x800000 * slot.val ≤ a →
          Memory.read 0xFF t.flash a = Memory.read 0xFF s.flash a)) ∧
    (s.recovers = true → s.slotValid 2 slot = true → s.lock = true →
      Answers (.imageEnd slot len) s (fun t => t = { s with pwr := { s.pwr with swPend := true } })) ∧
    (s.recovers = true → s.slotValid 2 slot = false → Answers (.imageEnd slot len) s (fun t =>
      t.bit (R.FLT 5) Flt.SEC_BOOTF = true ∧ FaultsAnd [R.FLT 5, R.FCT 5] s t)) ∧
    (s.recovers = false → Answers (.imageSegment slot ofs bytes) s (fun t => t = s) ∧
      Answers (.imageEnd slot len) s (fun t => t = s))

/-- Whatever a safety channel reads or is told, it energises an output only for an enabled function whose condition
holds. How motion is measured for a violation is log entry 226 (DESIGN CHOICE), the function named by a cause log
entry 225 (DEDUCED), and the outputs of a module whose straps are not valid log entry 227 (DEDUCED): the model's
choices. -/
def Obligations.SafetyOutputsFollowTheirFunctions : Prop :=
  ∀ (s : State) (ch other : Fin 2) (inp : SafInputs) (cause : Fin 16) (ok : Bool), other ≠ ch →
    (∀ c ∈ [Instr.safetyDemand ch inp, .motionViolation ch cause, .violationRelease ch, .dischargeTimeReached ch,
        .safSelfTestDone ch ok],
      (s.field.up = false → Answers c s (fun t => { t with field := s.field } = s ∧ t.safCh other = s.safCh other ∧
        (t.safCh ch).st = (s.safCh ch).st ∧ (c ≠ .safetyDemand ch inp → t = s))) ∧
      (s.field.up = true → Answers c s (fun t => { t with field := s.field } = s ∧ t.safCh other = s.safCh other ∧
        (OutputsFollow (s.safCh ch) → OutputsFollow (t.safCh ch))))) ∧
    Answers (.safetyDemand ch inp) s (fun t => (t.safCh ch).si = inp.si.toNat ∧ (t.safCh ch).sa = inp.sa ∧
      (s.field.up = true → OutputsFollow (t.safCh ch)) ∧ (t.safCh ch).dip = (s.safCh ch).dip) ∧
    (s.field.up = true → (s.safCh ch).sf3 = true → (s.safCh ch).st = .run → (s.safCh ch).violates s.field.ns cause = true →
      Answers (.motionViolation ch cause) s (fun t => (t.safCh ch).viol = true ∧ (t.safCh ch).cause = cause.val ∧
        (t.safCh ch).so1 = false ∧ (t.safCh ch).react = true)) ∧
    ((s.safCh ch).violates s.field.ns cause = false ∨ (s.safCh ch).sf3 = false ∨ (s.safCh ch).counts = false → Answers (.motionViolation ch cause) s (fun t => t = s)) ∧
    (s.field.up = true → Answers (.violationRelease ch) s (fun t =>
      (lasted s.field.ns 1000000000 (s.safCh ch).calm = true → (t.safCh ch).viol = false) ∧
      (lasted s.field.ns 1000000000 (s.safCh ch).calm = false → t = s))) ∧
    (s.field.up = true → Answers (.dischargeTimeReached ch) s (fun t =>
      let now := lasted s.field.ns ((s.safCh ch).dischargeS * 1000000000) (s.safCh ch).openSince
      (now = true → (t.safCh ch).reached = true) ∧ (now = false → t = s))) ∧
    (s.field.up = true → (s.safCh ch).st = .start → Answers (.safSelfTestDone ch true) s (fun t =>
      (t.safCh ch).st = (if (s.safCh ch).dip % 8 = 0 then .idle else .run))) ∧
    (s.field.up = true → (s.safCh ch).st = .start → Answers (.safSelfTestDone ch false) s (fun t =>
      (t.safCh ch).st = .fault ∧ (t.safCh ch).so0 = false ∧ (t.safCh ch).so1 = false))

/-- A lasting cross-channel disagreement, a failed output test, a clock fault and unequal switches de-energise; a
discrepancy ends after 1 s of health. What counts as a disagreement, that each is timed by itself, and that a
channel in IDLE compares and judges nothing are log entry 224 (DEDUCED): the model's choices. -/
def Obligations.SafetyFaultsDeEnergise : Prop :=
  ∀ (s : State) (ch other : Fin 2) (a b : BitVec 8) (pr : Fin 4), other ≠ ch →
    (s.field.up = false → ∀ c ∈ [Instr.crossChannelExchange, .clockSupervisorFault ch, .safetyOutputTest ch false false,
        .switchRead a b, .discrepancy pr, .healthyFor1S pr], Answers c s (fun t => t = s)) ∧
    (s.field.up = true →
      (∀ k t0, nth ((s.safCh 0).disagrees (s.safCh 1)) k false = true → nth s.field.xdisAt k Option.none = some t0 →
        t0 + 20000000 < s.field.ns →
        Answers .crossChannelExchange s (fun t => { t with field := s.field } = s ∧ t.field.xdisP = true ∧
          InFault (s.safCh 0) (t.safCh 0) ∧ InFault (s.safCh 1) (t.safCh 1))) ∧
      ((∀ k t0, nth ((s.safCh 0).disagrees (s.safCh 1)) k false = true → nth s.field.xdisAt k Option.none = some t0 →
          s.field.ns ≤ t0 + 20000000) → s.field.xdisAt.length = 11 →
        Answers .crossChannelExchange s (fun t => t = { s with field := { s.field with xdisAt := t.field.xdisAt } } ∧
          ∀ k < 11, nth t.field.xdisAt k Option.none =
            (if nth ((s.safCh 0).disagrees (s.safCh 1)) k false then
              some ((nth s.field.xdisAt k Option.none).getD s.field.ns) else Option.none))) ∧
      Answers (.clockSupervisorFault ch) s (fun t => { t with field := s.field } = s ∧ InFault (s.safCh ch) (t.safCh ch) ∧
        t.safCh other = s.safCh other) ∧
      Answers (.safetyOutputTest ch false false) s (fun t => { t with field := s.field } = s ∧
        InFault (s.safCh ch) (t.safCh ch) ∧ t.safCh other = s.safCh other) ∧
      Answers (.safetyOutputTest ch true false) s (fun t => t = s) ∧
      Answers (.safetyOutputTest ch false true) s (fun t => t = s) ∧
      (a ≠ b → Answers (.switchRead a b) s (fun t => { t with field := s.field } = s ∧ t.field.dipP = true ∧
        InFault (s.safCh 0) (t.safCh 0) ∧ InFault (s.safCh 1) (t.safCh 1) ∧
        (t.safCh 0).dip = a.toNat ∧ (t.safCh 1).dip = b.toNat)) ∧
      (∀ c : Fin 2, (s.safCh c).dipRead = true → (s.safCh c).st ≠ .start → (s.safCh c).dip ≠ a.toNat →
        Answers (.switchRead a a) s (fun t => { t with field := s.field } = s ∧ t.field.dipP = true ∧
          InFault (s.safCh 0) (t.safCh 0) ∧ InFault (s.safCh 1) (t.safCh 1))) ∧
      ((s.safCh 0).st = .start → (s.safCh 1).st = .start → Answers (.switchRead a a) s (fun t =>
        { t with field := s.field } = s ∧ (t.safCh 0).st = .start ∧ (t.safCh 0).dip = a.toNat ∧
        (t.safCh 1).dip = a.toNat ∧ t.field.dipP = s.field.dipP)) ∧
      Answers (.discrepancy pr) s (fun t => { t with field := s.field } = s ∧ ∀ c : Fin 2,
        let long := lasted s.field.ns 100000001 (nth (s.safCh c).differ pr Option.none)
        ((s.safCh c).st ≠ .idle → long = true → (t.safCh c).isDisc pr = true ∧ (t.safCh c).sip pr = false ∧
          ((s.safCh c).isDisc pr = false → t.field.discP = true)) ∧
        (long = false ∨ (s.safCh c).st = .idle → (t.safCh c).disc = (s.safCh c).disc)) ∧
      Answers (.healthyFor1S pr) s (fun t => { t with field := s.field } = s ∧ ∀ c : Fin 2,
        let long := lasted s.field.ns 1000000000 (nth (s.safCh c).high pr Option.none)
        ((s.safCh c).st ≠ .idle → long = true → (t.safCh c).isDisc pr = false) ∧
        (long = false ∨ (s.safCh c).st = .idle → (t.safCh c).disc = (s.safCh c).disc)))

/-- A mirror update copies the channels' state into the SAF page, and in a Cell only reports enabled functions. -/
def Obligations.SafetyMirrorShowsTheChannels : Prop :=
  ∀ s : State, s.phase = .run →
    (s.field.up = true → s.field.lossMain = false → s.isK = false → s.gated 0x17 = false → Answers .safMirrorUpdate s (fun t =>
      t.get R.SAF_STA_STATEA = (s.safCh 0).st.code ∧ t.get R.SAF_STA_STATEB = (s.safCh 1).st.code ∧
      t.get R.SAF_DIP_DIPA = (s.safCh 0).dip % 2 ^ R.SAF_DIP_DIPA.width ∧
      t.get R.SAF_SIN_SIB = (s.safCh 1).si % 2 ^ R.SAF_SIN_SIB.width ∧
      t.get R.SAF_AGE_UPD = (s.get R.SAF_AGE_UPD + 1) % 2 ^ R.SAF_AGE_UPD.width ∧
      t.field.xdisP = false ∧ t.field.faultP = false ∧ (t.safCh 0).react = false ∧ (t.safCh 1).react = false ∧
      (t.safCh 0).st = (s.safCh 0).st ∧ t.mem = s.mem ∧ t.safAt = some s.fcu.timeNs)) ∧
    (s.field.up = true → s.field.lossMain = false → s.isK = true → Answers .safMirrorUpdate s (fun t =>
      (∀ f : Fld, keyOnPage 0x17 f.key = true → t.get f = s.get f) ∧
      ((s.safCh 0).dip ≠ 0 → t.bit (R.FLT 0x16) Flt.FIO_ROLEC = true) ∧ t.mem = s.mem)) ∧
    (s.field.up = false ∨ s.field.lossMain = true → Answers .safMirrorUpdate s (fun t => t = s))

/-- Field outputs, modes, inputs, shutdowns and restarts act on the field side and on the registers that show it. What
the field die drives while the block is disabled is log entry 220 (DEDUCED), what it works on while the link is lost
log entry 270 (DEDUCED), which shutdowns end when log entry 221 (DEDUCED): the model's choices. -/
def Obligations.FieldOutputsAndInputs : Prop :=
  ∀ (s : State) (v : W32) (n m : Fin 16) (g : Fin 2) (mv us : Nat), s.phase = .run →
    let still : Prop := s.field.test = Option.none ∧ (s.bypWrong = true → s.field.bypBad = true)
    let side (l : List Fld) (t : State) : Prop := still → OnlyFields l { s with field := t.field, alm := t.alm } t
    let wrote (t : State) (w : Nat) : Prop := t.get R.FIO_OUT_OUT = w % 65536 ∧ side [R.FIO_OUT_OUT] t ∧
      (s.field.lossField = false → s.en 0x16 = true → t.fioRx.out = w % 65536) ∧
      (s.field.lossField = true → t.fioRx = s.fioRx) ∧ t.mem = s.mem ∧ t.flash = s.flash
    (s.Takes 0x16 →
      Answers (.outputWrite v) s (fun t => wrote t v.toNat) ∧
      Answers (.outputSet v) s (fun t => wrote t (Nat.lor (s.get R.FIO_OUT_OUT) (v.toNat % 65536))) ∧
      Answers (.outputClear v) s (fun t => wrote t (andNot (s.get R.FIO_OUT_OUT) (v.toNat % 65536))) ∧
      Answers (.modeChange n v) s (fun t => t.get (R.FIO_CFG_MODE n) = v.toNat % 4 ∧
        t.get (R.FIO_CFG_FAILST n) = v.toNat / 2 ^ 18 % 2 ∧
        (m ≠ n → t.get (R.FIO_CFG_MODE m) = s.get (R.FIO_CFG_MODE m)) ∧ t.mem = s.mem ∧ t.flash = s.flash) ∧
      (s.fioLinked = true → Answers (.groupClear g) s (fun t => bitOf t.field.grp g = false ∧ side [] t)) ∧
      (s.fioLinked = false → Answers (.groupClear g) s (fun t => t = s)) ∧
      (s.field.up = true → s.fioLinked = true → Answers .fioRestart s (fun t => t.field.off = false ∧ side [] t)) ∧
      (s.field.up = false ∨ s.fioLinked = false → Answers .fioRestart s (fun t => t = s))) ∧
    (nth s.fioRx.filt n 10 * 10 ≤ us → Answers (.inputChange n mv us) s (fun t =>
      (11000 < mv → bitOf t.field.pins n = true) ∧ (mv < 5000 → bitOf t.field.pins n = false) ∧
      (5000 ≤ mv → mv ≤ 11000 → bitOf t.field.pins n = bitOf s.field.pins n) ∧
      { t with regs := s.regs, field := s.field } = s ∧ { t.field with pins := s.field.pins } = s.field ∧
      (m ≠ n → bitOf t.field.pins m = bitOf s.field.pins m))) ∧
    (us < nth s.fioRx.filt n 10 * 10 → Answers (.inputChange n mv us) s (fun t => t = s)) ∧
    (s.field.up = true → bitOf s.fioRx.outMode n = true → Answers (.outputThermalShutdown n) s (fun t =>
      t.fioSwitch n = false ∧ t.mem = s.mem ∧ (s.field.lossMain = false → t.on (R.FIO_CSTA_OT n) = true) ∧
      (s.field.lossMain = true → bitOf t.field.told.ot n = true))) ∧
    (bitOf s.fioRx.auto n = true → Answers (.thermalRestart n) s (fun t => bitOf t.field.thermal n = false ∧ side [] t)) ∧
    (bitOf s.fioRx.auto n = false → Answers (.thermalRestart n) s (fun t => t = s)) ∧
    (s.field.up = true → Answers (.groupShutdown g) s (fun t => (∀ k : Fin 16, k.val / 8 = g.val → t.fioSwitch k = false) ∧
      (s.field.lossMain = false → t.bit (R.FLT 0x16) Flt.FIO_GRP = true) ∧ t.mem = s.mem)) ∧
    (s.driven = s.field.drive → Answers .bypassPullInEnd s (fun t => t.field.pullIn = false ∧
      t.bypassDuty = s.fioRx.hd + 1 ∧ side [] t))

/-- The link is lost after 8 bad frames and back after 16 good ones, at each side; the field die stops and starts with
its supply. What a field-die reset keeps is log entry 223 (DEDUCED), what the field die works on and reports over a
lost link log entry 270 (DEDUCED), the drive before the outputs restart log entry 220 (DEDUCED): the model's
choices. -/
def Obligations.IsolationLinkAndFieldDie : Prop :=
  ∀ (s : State) (v : BitVec 16) (l : List Byte) (x : Byte),
    let frame (w : List Byte) : Option (List Byte) := some w
    (s.phase = .run →
      (s.field.up = true →
        Answers (.linkFrame .main (frame (l ++ [crc8 l]))) s (fun t => t.field.goodMain = s.field.goodMain + 1 ∧
          t.field.badMain = 0 ∧ OnlyFields [] { s with field := t.field } t) ∧
        Answers (.linkFrame .field (frame (l ++ [crc8 l]))) s (fun t => t.field.goodField = s.field.goodField + 1 ∧
          t.field.badField = 0 ∧ t.mem = s.mem ∧
          (s.field.told = FieldTold.init → OnlyFields [] { s with field := t.field } t)) ∧
        (∀ g ∈ [Option.none, frame (l ++ [x])], x ≠ crc8 l → Answers (.linkFrame .field g) s (fun t =>
          t.field.badField = s.field.badField + 1 ∧ t.field.goodField = 0 ∧ t.mem = s.mem ∧
          (s.field.lossMain = true → t.field.told.crce = s.field.told.crce + 1) ∧
          (s.field.lossMain = false → s.field.told = FieldTold.init →
            t.get R.FIO_LINK_CRCE = min (s.get R.FIO_LINK_CRCE + 1) (2 ^ R.FIO_LINK_CRCE.width - 1) ∧
            OnlyFields [R.FIO_LINK_CRCE] { s with field := t.field } t)))) ∧
      (∀ g ∈ [Option.none, frame (l ++ [x])], x ≠ crc8 l ∨ s.field.up = false → Answers (.linkFrame .main g) s (fun t =>
        t.field.badMain = s.field.badMain + 1 ∧ t.field.goodMain = 0 ∧
        t.get R.FIO_LINK_CRCE = min (s.get R.FIO_LINK_CRCE + 1) (2 ^ R.FIO_LINK_CRCE.width - 1) ∧
        OnlyFields [R.FIO_LINK_CRCE] { s with field := t.field } t)) ∧
      (s.field.lossFlag = false → 8 ≤ s.field.badMain → Answers (.linkLoss .main) s (fun t => t.field.lossMain = true ∧
        t.field.lossFlag = true ∧ t.get R.FIO_RB_VALID = 0 ∧ t.get R.FIO_IN_VALID = 0 ∧
        t.bit (R.FLT 0x16) Flt.FIO_LINK = true ∧ t.get R.FIO_IN_LVL = s.get R.FIO_IN_LVL)) ∧
      (s.field.lossFlag = true ∨ s.field.badMain < 8 → Answers (.linkLoss .main) s (fun t => t = s)) ∧
      (s.field.up = true → s.field.lossField = false → 8 ≤ s.field.badField → Answers (.linkLoss .field) s (fun t =>
        t.field.lossField = true ∧ t.field.rx = s.fioRx ∧ t.fioRx = s.fioRx ∧
        ∀ n, bitOf s.fioRx.failst n = false → t.fioCommand n = false)) ∧
      (s.field.up = false ∨ s.field.lossField = true ∨ s.field.badField < 8 →
        Answers (.linkLoss .field) s (fun t => t = s)) ∧
      (s.field.up = true → 16 ≤ s.field.goodMain → Answers (.linkRecovery .main) s (fun t => t.field.lossMain = false ∧
        t.field.lossFlag = false ∧ t.get R.FIO_RB_VALID = 1 ∧ t.mem = s.mem ∧
        (s.field.told = FieldTold.init → { t with regs := s.regs, field := s.field } = s))) ∧
      (s.field.up = false ∨ s.field.goodMain < 16 → Answers (.linkRecovery .main) s (fun t => t = s)) ∧
      (s.field.up = true → 16 ≤ s.field.goodField → Answers (.linkRecovery .field) s (fun t =>
        t.field.lossField = false ∧ t.field.off = (s.field.off && !s.on R.FIO_GCFG_AUTORS) ∧ t.mem = s.mem)) ∧
      (s.field.up = false ∨ s.field.goodField < 16 → Answers (.linkRecovery .field) s (fun t => t = s)) ∧
      (v.toNat < 4608 → 3968 ≤ v.toNat → Answers (.vfldThreshold v) s (fun t => t.field.volt = v.toNat ∧ t.field.vwarn = true ∧
        t.field.vlow = false ∧ t.mem = s.mem ∧
        (s.field.vwarn = false → s.field.up = true → s.field.lossMain = false →
          t.bit (R.FLT 0x16) Flt.FIO_VWARN = true ∧ t.get R.FIO_VFLD_VWARN = 1)))) ∧
    (s.field.up = true → s.field.volt < 3072 → Answers .fieldDieReset s (fun t => t.field.up = false ∧
      t.field.off = true ∧ (t.safCh 0).st = .start ∧ (t.safCh 1).st = .start ∧ (∀ n, t.fioSwitch n = false) ∧
      t.mem = s.mem ∧ (s.phase = .run → s.field.lossMain = false → t.bit (R.FLT 0x16) Flt.FIO_FDRST = true) ∧
      (s.phase ≠ .run ∨ s.field.lossMain = true → bitOf t.field.told.flt Flt.FIO_FDRST = true))) ∧
    (3072 ≤ s.field.volt → Answers .fieldDieReset s (fun t => t = s)) ∧
    (s.field.up = false → 4096 < s.field.volt → Answers .fieldDieStart s (fun t => t.field.up = true ∧
      t.field.off = true ∧ t.mem = s.mem ∧ ∀ n, t.field.drive ≠ some n → t.fioSwitch n = false)) ∧
    (s.field.volt ≤ 4096 → Answers .fieldDieStart s (fun t => t = s))

/-- A dark test turns one output off at a time, passes or is abandoned, and a stuck pin is classified with its partner.
What suspends and ends a test, a round or a classification is log entry 221 (DEDUCED), its report over a lost link
log entry 270 (DEDUCED): the model's choices. -/
def Obligations.DarkTestsAndClassification : Prop :=
  ∀ (s : State) (n b : Fin 16) (rest : List Nat), s.phase = .run → s.driven = s.field.drive →
    (s.bypWrong = true → s.field.bypBad = true) →
    let side (l : List Fld) (t : State) : Prop := OnlyFields l { s with field := t.field, alm := t.alm } t
    let clear : Prop := s.field.lossMain = false ∧ s.field.told = FieldTold.init
    (s.fioRx.tests = true → s.fioTests = true → s.field.cls = Option.none →
      s.field.test = Option.none → s.darkChannels = n.val :: rest → Answers .darkTestRound s (fun t =>
        t.field.test = some n.val ∧ t.field.round = rest ∧ t.fioSwitch n = false ∧ side [] t)) ∧
    (s.fioRx.tests = false → Answers .darkTestRound s (fun t => t = s)) ∧
    (s.field.test = some n.val → s.fioWanted n = true → s.field.round = [] → Answers (.darkTestEnd false) s (fun t =>
      t.field.test = Option.none ∧ (clear → side [R.FIO_DTCNT_PASS] t ∧
        t.get R.FIO_DTCNT_PASS = min (s.get R.FIO_DTCNT_PASS + 1) (2 ^ R.FIO_DTCNT_PASS.width - 1)))) ∧
    (s.field.test = some n.val → s.fioWanted n = true → Answers (.darkTestEnd true) s (fun t =>
      t.field.cls = some n.val ∧ t.field.test = Option.none ∧ side [] t)) ∧
    (s.field.test = some n.val → s.fioDeliver.fioWanted n = false →
      ∀ c ∈ [Instr.darkTestEnd true, .darkTestEnd false, .darkTestAbandon],
      Answers c s (fun t => t.field.test ≠ some n.val ∧ (clear → side [R.FIO_DTCNT_ABAND] t ∧
        t.get R.FIO_DTCNT_ABAND = min (s.get R.FIO_DTCNT_ABAND + 1) (2 ^ R.FIO_DTCNT_ABAND.width - 1)))) ∧
    (s.fioTests = true → s.stuckHigh n = true → Answers (.stuckHighClassification n Option.none) s (fun t =>
      t.fioSwitch n = false ∧ (s.field.lossMain = false →
        t.on (R.FIO_CSTA_SHV n) = true ∧ t.bit (R.FLT 0x16) Flt.FIO_CHF = true))) ∧
    (s.fioTests = true → s.stuckHigh n = true → b ≠ n → s.fioSwitch b = true →
      Answers (.stuckHighClassification n (some b)) s (fun t => t.fioSwitch n = false ∧ t.fioSwitch b = false ∧
        (s.field.lossMain = false → t.on (R.FIO_CSTA_TIE n) = true ∧ t.on (R.FIO_CSTA_TIE b) = true ∧
          t.get (R.FIO_CSTA_PARTNER n) = b.val ∧ t.get (R.FIO_CSTA_PARTNER b) = n.val ∧
          t.bit (R.FLT 0x16) Flt.FIO_CHF = true)))

/-- An encoder counts each edge once in its mode, publishes its window and reports wire faults. -/
def Obligations.EncodersCountEdges : Prop :=
  ∀ (s : State) (n : Fin 4) (inp : EncInput) (lv : Bool) (v : W32), s.phase = .run →
    (s.encOn n = true → Answers (.encoderEdge n inp lv) s (fun t =>
      t.getS (R.ENC_POS_VAL n) = toSigned 32 (ofSigned 32 (s.getS (R.ENC_POS_VAL n) +
        edgeCount (s.get (R.ENC_CFG_MODE n)) (s.encChan n) inp lv)) ∧
      KeepsFieldsBut [R.ENC_POS_VAL n, R.ENC_ZCNT_Z n] s t ∧ { t with regs := s.regs, field := s.field } = s ∧
      (inp ≠ .z ∨ lv = (s.encChan n).z → t.get (R.ENC_ZCNT_Z n) = s.get (R.ENC_ZCNT_Z n)) ∧
      (inp = .z → lv ≠ (s.encChan n).z → t.get (R.ENC_ZCNT_Z n) = (s.get (R.ENC_ZCNT_Z n) + 1) % 2 ^ 16))) ∧
    (s.encOn n = false → Answers (.encoderEdge n inp lv) s (fun t => { t with field := s.field } = s ∧
      (t.encChan n).count = (s.encChan n).count)) ∧
    (s.encOn n = true → Answers (.encWindowEnd n) s (fun t =>
      t.get (R.ENC_SPD_VAL n) = ofSigned 32 (s.encChan n).count % 2 ^ 32 ∧
      t.get (R.ENC_WSEQ_SEQ n) = (s.get (R.ENC_WSEQ_SEQ n) + 1) % 2 ^ 16 ∧
      t.get (R.ENC_WSEQ_VALID n) = (if (s.encChan n).bad || (s.encChan n).wire % 4 != 0 then 0 else 1) ∧ (t.encChan n).count = 0 ∧
      OnlyFields [R.ENC_SPD_VAL n, R.ENC_WSEQ_SEQ n, R.ENC_WSEQ_VALID n] { s with field := t.field } t)) ∧
    (s.encOn n = true → s.get (R.ENC_WSTA_WIRE n) = (s.encChan n).wire → bitOf (s.encChan n).wire (pairBit inp) = false →
      Answers (.wireFault n inp true) s (fun t => t.bit (R.ENC_WSTA_WIRE n) (pairBit inp) = true ∧
        t.get (R.ENC_WSTA_WFC n) = min (s.get (R.ENC_WSTA_WFC n) + 1) (2 ^ 16 - 1) ∧
        (inp ≠ .z → (t.encChan n).bad = true) ∧ t.bit (R.FLT 0x18) (Flt.ENC_WF + n) = true ∧
        FaultsAnd [R.ENC_WSTA_WIRE n, R.ENC_WSTA_WFC n, R.FLT 0x18, R.FCT 0x18] { s with field := t.field } t)) ∧
    (s.encOn n = true → s.get (R.ENC_WSTA_WIRE n) = (s.encChan n).wire → Answers (.wireFault n inp false) s (fun t =>
      t.bit (R.ENC_WSTA_WIRE n) (pairBit inp) = false ∧ OnlyFields [R.ENC_WSTA_WIRE n] { s with field := t.field } t)) ∧
    (s.encOn n = false → ∀ b, Answers (.wireFault n inp b) s (fun t => bitOf (t.encChan n).wire (pairBit inp) = b ∧
        t.get (R.ENC_WSTA_WIRE n) = 0 ∧ OnlyFields [R.ENC_WSTA_WIRE n] { s with field := t.field } t) ∧
      Answers (.encWindowEnd n) s (fun t => t = s)) ∧
    (s.Takes 0x18 → Answers (.encConfigure n v) s (fun t => t.get (R.ENC_CFG_EN n) = v.toNat / 2 ^ 31 % 2 ∧
      t.get (R.ENC_CFG_MODE n) = v.toNat / 2 ^ 16 % 4 ∧ t.get (R.ENC_CFG_WIN n) = v.toNat % 2 ^ 10 ∧
      t.get (R.ENC_WSEQ_VALID n) = 0 ∧ (t.encChan n).count = 0 ∧ t.mem = s.mem ∧
      ((s.encChan n).wire = 0 → s.get (R.ENC_WSTA_WIRE n) = 0 → OnlyFields [R.ENC_CFG_EN n, R.ENC_CFG_MODE n, R.ENC_CFG_WIN n,
        R.ENC_WSEQ_VALID n, R.ENC_WSTA_WIRE n] { s with field := t.field } t)))

/-- A gate fault input that stays active for its filter time puts G0 to G3 in high impedance in every state; clearing
waits for the input. That the inputs act whatever CTL.EN says, and the levels until the next Strike in carrier mode,
are log entry 141 (DEDUCED), the residue of a trim pulse cut by high impedance log entry 140 (DEDUCED): the model's
choices. -/
def Obligations.GateFaultsForceHighImpedance : Prop :=
  ∀ (s : State) (n : Fin 4) (high : Bool) (ns : Nat) (bits active : BitVec 4), s.phase = .run →
    (s.bit R.PWM_FCFG_EN n = true → high = s.bit R.PWM_FCFG_POL n → s.get R.PWM_FCFG_FILT * 2 ≤ ns →
      Answers (.gateFault n high ns) s (fun t => t.hiz = true ∧
        t.get R.PWM_GSTA_GOUT = 0 ∧ t.get R.PWM_GSTA_DTACT = 0 ∧ t.pwm.pendOn = 0 ∧
        (s.hiz = false → t.cell.trimDue = false) ∧ t.bit (R.FLT 0x14) (Flt.PWM_GF + n) = true ∧
        (s.on R.PWM_SCFG_BYPGF = true → bitOf s.gf n = false → t.bit R.PWM_BYP_SRC 1 = true) ∧
        t.bit R.PWM_GSTA_FLTIN n = true ∧ t.mem = s.mem ∧ t.lanes = s.lanes)) ∧
    (s.bit R.PWM_FCFG_EN n = false ∨ high ≠ s.bit R.PWM_FCFG_POL n ∨ ns < s.get R.PWM_FCFG_FILT * 2 →
      Answers (.gateFault n high ns) s (fun t => t.bit R.PWM_GSTA_FLTIN n = false ∧
        t.pwm = { s.pwm with fltAt := t.pwm.fltAt } ∧ OnlyFields [R.PWM_GSTA_FLTIN] { s with pwm := t.pwm } t)) ∧
    (s.Takes 0x14 → Answers (.gateFaultClear bits active) s (fun t =>
      t.get R.PWM_GSTA_FLTIN = Nat.land active.toNat (s.get R.PWM_FCFG_EN) ∧
      (∀ k : Fin 4, bitOf active.toNat k = true → s.bit R.PWM_FCFG_EN k = true → s.bit (R.FLT 0x14) k = true →
        t.bit (R.FLT 0x14) k = true) ∧
      (∀ k : Fin 4, bitOf bits.toNat k = true → bitOf active.toNat k = false ∨ s.bit R.PWM_FCFG_EN k = false →
        t.bit (R.FLT 0x14) k = false) ∧
      (Nat.land (Nat.land bits.toNat (Nat.land active.toNat (s.get R.PWM_FCFG_EN))) s.gf ≠ 0 →
        t.get R.PWM_GSTA_CLRREF = 1))) ∧
    (s.Takes 0x14 → s.en 0x14 = true → s.frozen = false → s.heldOff = false → s.gf ≠ 0 →
      Answers (.gateFaultClear 15 0) s (fun t => t.gf = 0 ∧ t.hiz = false ∧ t.get R.PWM_GSTA_GOUT = 0 ∧
        t.goutShown = 0 ∧ t.pwm.wait = !s.strikeMode ∧ t.get R.PWM_GSTA_APPL = 3 ∧ t.cell.trimDue = false ∧
        t.bit R.PWM_BYP_SRC 1 = false))

/-- Dead times end in the incoming switches of their leg, a trim edge needs a due pulse, carrier periods read their
values, and a halt freezes every output. The residue of a cut trim pulse and the pending turn-on at a freeze are log
entry 140 (DEDUCED), the levels kept until a Strike log entry 141 (DEDUCED), what a carrier period reads log entry
142 (DEDUCED): the model's choices. -/
def Obligations.PulseUnitEdgesAndModes : Prop :=
  ∀ (s : State) (n : Fin 4) (c : Fin 2), s.phase = .run →
    (s.pwm.pendOn ≠ 0 → s.frozen = false → Answers .deadTimeEnd s (fun t =>
      t.get R.PWM_GSTA_GOUT = Nat.lor (s.get R.PWM_GSTA_GOUT) (s.pendDue s.deadNs) % 2 ^ R.PWM_GSTA_GOUT.width ∧
      t.pwm.pendOn = andNot s.pwm.pendOn (s.pendDue s.deadNs) ∧
      t.get R.PWM_GSTA_DTACT = b2n (t.pwm.pendOn != 0) ∧ t.tickNs = s.tickNs + s.deadNs ∧ t.mem = s.mem ∧
      KeepsFieldsBut [R.PWM_GSTA_GOUT, R.PWM_GSTA_DTACT] s t)) ∧
    (s.pwm.pendOn = 0 ∨ s.frozen = true → Answers .deadTimeEnd s (fun t => t = s)) ∧
    (s.isK = true → s.cell.trimDue = true → s.canSwitch = false → Answers .trimEdge s (fun t =>
      t.cell.trimDue = false ∧ OnlyFields [R.PWM_IRES_RESID] { s with cell := t.cell } t ∧
      t.get R.PWM_IRES_RESID = ofSigned 16 (residOf ((s.tpq : Int) - s.get R.PWM_ITOFF_TOFF) s.tpq) % 2 ^ 16)) ∧
    (s.isK = true → s.cell.trimDue = true → s.canSwitch = true → s.on R.PWM_SCFG_DTC = false →
      (if s.cell.trimNeg then s.pwm.lastOffB else s.pwm.lastOffA) + s.minpq ≤ s.get R.PWM_ITOFF_TOFF →
      s.get R.PWM_ITOFF_TOFF + s.minpq ≤ s.tpq → Answers .trimEdge s (fun t => t.cell.trimDue = false ∧
        t.get R.PWM_GSTA_APPL = (if s.cell.trimNeg then 2 else 1) ∧
        t.get R.PWM_IRES_RESID = ofSigned 16 (residOf s.trimDelay s.tpq) % 2 ^ 16 ∧
        t.tickNs = max s.tickNs (s.get R.PWM_ITOFF_TOFF / 4) ∧ t.mem = s.mem ∧
        KeepsFieldsBut [R.PWM_GSTA_GOUT, R.PWM_GSTA_DTACT, R.PWM_GSTA_APPL, R.PWM_IRES_RESID] s t)) ∧
    (s.isK = false ∨ s.cell.trimDue = false → Answers .trimEdge s (fun t => t = s)) ∧
    (s.carrierRuns = true → s.hiz = true → s.pwm.phase < s.pwm.period → Answers .carrierPeriodStart s (fun t =>
      t.pwm.phase < 4 ∧ t.pwm.cper = max 1 (s.get R.PWM_CPER_CPER) ∧ t.pwm.oen = s.get R.PWM_CCFG_OEN ∧
      nth t.pwm.ccmp n 0 = (carrierEff (max 1 (s.get R.PWM_CPER_CPER)) (s.get (R.PWM_CCMP_CMP n)) s.minpq
        (s.on R.PWM_CCFG_CENTER)).1 ∧
      t.pwm.met = 0 ∧ t.get R.PWM_GSTA_GOUT = s.get R.PWM_GSTA_GOUT ∧
      (s.pwm.phase ≠ 0 ∨ s.pwm.begun = true → s.pwm.period + 4 * s.tickNs ≤ 4 * t.tickNs + s.pwm.phase))) ∧
    (s.carrierRuns = true → s.hiz = false → s.cell.reversed = false → s.pwm.compA = false → s.pwm.compB = false →
      s.pwm.wait = false →
      bitOf s.goutShown n = (bitOf s.pwm.oen n && decide (s.pwm.count < nth s.pwm.ccmp n 0))) ∧
    (s.pwm.wait = true → s.goutShown = s.gout) ∧
    (s.carrierRuns = true → s.hiz = true → nth s.pwm.ccmp n 0 ≠ 0 → nth s.pwm.ccmp n 0 < max 1 s.pwm.cper →
      bitOf s.pwm.met n = false → s.pwm.phase ≤ nth s.pwm.ccmp n 0 → (nth s.pwm.ccmp n 0 - s.pwm.phase) % 4 = 0 →
      Answers (.carrierCompare n) s (fun t => t.pwm.phase = nth s.pwm.ccmp n 0 ∧ bitOf t.pwm.met n = true ∧
        4 * t.tickNs = 4 * s.tickNs + (nth s.pwm.ccmp n 0 - s.pwm.phase) ∧ t.regs = s.regs ∧ t.mem = s.mem)) ∧
    (s.carrierRuns = false → ∀ k ∈ [Instr.carrierPeriodStart, .carrierCompare n], Answers k s (fun t => t = s)) ∧
    (s.debugRuns = true → Answers (.debugHalt c) s (fun t => t.frozen = true ∧ t.pwm.pendOn = 0 ∧
      (s.on R.PWM_GSTA_FRZ = false → t.cell.trimDue = false) ∧ t.get R.PWM_GSTA_FRZ = 1 ∧
      t.get R.PWM_GSTA_GOUT = s.goutShown % 2 ^ R.PWM_GSTA_GOUT.width ∧
      OnlyFields [R.PWM_GSTA_FRZ, R.PWM_IRES_RESID, R.PWM_GSTA_GOUT]
        { s with pwm := t.pwm, cell := t.cell, alm := t.alm } t)) ∧
    (s.debugRuns = false → Answers (.debugHalt c) s (fun t => t = s)) ∧
    Answers (.debugRelease c) s (fun t => t.get R.PWM_GSTA_FRZ = (if t.frozen then 1 else 0) ∧
      (s.pwm.halt0 = false ∨ c = 0 → s.pwm.halt1 = false ∨ c = 1 → t.frozen = false) ∧
      (s.frozen = true → t.frozen = false → t.pwm.wait = !s.strikeMode) ∧
      OnlyFields [R.PWM_GSTA_FRZ, R.PWM_IRES_RESID]
        { s with pwm := t.pwm, cell := t.cell, cores := t.cores, freeCtr := t.freeCtr } t) ∧
    (s.Takes 0x14 → Answers .bypassSet s (fun t => t.bit R.PWM_BYP_SRC 3 = true ∧ t.bypReq = true) ∧
      Answers .bypassClear s (fun t => t.bit R.PWM_BYP_SRC 3 = false ∧
        (s.limActive = true → s.bit R.PWM_BYP_SRC 2 = true → t.get R.PWM_BYP_CLRREF = 1 ∧ t.bit R.PWM_BYP_SRC 2 = true) ∧
        (s.limActive = false → t.bit R.PWM_BYP_SRC 2 = false)))

/-- Converter commands publish corrected codes with their validity, calibrate within range and skip what does not fit.
How the Strike conversions, the sequencer, offset tracking and a calibration share a converter is log entry 144
(DEDUCED): the model's reading. -/
def Obligations.ConverterResults : Prop :=
  ∀ (s : State) (r0 r1 g0 o0 g1 o1 z : BitVec 16) (c : Fin 2) (e : Fin 16) (l : List (BitVec 16)), s.phase = .run →
    (s.en 0x15 = true → s.lock = true → s.strikeValid = true → Answers (.adcStrikeConversionDone r0 r1) s (fun t =>
      t.get R.ADC_STRK_CODE0 = s.corr 0 r0.toNat ∧ t.get R.ADC_STRK_CODE1 = s.corr 1 r1.toNat ∧
      t.get R.ADC_STRK_TICK = s.tick16 ∧ t.get R.ADC_STRK_VALID0 = 1 ∧ t.get R.ADC_STRK_VALID1 = 1 ∧ t.mem = s.mem ∧
      s.convNs ≤ t.tickNs)) ∧
    (s.en 0x15 = true → s.lock = true → s.strikeValid = false → Answers (.adcStrikeConversionDone r0 r1) s (fun t =>
      t.get R.ADC_STRK_CODE0 = 0 ∧ t.get R.ADC_STRK_VALID0 = 0 ∧ t.get R.ADC_STRK_VALID1 = 0 ∧ t.cell.vcapOk = false ∧
      (s.on R.ADC_CFG_STREN = true → t.bit (R.FLT 0x15) Flt.ADC_SMISS = true))) ∧
    (s.en 0x15 = false ∨ s.lock = false → Answers (.adcStrikeConversionDone r0 r1) s (fun t => t = s)) ∧
    (s.Takes 0x15 → s.en 0x15 = true → (s.on R.ADC_CFG_STREN = true ∨ s.on R.ADC_CSTA_CALBUSY = true) →
      Answers .calibrate s (fun t => OnlyFields [R.ADC_CSTA_CALREF] s t ∧ t.get R.ADC_CSTA_CALREF = 1)) ∧
    (s.Takes 0x15 → s.en 0x15 = true → s.on R.ADC_CFG_STREN = false → s.on R.ADC_CSTA_CALBUSY = false →
      Answers .calibrate s (fun t => t.get R.ADC_CSTA_CALBUSY = 1 ∧ nth t.adc.conv c Option.none = Option.none ∧
        nth t.adc.waiting c [] = [] ∧
        (nth s.adc.conv c Option.none = some e.val → t.get (R.ADC_RES_VALID c e) = 0 ∧ t.get (R.ADC_RES_SKIP c e) = 1 ∧
          t.bit (R.FLT 0x15) Flt.ADC_SEQ = true) ∧
        ((∀ k, nth s.adc.conv k Option.none = Option.none ∧ nth s.adc.waiting k [] = []) →
          OnlyFields [R.ADC_CSTA_CALBUSY] { s with adc := t.adc } t))) ∧
    (s.en 0x15 = true → s.on R.ADC_CSTA_CALBUSY = true → calInRange g0.toNat o0.toNat = true → calInRange g1.toNat o1.toNat = true →
      Answers (.calibrationDone g0 o0 g1 o1) s (fun t => t.calg 0 = g0.toNat ∧ t.calg 1 = g1.toNat ∧
        t.calo 0 = o0.toNat ∧ t.calo 1 = o1.toNat ∧ t.get R.ADC_CSTA_CALOK = 1 ∧ t.get R.ADC_CSTA_CALBUSY = 0 ∧
        OnlyFields [R.ADC_CSTA_CALBUSY, R.ADC_CSTA_CALOK, R.ADC_CALG_G0, R.ADC_CALG_G1, R.ADC_CALO_O0,
          R.ADC_CALO_O1] s t)) ∧
    (s.en 0x15 = false ∨ s.on R.ADC_CSTA_CALBUSY = false → Answers (.calibrationDone g0 o0 g1 o1) s (fun t => t = s)) ∧
    (s.en 0x15 = true → s.on R.ADC_CSTA_CALBUSY = true → calInRange g0.toNat o0.toNat = false → Answers (.calibrationDone g0 o0 g1 o1) s
      (fun t => t.get R.ADC_CSTA_CALOK = 0 ∧ t.calg 0 = s.calg 0 ∧ t.calo 1 = s.calo 1 ∧
        t.bit (R.FLT 0x15) Flt.ADC_CALF = true)) ∧
    (s.en 0x15 = true → s.on R.ADC_CFG_OTRK = true → s.on R.ADC_CSTA_CALBUSY = false →
      max 1 (s.get R.ADC_CFG_OTINT) ≤ nth s.adc.since c 0 → nth s.adc.conv c Option.none = Option.none →
      s.strikeBusy = false → s.seqDueWithin c s.convNs = false → s.tickNs + s.convNs + 50 ≤ s.tp → s.calo c < z.toNat →
      Answers (.offsetTrackingConversion c z) s (fun t => nth t.adc.newO c Option.none = some (ofSigned 16 (s.calo c + 1)) ∧
        nth t.adc.since c 0 = 0 ∧ t.regs = s.regs)) ∧
    (s.on R.ADC_CFG_OTRK = false → Answers (.offsetTrackingConversion c z) s (fun t => t = s)) ∧
    (s.en 0x15 = true → s.lock = true → s.on (R.ADC_SEQ_EN c e) = true → s.on R.ADC_CSTA_CALBUSY = false →
      nth s.adc.conv c Option.none = Option.none →
      (s.on R.ADC_CFG_STREN = false ∨ s.convNs ≤ max s.tickNs (s.get (R.ADC_SEQ_OFS c e) * 10)) →
      max s.tickNs (s.get (R.ADC_SEQ_OFS c e) * 10) + s.seqNs c e + 50 ≤ s.tp →
      Answers (.sequencerEntryDue c e) s (fun t => nth t.adc.conv c Option.none = some e.val ∧ t.regs = s.regs ∧
        t.tickNs = max s.tickNs (s.get (R.ADC_SEQ_OFS c e) * 10) ∧ nth t.adc.convAt c 0 = t.tickNs)) ∧
    (s.en 0x15 = true → s.lock = true → s.on (R.ADC_SEQ_EN c e) = true → s.on R.ADC_CSTA_CALBUSY = true →
      Answers (.sequencerEntryDue c e) s (fun t => t.get (R.ADC_RES_VALID c e) = 0 ∧ t.get (R.ADC_RES_SKIP c e) = 1 ∧
        t.bit (R.FLT 0x15) Flt.ADC_SEQ = true)) ∧
    (s.on R.ADC_CSTA_CALBUSY = false → nth s.adc.conv c Option.none = some e.val → l.length = 2 ^ s.seqAvg c e → nth s.adc.waiting c [] = [] →
      (∀ k : Fin 4, s.on (R.ADC_LIMCFG_EN k) = false) → Answers (.sequencerConversionDone c e l) s (fun t =>
        t.get (R.ADC_RES_CODE c e) = (rhe (((l.map (fun r => s.corr c r.toNat)).foldl (fun a b => a + b) 0 : Nat) : Int)
          (s.seqAvg c e)).toNat % 2 ^ 16 ∧
        t.get (R.ADC_RES_VALID c e) = 1 ∧ t.get (R.ADC_RES_SKIP c e) = 0 ∧ nth t.adc.conv c Option.none = Option.none ∧
        t.tickNs = max s.tickNs (nth s.adc.convAt c 0 + s.seqNs c e) ∧
        KeepsFieldsBut [R.ADC_RES_CODE c e, R.ADC_RES_VALID c e, R.ADC_RES_SKIP c e] s t)) ∧
    (s.on R.ADC_CSTA_CALBUSY = true ∨ nth s.adc.conv c Option.none ≠ some e.val → Answers (.sequencerConversionDone c e l) s (fun t => t = s))

/-- A lane comes up through WAKE, ALIGN, TRAIN, VERIFY and UP on exactly the events of its state diagram. How a
countdown of Train blocks runs and where each direction switches is log entry 14 (DEDUCED), when the agreed
precoding ends log entry 56 (DEDUCED): the model's reading. -/
def Obligations.LaneStatesAdvance : Prop :=
  ∀ (s : State) (n : Fin 20) (pay : BitVec 56) (mv ns sent : Nat) (mine : Adapt), s.phase = .run →
    (s.laneOn n = true → s.laneSt n = 1 → (s.lane n).measured = true → (s.getS (R.AZL_PPM_PPM n)).natAbs ≤ s.ppmTh n →
      s.losOff n ≤ mv → s.losDly n ≤ ns → Answers (.losClear n mv ns) s (fun t => t.laneSt n = 2 ∧
        t.on (R.AZL_LSTAT_LOS n) = false ∧ OnlyFields [R.AZL_LSTAT_STATE n, R.AZL_LSTAT_LOS n] s t)) ∧
    (mv < s.losOff n ∨ ns < s.losDly n → Answers (.losClear n mv ns) s (fun t => t = s)) ∧
    (s.laneOn n = true → s.laneSt n = 2 → Answers (.blockLock n) s (fun t => t.laneSt n = 3 ∧
      t.on (R.AZL_LSTAT_BLKLK n) = true ∧ (t.lane n).since = s.fcu.timeNs ∧
      OnlyFields [R.AZL_LSTAT_STATE n, R.AZL_LSTAT_BLKLK n] { s with lanes := t.lanes } t)) ∧
    (s.laneOn n = true → s.laneSt n = 3 → (s.lane n).rrdy = true → (s.lane n).farRrdy = true → (s.lane n).count ≠ 0 →
      Answers (.countdownComplete n) s (fun t => t.laneSt n = 4 ∧ (t.lane n).count = 0 ∧ (t.lane n).farCount = 0 ∧
        t.on (R.AZL_LSTAT_TXPREC n) = ((s.lane n).farPrecReq && s.on (R.AZL_LCTL_PRECALLOW n)) ∧
        t.on (R.AZL_LSTAT_RXPREC n) = ((s.lane n).farPrecAck && s.on (R.AZL_LCTL_PRECREQ n)) ∧ t.mem = s.mem ∧
        KeepsFieldsBut [R.AZL_LSTAT_STATE n, R.AZL_LSTAT_TXPREC n, R.AZL_LSTAT_RXPREC n] s t)) ∧
    ((s.lane n).rrdy = false ∨ (s.lane n).farRrdy = false → Answers (.countdownComplete n) s (fun t => t = s)) ∧
    (s.laneOn n = true → s.laneSt n = 4 → Answers (.verifyComplete n) s (fun t => t.laneUp n = true ∧
      (t.lane n).whole = 0 ∧ t.fcu.timeNs = s.fcu.timeNs + 167773 ∧ t.mem = s.mem ∧
      KeepsFieldsBut [R.AZL_LSTAT_STATE n] s t)) ∧
    (s.laneOn n = true → s.laneSt n = 3 → Answers (.trainBlockReceive n pay sent mine) s (fun t =>
      t.laneSt n = (if (t.lane n).count = 0 ∧ (trainOf pay).countdown = 0 then 4 else 3) ∧
      (t.lane n).farRrdy = (trainOf pay).rrdy ∧ (t.lane n).farPrecReq = (trainOf pay).precReq ∧
      (t.lane n).farPrecAck = (trainOf pay).precAck ∧ (t.lane n).farCount = (trainOf pay).countdown ∧
      (t.lane n).rrdy = mine.rrdy ∧ ((trainOf pay).stMain ≠ 0 → (t.lane n).rqFarMain = 0) ∧
      ((trainOf pay).rrdy = false → sent < (s.lane n).count → (t.lane n).count = 255) ∧
      t.get (R.AZL_LSTAT_PROLE n) = (trainOf pay).role ∧ t.get (R.AZL_LSTAT_PLANE n) = (trainOf pay).lane ∧
      KeepsFieldsBut [R.AZL_LSTAT_PROLE n, R.AZL_LSTAT_PLANE n, R.AZL_TXEQ_PRE n, R.AZL_TXEQ_MAIN n,
        R.AZL_TXEQ_POST n, R.AZL_LSTAT_TXPREC n, R.AZL_LSTAT_RXPREC n, R.AZL_LSTAT_STATE n] s t ∧
      ((trainOf pay).preset = true → t.get (R.AZL_TXEQ_MAIN n) = s.get (R.AZL_TXEQI_MAIN n) % 2 ^ (R.AZL_TXEQ_MAIN n).width))) ∧
    (s.laneOn n = false → ∀ c ∈ [Instr.losClear n mv ns, .blockLock n, .countdownComplete n, .verifyComplete n,
        .trainBlockReceive n pay sent mine], Answers c s (fun t => t = s))

/-- Loss of signal, lock, a remote fault or a Train block takes a lane out of UP and out of service; timeouts, retries
and Leap sites act in their states. Loss of lock in the cycle of LOS is log entry 55, blocks between frames log
entry 16, frames and headers counted at a departure log entry 57, remote fault over gaps log entry 15, Leap sites
log entry 59 (all DEDUCED); the round that an admission starts is log entry 28 (DEDUCED), and the delay measured
anew log entry 267 (DESIGN CHOICE): the model's choices. -/
def Obligations.LaneDeparturesAndRetries : Prop :=
  ∀ (s : State) (n : Fin 20) (ppm : Int) (b : Bool) (k : LockLoss) (mv ns gap : Nat) (sym : List (Fin 4))
    (fr : Bool) (x : Block),
    s.phase = .run → s.laneOn n = true → mv < s.losTh n → s.losDly n ≤ ns →
    (s.laneSt n = 5 → s.ppmTh n < ppm.natAbs → s.on (R.AZL_LSTAT_LOS n) = false →
      s.on (R.SRB (lanePage n)) = false →
      ∀ c ∈ [Instr.losAssert n k mv ns fr, .blockLockLoss n fr, .frequencyWindow n ppm fr, .remoteFault n,
          .trainBlockInUp n fr, .retrain n],
        Answers c s (fun t => t.laneSt n = 6 ∧ t.inSvc n = false ∧ t.mem = s.mem ∧
          nth t.azf.laneEvents n 0 = min 255 (nth s.azf.laneEvents n 0 + 1)) ∧
      ∀ c ∈ [Instr.losAssert n k mv ns true, .blockLockLoss n true, .frequencyWindow n ppm true, .trainBlockInUp n true],
        Answers c s (fun t => t.bit (R.FLT (lanePage n)) Flt.AZL_ABT = true ∧
          t.get (R.AZL_ABTC_ABT n) = min (s.get (R.AZL_ABTC_ABT n) + 1) (2 ^ (R.AZL_ABTC_ABT n).width - 1))) ∧
    (s.laneSt n = 5 → s.on (R.AZL_LSTAT_LOS n) = false → k ≠ .none → Answers (.losAssert n k mv ns fr) s (fun t =>
      t.laneSt n = 6 ∧ t.bit (R.FLT (lanePage n)) Flt.AZL_LOS = true ∧ t.bit (R.FLT (lanePage n)) Flt.AZL_LOL = true ∧
      t.get (R.AZL_CNT_LOSC n) = min (s.get (R.AZL_CNT_LOSC n) + 1) (2 ^ (R.AZL_CNT_LOSC n).width - 1) ∧
      t.get (R.AZL_CNT_LOLC n) = min (s.get (R.AZL_CNT_LOLC n) + 1) (2 ^ (R.AZL_CNT_LOLC n).width - 1))) ∧
    (s.laneSt n = 3 → s.on (R.AZL_LSTAT_LOS n) = false → ∀ c ∈ [Instr.losAssert n k mv ns fr, .trainTimeout n],
      Answers c s (fun t => t.laneSt n = 7 ∧ t.bit (R.FLT (lanePage n)) Flt.AZL_TRF = true ∧ t.mem = s.mem)) ∧
    (s.laneSt n = 7 → s.on (R.AZL_LCTL_AUTO n) = true → s.on (R.SRB (lanePage n)) = false →
      ∀ c ∈ [Instr.retryHoldoffExpiry n, .retrain n], Answers c s (fun t => t.laneSt n = 1 ∧ t.mem = s.mem)) ∧
    (s.laneSt n = 5 → (s.receive n (sym.map Fin.val)).1 = some x → blockKind (some x) true ≠ .valid →
      ∀ c ∈ [Instr.abortReceive n, .invalidBlock n sym true gap],
        Answers c s (fun t => t.laneSt n = 5 ∧ t.bit (R.FLT (lanePage n)) Flt.AZL_ABT = true ∧
          t.get (R.AZL_ABTC_ABT n) = min (s.get (R.AZL_ABTC_ABT n) + 1) (2 ^ (R.AZL_ABTC_ABT n).width - 1) ∧
          (s.arriving n = false → t.out = s.out) ∧ t.mem = s.mem)) ∧
    (s.laneSt n = 5 → s.on (R.AZL_LSTAT_BLKLK n) = true → (s.receive n (sym.map Fin.val)).1 = some x →
      blockKind (some x) false ≠ .valid → Answers (.invalidBlock n sym false gap) s (fun t => t.laneSt n = 5 ∧
        t.bit (R.FLT (lanePage n)) Flt.AZL_CODE = true ∧ t.out = s.out)) ∧
    (s.laneSt n = 5 → s.on (R.AZL_LSTAT_BLKLK n) = true → (s.receive n (sym.map Fin.val)).1 = Option.none →
      s.shTh n ≤ ((s.lane n).badHdr.filter (fun x => decide (x + max 1 gap < 64))).length + 1 →
      Answers (.invalidBlock n sym b gap) s (fun t => t.laneSt n = 6 ∧
        t.bit (R.FLT (lanePage n)) Flt.AZL_LOL = true ∧ t.mem = s.mem)) ∧
    (s.laneSt n = 4 → s.on (R.AZL_LSTAT_BLKLK n) = true → (s.lane n).badHdr = [] → (s.receive n (sym.map Fin.val)).1 = Option.none →
      Answers (.invalidBlock n sym b gap) s (fun t => t.laneSt n = 7 ∧
        t.bit (R.FLT (lanePage n)) Flt.AZL_TRF = true)) ∧
    (s.azf.queue = [] → (s.lane n).tx = Option.none → s.appending n = false →
      Answers (.leapSite n 8 false 0 0) s (fun t => OnlyFields [R.AZL_LEAP_INS n] s t ∧
        t.get (R.AZL_LEAP_INS n) = (s.get (R.AZL_LEAP_INS n) + 1) % 2 ^ (R.AZL_LEAP_INS n).width) ∧
      Answers (.leapSite n 24 false 2 0) s (fun t =>
        OnlyFields [R.AZL_LEAP_DEL n, R.AZL_LSTAT_REMFLT n] { s with lanes := t.lanes } t ∧
        t.on (R.AZL_LSTAT_REMFLT n) = false ∧
        t.get (R.AZL_LEAP_DEL n) = (s.get (R.AZL_LEAP_DEL n) + 1) % 2 ^ (R.AZL_LEAP_DEL n).width) ∧
      Answers (.leapSite n 16 false 0 0) s (fun t => t = s)) ∧
    (s.laneSt n = 5 → s.inSvc n = false → max 1 (s.get (R.AZL_TRCFG_ADMIT n)) ≤ (s.lane n).whole →
      Answers (.laneAdmission n) s (fun t => t.inSvc n = true ∧
        (s.isK = true → t.mem = s.mem ∧ KeepsFieldsBut [R.AZL_LSTAT_INSVC n] s t ∧
          nth t.azf.links n LinkMeas.init = LinkMeas.init))) ∧
    (s.laneSt n ≠ 5 → Answers (.laneAdmission n) s (fun t => t = s))

/-- Decoding the encoded word of any signal-engine instruction gives it back at every operand value, and the words of
the filter example decode as listed. -/
def Obligations.SignalEngineWordsRoundTrip : Prop :=
  (∀ (i : Instr) (n : Fin 4) (w : Nat), seEngine i = some n → seEncode i = some w → w < 2 ^ 32 ∧ seDecode n w = some i) ∧
  ∀ n : Fin 4,
    seDecode n 0x0C000000 = some (.seLda n false 0 0) ∧
    seDecode n 0x9C104000 = some (.seClr n ⟨0, 0, ⟨2, 0, 1, 0⟩, ⟨0, 0, 0, 0⟩⟩) ∧
    seDecode n 0x80084312 = some (.seNop n ⟨0, 0, ⟨1, 0, 1, 0⟩, ⟨1, 4, 1, 1⟩⟩) ∧
    seDecode n 0x2000000E = some (.seRepeat n false 14 0) ∧
    seDecode n 0xA4084312 = some (.seMac n ⟨0, 0, ⟨1, 0, 1, 0⟩, ⟨1, 4, 1, 1⟩⟩) ∧
    seDecode n 0xB0000000 = some (.seMacr n ⟨0, 0, ⟨0, 0, 0, 0⟩, ⟨0, 0, 0, 0⟩⟩) ∧
    seDecode n 0x80112000 = some (.seNop n ⟨0, 0, ⟨2, 1, 0, 4⟩, ⟨0, 0, 0, 0⟩⟩) ∧
    seDecode n 0x28000000 = some (.seHalt n) ∧
    seDecode n 0 = Option.none ∧ seDecode n 0x80000001 = Option.none ∧ seDecode n 0xE4000000 = Option.none ∧
    seDecode n 0x3C000000 = Option.none

/-- Every ALU operation of a signal engine writes its result modulo 2^72 and sets the flags from the exact one. That a
row acts where the word at the PC is its instruction is log entry 115 (DESIGN CHOICE), the counting of stalls log
entry 116 (DEDUCED). -/
def Obligations.EngineAluResultsAndFlags : Prop :=
  ∀ (s : State) (n : Fin 4) (l : Nat) (p : SeProg) (q : PFmt), q.xm.t = 0 → q.ym.t = 0 →
    let b := s.bank n l
    let a : Int := (b.wr q.d).toInt
    let x : Int := if q.s.val < 4 then (b.dr q.s).toInt * 2 ^ 32 else (b.wr (q.s.val - 4)).toInt
    let m : Int := (b.dr (pairOf q.s).1).toInt * (b.dr (pairOf q.s).2).toInt * (if b.md.getLsbD 2 then 2 else 1)
    let upper (f : BitVec 32 → BitVec 32 → BitVec 32) : Int :=
      (((b.wr q.d).extractLsb' 64 8 ++ f ((b.wr q.d).extractLsb' 32 32) (b.dr q.s)) ++ (b.wr q.d).extractLsb' 0 32).toInt
    let done (c : SeBank) (t : State) : Prop :=
      SeDone s n l p c (p.pc + 1) (s.seStall n 0 + 1) 0 false t ∧ t.mem = s.mem
    let runs (i : Instr) (c : SeBank) : Prop := s.Executes n l p i → Answers i s (done c)
    (∀ c ∈ [(Instr.seAdd n q, a + x), (.seSub n q, a - x), (.seMov n q, x), (.seAbs n q, a.natAbs), (.seNeg n q, -a),
        (.seClr n q, 0), (.seMul n q, m), (.seMac n q, a + m), (.seMsb n q, a - m), (.seMulr n q, roundAcc b.md m),
        (.seMacr n q, roundAcc b.md (a + m)), (.seMsbr n q, roundAcc b.md (a - m)), (.seRnd n q, roundAcc b.md a),
        (.seSat n q, max (-2 ^ 63) (min (2 ^ 63 - 1) a)), (.seShl n q, 2 * a), (.seShr n q, a.fdiv 2),
        (.seNorm n q, if 0 ≤ b.shc.toInt then a * 2 ^ b.shc.toInt.toNat else a.fdiv (2 ^ (-b.shc.toInt).toNat)),
        (.seMax n q, max a x), (.seMin n q, min a x)],
      ∃ f, FlagsFollow b.flg f c.2 ∧ runs c.1 { b.setW q.d (BitVec.ofInt 72 c.2) with flg := f }) ∧
    (∃ f, FlagsFollow b.flg f (a - x) ∧ runs (.seCmp n q) { b with flg := f }) ∧
    (q.s.val < 4 → ∀ c ∈ [(Instr.seAnd n q, upper (· &&& ·)), (.seOr n q, upper (· ||| ·)), (.seXor n q, upper (· ^^^ ·))],
      ∃ f, FlagsFollow b.flg f c.2 ∧ runs c.1 { b.setW q.d (BitVec.ofInt 72 c.2) with flg := f }) ∧
    runs (.seNop n q) b ∧
    runs (.seExp n q) { b with shc := expOf (b.wr (q.s.val % 4)) }

/-- The moves of every format P instruction read memory at their indices before anything is written, store, load and
then step the indices. That a row acts where the word at the PC is its instruction is log entry 115 (DESIGN CHOICE),
the counting of stalls log entry 116 and an index outside its circular buffer log entry 117 (DEDUCED). -/
def Obligations.EngineMovesLoadAndStore : Prop :=
  ∀ (s : State) (n : Fin 4) (l : Nat) (p : SeProg) (q : PFmt), s.Inv →
    (∀ w, (s.bank n l).moveWord q.xm = some w → s.CleanRow (seAddr n 0 w)) →
    (∀ w, (s.bank n l).moveWord q.ym = some w → s.CleanRow (seAddr n 1 w)) →
    ∀ c ∈ [(Instr.seNop n q, aluNop), (.seAdd n q, aluAdd), (.seSub n q, aluSub), (.seCmp n q, aluCmp), (.seMov n q, aluMov),
        (.seAbs n q, aluAbs), (.seNeg n q, aluNeg), (.seClr n q, aluClr), (.seMul n q, aluMul), (.seMac n q, aluMac),
        (.seMsb n q, aluMsb), (.seMulr n q, aluMulr), (.seMacr n q, aluMacr), (.seMsbr n q, aluMsbr), (.seRnd n q, aluRnd),
        (.seSat n q, aluSat), (.seShl n q, aluShl), (.seShr n q, aluShr), (.seExp n q, aluExp), (.seNorm n q, aluNorm),
        (.seAnd n q, aluLogic (· &&& ·)), (.seOr n q, aluLogic (· ||| ·)), (.seXor n q, aluLogic (· ^^^ ·)),
        (.seMax n q, aluMax), (.seMin n q, aluMin)],
      s.Executes n l p c.1 → ∀ b1, c.2 (s.bank n l) q.d q.s = some b1 →
        let b := s.bank n l
        let ax := seAddr n 0 (b.ir q.xm.ix).toNat
        let ay := seAddr n 1 (b.ir q.ym.ix).toNat
        let x := BitVec.ofNat 32 (s.mem32 ax)
        let y := BitVec.ofNat 32 (s.mem32 ay)
        let b2 := if b.storeSats q then { b1 with flg := b1.flg ||| 16#8 } else b1
        Answers c.1 s (fun t =>
          SeDone s n l p ((((b2.moveLoad q.xm x).moveLoad q.ym y).moveStep b q.xm).moveStep b q.ym) (p.pc + 1)
            (s.seStall n (pUses q) + 1) 0 false t ∧
          (∀ v, b.moveStore q.xm = some v → t.mem32 ax = v.1.toNat) ∧
          (∀ v, b.moveStore q.ym = some v → t.mem32 ay = v.1.toNat) ∧
          (∀ a, (b.moveStore q.xm = Option.none ∨ a < ax ∨ ax + 4 ≤ a) →
            (b.moveStore q.ym = Option.none ∨ a < ay ∨ ay + 4 ≤ a) → t.memByte a = s.memByte a) ∧
          (b.moveStore q.xm = Option.none → b.moveStore q.ym = Option.none → t.mem = s.mem))

/-- Format C instructions write the register or the word they name and nothing else; register-space accesses deliver
what the bus answers. That a row acts where the word at the PC is its instruction is log entry 115 (DESIGN CHOICE),
the counting of stalls log entry 116 (DEDUCED). -/
def Obligations.EngineRegisterAndMemoryInstructions : Prop :=
  ∀ (s : State) (n : Fin 4) (l : Nat) (p : SeProg) (r r2 : Fin 64) (y hi : Bool) (imm : BitVec 16) (w : Fin 16384)
    (k : Fin 8) (o : BitVec 12) (d : Fin 4) (sh : BitVec 7) (v v2 : BitVec 32), s.Inv →
    let b := s.bank n l
    let ow := (((b.ir k).toNat : Int) + o.toInt).emod 16384 |>.toNat
    let next (i : Instr) (c : SeBank) (uses h : Nat) (hm : Bool) : Prop :=
      s.Executes n l p i → Answers i s (fun t =>
        SeDone s n l p c (p.pc + 1) (s.seStall n uses + 1) h hm t ∧ t.mem = s.mem)
    let stored (i : Instr) (a uses : Nat) : Prop := s.Executes n l p i → s.CleanRow a → Answers i s (fun t =>
      SeDone s n l p b (p.pc + 1) (s.seStall n uses + 1) 0 false t ∧ t.mem32 a = v.toNat ∧ SameBytesBut a 4 s t)
    b.read r = some v → b.read r2 = some v2 →
    (∀ c, b.write r (if hi then imm ++ v.extractLsb' 0 16 else imm.signExtend 32) = some c →
      next (.seLdi n r hi imm) c 0 (hazardI r) (hazardM r)) ∧
    (∀ c, b.write r2 v = some c → next (.seMovr n r2 r) c 0 (hazardI r2) (hazardM r2)) ∧
    (∀ c, b.write r (v + imm.signExtend 32) = some c → next (.seAddi n r imm) c 0 (hazardI r) false) ∧
    (∃ f, FlagsFollow b.flg f (shiftExact (b.wr d).toInt sh.toInt) ∧
      next (.seAsh n d sh) { b.setW d (BitVec.ofInt 72 (shiftExact (b.wr d).toInt sh.toInt)) with flg := f } 0 0 false) ∧
    (s.CleanRow (seAddr n (b2n y) w) → ∀ c, b.write r (BitVec.ofNat 32 (s.mem32 (seAddr n (b2n y) w))) = some c →
      next (.seLda n y r w) c 0 (hazardI r) false) ∧
    (s.CleanRow (seAddr n (b2n y) ow) → ∀ c, b.write r (BitVec.ofNat 32 (s.mem32 (seAddr n (b2n y) ow))) = some c →
      next (.seLdo n y r k o) c (2 ^ k.val) (hazardI r) false) ∧
    stored (.seSta n y r w) (seAddr n (b2n y) w) 0 ∧
    stored (.seSto n y r k o) (seAddr n (b2n y) ow) (2 ^ k.val) ∧
    (let a := 0x40000000 + 0x10000 * s.get (R.SE_IOB_WIN n) + 4 * w.val
      let io (i : Instr) (u : State) (c : SeBank) : Prop := s.Executes n l p i → Answers i s (fun t => t.bank n l = c ∧
        (t.eng n).prog l = some { p with pc := p.pc + 1 } ∧ (t.eng n).last = p.pc ∧ { t with se := u.se } = u ∧
        ((s.eng n).prog0.isSome → (u.eng n).cyc + s.seStall n 0 + 1 ≤ (t.eng n).cyc ∧
          (t.eng n).cyc ≤ (u.eng n).cyc + s.seStall n 0 + 80))
      (let u := ((s.ioCycles.2.setIow n true).busRead (.engine n) a 4).setIow n false;
        u.resp.err = false → (u.eng n) = (s.eng n) → ∀ c, b.write r u.resp.data = some c → io (.seIold n r w) u c) ∧
      (let u := ((s.ioCycles.2.setIow n true).busWrite (.engine n) a 4 v).setIow n false;
        u.resp.err = false → (u.eng n) = (s.eng n) → io (.seIost n r w) u b))

/-- Jumps, calls, REPEAT, DBNZ, SIG and HALT of a signal engine move the PC, the stack and the counters as their rules
say. That a row acts where the word at the PC is its instruction is log entry 115 (DESIGN CHOICE); cycles and the
iterations of REPEAT are log entry 116, the corners of HALT and REPEAT log entry 117, chained entries log entry 119
(DEDUCED): the model's choices. -/
def Obligations.EngineControlInstructions : Prop :=
  ∀ (s : State) (n : Fin 4) (l : Nat) (p : SeProg) (r : Fin 64) (cc : Fin 16) (g : Fin 8192) (cnt : Fin 4096)
    (code : BitVec 8) (imm : BitVec 16),
    let b := s.bank n l
    let st := s.seStall n 0
    let f (k : Nat) : Bool := b.flg.getLsbD k
    let next (i : Instr) (c : SeBank) (pc : BitVec 13) (cyc h : Nat) : Prop :=
      s.Executes n l p i → Answers i s (fun t => SeDone s n l p c pc (st + cyc) h false t ∧ t.mem = s.mem)
    let acts (i : Instr) (P : State → Prop) : Prop := s.Executes n l p i → Answers i s P
    (∀ h, (cc.val, h) ∈ [(0, true), (1, f 0), (2, !f 0), (3, f 1), (4, !f 1), (5, !f 0 && !f 1), (6, f 0 || f 1), (7, f 2),
        (8, !f 2), (9, f 4), (10, !f 4)] →
      next (.seJmpcc n cc g) b (if h then BitVec.ofNat 13 g else p.pc + 1) (if h then 2 else 1) 0) ∧
    (b.stack.length < 8 → next (.seCall n g) { b with stack := (p.pc + 1) :: b.stack } (BitVec.ofNat 13 g) 2 0) ∧
    (∀ a q, b.stack = a :: q → next (.seRet n) { b with stack := q } a 2 0) ∧
    acts (.seRepeat n false cnt r) (fun t => (t.eng n).rpt = some (cnt.val + 1) ∧
      (t.eng n).prog l = some { p with pc := p.pc + 1 } ∧ t.bank n l = b ∧ { t with se := s.se } = s) ∧
    (∀ v, b.read r = some v → v ≠ 0 → acts (.seRepeat n true cnt r) (fun t =>
      (t.eng n).rpt = some (min v.toNat 4096) ∧ (t.eng n).prog l = some { p with pc := p.pc + 1 } ∧ t.bank n l = b ∧
      { t with se := s.se } = s)) ∧
    (b.read r = some 0 → acts (.seRepeat n true cnt r) (fun t => (t.eng n).rpt = Option.none ∧
      (t.eng n).prog l = some { p with pc := p.pc + 2 } ∧ t.bank n l = b ∧ { t with se := s.se } = s)) ∧
    (∀ (k : Nat) (v : BitVec 32) (c : SeBank), b.read r = some v → b.write r (v + imm.signExtend 32) = some c →
      s.Executes n l p (.seAddi n r imm) → (s.eng n).waits = [] →
      Answers (.seAddi n r imm) (s.setEng n { s.eng n with rpt := some (k + 1) }) (fun t => t.bank n l = c ∧
        (t.eng n).rpt = (if k = 0 then Option.none else some k) ∧
        (t.eng n).prog l = some { p with pc := if k = 0 then p.pc + 1 else p.pc } ∧ (t.eng n).last = p.pc ∧
        t.mem = s.mem ∧ t.regs = s.regs)) ∧
    (∀ v c, b.read r = some v → b.write r (v - 1) = some c →
      (if (v - 1).toNat % 2 ^ regWidth r = 0 then next (.seDbnz n r g) c (p.pc + 1) 1 (hazardI r)
       else next (.seDbnz n r g) c (BitVec.ofNat 13 g) 2 (hazardI r))) ∧
    acts (.seSig n code) (fun t => t.bank n l = b ∧ (t.eng n).prog l = some { p with pc := p.pc + 1 } ∧
      t.mem = s.mem ∧ (s.en 8 = true → s.on (R.DSX_SRC_EN (0x38 + n)) = true →
        Nat.land (s.get (R.DSX_SRC_CMASK (0x38 + n))) s.runMask ≠ 0 → s.dsxFree ≠ 0 →
        ∃ d, t.dsx.queue = s.dsx.queue ++ [d] ∧ d.src = 0x38 + n.val ∧ d.arg = 256 * l + code.toNat ∧
          d.tick = s.tick16)) ∧
    acts (.seHalt n) (fun t => (t.eng n).prog l = Option.none ∧ (t.bank n l) = { b with stack := [] } ∧
      t.bank n (1 - l) = s.bank n (1 - l) ∧ (t.eng n).prog (1 - l) = (s.eng n).prog (1 - l) ∧ t.mem = s.mem ∧
      (l = 0 → t.get (R.SE_CYC_CYC n) = min ((s.eng n).cyc + st + 1) (2 ^ 32 - 1) ∧
        (s.get (R.SE_MAXC_MAXC n) < 2 ^ 32 →
          t.get (R.SE_MAXC_MAXC n) = max (s.get (R.SE_MAXC_MAXC n)) (min ((s.eng n).cyc + st + 1) (2 ^ 32 - 1)))))

/-- An engine traps with the cause of R207: illegal fields, a wrong instruction after REPEAT, the stack's ends and
uncorrectable errors. That a row acts where the word at the PC is its instruction, and the trap of another word, are
log entry 115 (DESIGN CHOICE); the causes of a command's illegal fields and of an engine's bus error are log entry
118 (DEDUCED): the model's choices. -/
def Obligations.EngineTraps : Prop :=
  ∀ (s : State) (n : Fin 4) (l : Nat) (p : SeProg) (r d : Fin 64) (cc : Fin 16) (g : Fin 8192) (cnt : Fin 4096)
    (q : PFmt) (y sr hi : Bool) (w : Fin 16384) (k : Fin 8) (o : BitVec 12) (imm : BitVec 16) (code : BitVec 8),
    let traps (u : State) (cause : Nat) (i : Instr) : Prop :=
      s.Executes n l p i → Answers i u (SeTrapped s n l cause p.pc)
    (43 ≤ r.val → ∀ i ∈ [Instr.seLdi n r hi imm, .seMovr n d r, .seMovr n r d, .seLda n y r w, .seSta n y r w,
      .seLdo n y r k o, .seSto n y r k o, .seDbnz n r g, .seAddi n r imm, .seRepeat n true cnt r, .seIold n r w,
      .seIost n r w], traps s 1 i) ∧
    (11 ≤ cc.val → traps s 1 (.seJmpcc n cc g)) ∧
    (4 ≤ q.s.val → ∀ i ∈ [Instr.seAnd n q, .seOr n q, .seXor n q], traps s 1 i) ∧
    (8 ≤ (s.bank n l).stack.length → traps s 3 (.seCall n g)) ∧
    ((s.bank n l).stack = [] → traps s 4 (.seRet n)) ∧
    (r.val < 43 → s.badRow (seAddr n (b2n y) w) = true → ∀ i ∈ [Instr.seLda n y r w, .seSta n y r w],
      s.Executes n l p i → Answers i s (fun t =>
        SeTrapped s n l 5 p.pc t ∧ t.get (R.SE_ECC_MEM n) = b2n y ∧ t.get (R.SE_ECC_ADDR n) = w.val)) ∧
    (r.val < 43 → s.busOk (.engine n) false (s.ioAddr n w) 4 = false → traps s 6 (.seIold n r w)) ∧
    (r.val < 43 → s.busOk (.engine n) true (s.ioAddr n w) 4 = false → traps s 6 (.seIost n r w)) ∧
    ((s.eng n).waits = [] → ∀ m, ∀ i ∈ [Instr.seJmpcc n cc g, .seCall n g, .seRet n, .seRepeat n sr cnt 0, .seDbnz n r g,
        .seHalt n, .seSig n code, .seIold n r w, .seIost n r w],
      traps (s.setEng n { s.eng n with rpt := some m }) 2 i) ∧
    (s.phase = .run → s.runs (sePage n) = true → (s.eng n).level = some l → (s.eng n).prog l = some p →
      (s.eng n).rpt = Option.none →
      ∀ i ∈ [Instr.seNop n q, .seMac n q, .seLdi n r hi imm, .seJmpcc n cc g, .seCall n g, .seRet n, .seRepeat n false cnt r,
          .seDbnz n r g, .seHalt n, .seSig n code, .seIold n r w],
        (s.badRow (seAddr n 2 p.pc.toNat) = true → Answers i s (SeTrapped s n l 5 p.pc)) ∧
        (s.badRow (seAddr n 2 p.pc.toNat) = false → s.seInsn n p.pc = Option.none →
          Answers i s (SeTrapped s n l 1 p.pc)))

/-- Triggers make entries pending, the engine starts them by level and number, STOP ends both levels, and the memory
window takes word accesses. STOP and REPEAT are log entry 117, the refused access of a core log entry 118, the
triggers that have no row log entry 119 (all DEDUCED); an illegal first word is log entry 115 (DESIGN CHOICE): the
model's choices. -/
def Obligations.EngineEntriesStartsAndStops : Prop :=
  ∀ (s : State) (n k : Fin 4) (c : Fin 8) (a w : Nat) (y : Bool) (v : W32), s.Takes (sePage n) → s.Inv → s.en (sePage n) = true →
    (s.bit (R.FLT (sePage n)) Flt.SE_TRAP = false → s.on (R.SE_ENT_EN n k) = true → bitOf (s.eng n).pend k = false →
      (s.eng n).runsEntry k = false →
      Answers (.seStart n (BitVec.ofNat 4 (2 ^ k.val))) s (fun t =>
        t.eng n = { s.eng n with pend := (s.eng n).pend + 2 ^ k.val } ∧ (∀ m, m ≠ n.val → t.eng m = s.eng m) ∧
        { t with se := s.se } = s) ∧
      (s.lock = true → s.get (R.SE_ENT_TRG n k) = 1 → s.get (R.SE_ENT_OFS n k) * 10 < s.eveNs →
        s.tickNs ≤ s.get (R.SE_ENT_OFS n k) * 10 → Answers (.seEntryTrigger n k) s (fun t =>
          t.eng n = { s.eng n with pend := (s.eng n).pend + 2 ^ k.val } ∧ t.tickNs = s.get (R.SE_ENT_OFS n k) * 10 ∧
          t.mem = s.mem ∧ t.regs = s.regs))) ∧
    (s.on (R.SE_ENT_EN n k) = true → (s.bit (R.FLT (sePage n)) Flt.SE_TRAP = true ∨ bitOf (s.eng n).pend k = true ∨
        (s.eng n).runsEntry k = true) →
      Answers (.seStart n (BitVec.ofNat 4 (2 ^ k.val))) s (fun t => t.eng n = s.eng n ∧
        t.get (R.SE_SKIPC_BUSY n) = min (s.get (R.SE_SKIPC_BUSY n) + 1) 65535 ∧
        t.bit (R.FLT (sePage n)) Flt.SE_BUSY = true ∧ t.mem = s.mem)) ∧
    (s.on (R.SE_ENT_EN n k) = false → Answers (.seStart n (BitVec.ofNat 4 (2 ^ k.val))) s (fun t => t = s)) ∧
    (s.seReady n = some k.val → s.badRow (seAddr n 2 (s.get (R.SE_ENT_ADDR n k) % 8192)) = false →
      s.seInsn n (BitVec.ofNat 13 (s.get (R.SE_ENT_ADDR n k))) ≠ Option.none →
      Answers (.seProgramStart n) s (fun t => ∃ p : SeProg,
      (t.eng n).prog (s.get (R.SE_ENT_LVL n k)) = some p ∧ p.entry = k.val ∧
      p.pc = BitVec.ofNat 13 (s.get (R.SE_ENT_ADDR n k)) ∧ bitOf (t.eng n).pend k = false ∧
      t.bank n 0 = s.bank n 0 ∧ t.bank n 1 = s.bank n 1 ∧ { t with se := s.se } = s)) ∧
    (s.seReady n = some k.val → s.badRow (seAddr n 2 (s.get (R.SE_ENT_ADDR n k) % 8192)) = false →
      s.seInsn n (BitVec.ofNat 13 (s.get (R.SE_ENT_ADDR n k))) = Option.none → Answers (.seProgramStart n) s
        (SeTrapped s n (s.get (R.SE_ENT_LVL n k)) 1 (BitVec.ofNat 13 (s.get (R.SE_ENT_ADDR n k))))) ∧
    ((s.eng n).prog1 = Option.none → (s.eng n).prog0 = Option.none → (s.eng n).rpt = Option.none → (s.eng n).stop = false →
      bitOf (s.eng n).pend k = true → s.get (R.SE_ENT_LVL n k) = 1 →
      (∀ j : Fin 4, j < k → bitOf (s.eng n).pend j = false) → s.seReady n = some k.val) ∧
    ((s.eng n).prog1.isSome → s.seReady n = Option.none) ∧
    ((s.eng n).pend = 0 → Answers (.seProgramStart n) s (fun t => t = s)) ∧
    ((s.eng n).rpt = Option.none → Answers (.seStop n) s (fun t => (t.eng n).level = Option.none ∧ (t.eng n).pend = 0 ∧
      t.bank n 0 = s.bank n 0 ∧ t.bank n 1 = s.bank n 1 ∧ { t with se := s.se } = s)) ∧
    (w < 16384 → a = seAddr n (b2n y) w → s.CleanRow a → (s.eng n).rpt = Option.none →
      (s.Reaches (.core c) (s.plainAccess c 4 .none) .store a → Answers (.seMemoryAccess c a 4 (some v) .none) s (fun t =>
        t.mem32 a = v.toNat ∧ t.resp.err = false ∧ SameBytesBut a 4 s t ∧
        { t with mem := s.mem, resp := s.resp, cores := s.cores, freeCtr := s.freeCtr } = s)) ∧
      (s.Reaches (.core c) (s.plainAccess c 4 .none) .load a → Answers (.seMemoryAccess c a 4 Option.none .none) s (fun t =>
        t.resp = ⟨false, BitVec.ofNat 32 (s.mem32 a)⟩ ∧ (t.core c).rd = BitVec.ofNat 64 (s.mem32 a) ∧
        { t with resp := s.resp, cores := s.cores, freeCtr := s.freeCtr } = s))) ∧
    (w < 16384 → a = seAddr n (b2n y) w → (s.eng n).rpt.isSome = true →
      s.Reaches (.core c) (s.plainAccess c 4 .none) .store a → Answers (.seMemoryAccess c a 4 (some v) .none) s (fun t =>
        (t.eng n).waits = (s.eng n).waits ++ [⟨some c.val, a, some v, .none⟩] ∧ t.mem = s.mem)) ∧
    (w < 16384 → a = seAddr n (b2n y) w → s.canAct (.core c) = true →
      (s.core c).pmpRefuses .store ((s.core c).accessUser .store) a 2 = false →
      Answers (.seMemoryAccess c a 2 (some v) .none) s (fun t => t.resp.err = true ∧ t.mem = s.mem ∧
        (t.core c).mcause = 7#64 ∧ (t.core c).mtval = BitVec.ofNat 64 a))

/-- Triggers queue an evaluation once, the engine starts them in order, a window write stores one word, and the profile
generator publishes and presets. The order of requests is log entry 105 (DEDUCED); the access fault of a refused
window access is log entry 6 (PRESUMED): the model's choices. -/
def Obligations.ControlLawAndProfileCommands : Prop :=
  ∀ (s : State) (n i : Fin 32) (k : Fin 16) (bits : BitVec 16) (c : Fin 8) (o : Nat) (v : W32) (how : Access) (q : CleReq), s.phase = .run → s.Inv →
    let at' := s.get (R.CLE_CCFG_OFS n) * 10
    let idle := s.cle.queue.all (fun r => r.ch != n.val) && s.cle.run.map CleRun.ch != some n.val
    (s.cleOn = true → s.cleDue n = true → s.get (R.CLE_CCFG_TRG n) = 0 → at' < s.eveNs → s.tickNs ≤ at' →
      (idle = true → Answers (.cleTrigger n) s (fun t => t.cle.queue = s.cle.queue ++ [⟨n, false, at'⟩] ∧ t.tickNs = at' ∧
        t.regs = s.regs ∧ t.mem = s.mem)) ∧
      (idle = false → Answers (.cleTrigger n) s (fun t => t.cle = s.cle ∧ t.mem = s.mem ∧
        t.get (R.CLE_CFLG_BUSY n) = 1 ∧ KeepsFieldsBut [R.CLE_CFLG_BUSY n, R.CLE_SKIPC_SKIP] s t ∧
        t.get R.CLE_SKIPC_SKIP = min (s.get R.CLE_SKIPC_SKIP + 1) (2 ^ R.CLE_SKIPC_SKIP.width - 1)))) ∧
    (s.Takes 0x0E → s.cleOn = true → s.cleDue n = true → s.get (R.CLE_CCFG_TRG n) = 3 → s.tickNs < s.eveNs → idle = true →
      Answers (.cleRun n) s (fun t => t.cle.queue = s.cle.queue ++ [⟨n, false, s.tickNs⟩] ∧
        OnlyFields [R.CLE_CMD_CHAN] { s with cle := t.cle } t)) ∧
    (s.cleOn = true → s.tickNs < s.eveNs → s.cle.run = Option.none → s.cleNext = some q → Answers .cleEvaluationStart s (fun t =>
      t.cle.queue = s.cle.queue.erase q ∧ t.mem = s.mem ∧ KeepsFieldsBut [R.CLE_CST_TSTART q.ch] s t ∧
      t.get (R.CLE_CST_TSTART q.ch) = s.tickNs / 10 % 2 ^ (R.CLE_CST_TSTART q.ch).width ∧
      ∃ r, t.cle.run = some r ∧ r.ch = q.ch ∧ r.inst = s.cleInst q.ch ∧ r.y.length = s.ny r.inst ∧
        r.r.length = s.nr r.inst ∧ r.x = (List.range (s.nx r.inst)).map (fun k => s.cleInt r.inst (0x1600 + 4 * k)))) ∧
    (s.cle.run.isSome → Answers .cleEvaluationStart s (fun t => t = s)) ∧
    (s.gated 0x0E = false → o < 0x2000 → o % 4 = 0 →
      let a := cleBase i + o
      let same (t : State) : State := { t with resp := s.resp, cores := s.cores, freeCtr := s.freeCtr }
      (s.Reaches (.core c) (s.plainAccess c 4 .none) .store a →
        (cleWritable o = true → Answers (.cleWindowWrite (.core c) a 4 v) s (fun t => t.mem32 a = v.toNat ∧
          SameBytesBut a 4 s t ∧ t.resp.err = false ∧ KeepsFieldsBut [R.CLE_IST_WCNT i] s t ∧
          t.get (R.CLE_IST_WCNT i) = (s.get (R.CLE_IST_WCNT i) + 1) % 2 ^ (R.CLE_IST_WCNT i).width ∧
          { same t with mem := s.mem, regs := s.regs, cle := s.cle } = s)) ∧
        (cleWritable o = false → Answers (.cleWindowWrite (.core c) a 4 v) s (fun t => t.resp.err = false ∧ same t = s))) ∧
      (s.Reaches (.core c) how .load a → Answers (.readLowWord (.core c) a how) s (fun t => same t = s ∧ t.resp =
        ⟨false, BitVec.ofNat 32 (if cleWritable o = true ∨ (0x1640 ≤ o ∧ o < 0x1660) then s.mem32 a else 0)⟩)) ∧
      (s.canAct (.core c) = true → (s.core c).pmpRefuses .store ((s.core c).accessUser .store) a 2 = false →
        Answers (.cleWindowWrite (.core c) a 2 v) s (fun t => t.resp.err = true ∧ t.mem = s.mem ∧ t.regs = s.regs ∧
          (t.core c).mcause = 7#64))) ∧
    (s.runs 0x0D = true → s.lock = true → Answers .pgnPublish s (fun t =>
      nth t.cle.pgnOut k 0 = (if s.on (R.PGN_PCFG_EN k) then satSigned 32 (rhe (s.getS (R.PGN_P_P k)) 32)
        else nth s.cle.pgnOut k 0) ∧ t.regs = s.regs ∧ t.mem = s.mem ∧ t.tickNs = max s.tickNs 60)) ∧
    (s.runs 0x0D = false → Answers .pgnPublish s (fun t => t = s)) ∧
    (s.Takes 0x0D → Answers (.pgnPreset bits) s (fun t =>
      { t with cle := { t.cle with preset := s.cle.preset } } = s ∧
      t.cle.preset = Nat.lor s.cle.preset bits.toNat)) ∧
    (∀ (tgt : Int) (vmax amax jmax : Nat) (o : PgnVal), o.v.natAbs ≤ vmax →
      (pgnStep tgt vmax amax jmax o).v.natAbs ≤ vmax) ∧
    (∀ (tgt : Int) (vmax amax jmax : Nat) (o : PgnVal), o.p = tgt → o.v = 0 → o.a = 0 →
      pgnStep tgt vmax amax jmax o = o)

/-- An evaluation ends after its cycles with the outputs, the new state and OSEQ of its channel, and coasts where an
input is lost. `evaluate` is the model's function for the three phases, over the words of the coefficient window.
Where a write falls within an evaluation is log entry 107 (DEDUCED), that a held evaluation is not marked saturated
log entry 275 (DESIGN CHOICE): the model's choices. -/
def Obligations.EvaluationWritesOutputsAndState : Prop :=
  ∀ (s : State) (r : CleRun), s.phase = .run → s.Inv →
    (s.cle.run = Option.none → Answers .cleEvaluationDone s (fun t => t = s)) ∧
    (s.cle.run = some r → s.runs 0x0E = true → r.ch < 32 → r.inst < 32 → Answers .cleEvaluationDone s (fun t =>
      t.cle.run = Option.none ∧ r.ch ∈ t.cle.finished ∧ t.on (R.CLE_IST_MIXL r.inst) = cleMixed r.writes ∧
      t.get (R.CLE_CST_OSEQ r.ch) = (s.get (R.CLE_CST_OSEQ r.ch) + 1) % 2 ^ (R.CLE_CST_OSEQ r.ch).width)) ∧
    (s.cle.run = some r → s.runs 0x0E = true → r.ch < 32 → r.inst < 32 → r.writes = [] → s.nx r.inst ≤ 16 → s.nu r.inst ≤ 8 →
      r.lost.any id = false →
      let w : CleMem := ⟨fun o => s.cleWord r.inst o,
        fun k => s.cleWord r.inst (0x1100 + k / 4 * 4) / 2 ^ (8 * (k % 4)) % 32⟩
      let res := evaluate w (s.nx r.inst) (s.nu r.inst) (s.get (R.CLE_ICFG_SHE r.inst)) (s.get (R.CLE_ICFG_SHU r.inst))
        (s.get (R.CLE_ICFG_SHX r.inst)) r.y r.r r.x r.lost
      Answers .cleEvaluationDone s (fun t => s.tickNs + s.cleCycles r.inst ≤ t.tickNs ∧
        (∀ m : Fin 8, t.getS (R.CLE_OUT_U (8 * r.ch + m)) = nth res.u m 0) ∧
        (∀ k, k < s.nx r.inst → t.cleInt r.inst (0x1600 + 4 * k) = nth res.x k 0) ∧
        (∀ k, k < s.nu r.inst → t.cleInt r.inst (0x1640 + 4 * k) = nth res.u k 0) ∧
        t.get (R.CLE_IST_COAST r.inst) = 0 ∧
        t.on (R.CLE_IST_USAT r.inst) = res.sat ∧
        (∀ m, m < s.nu r.inst → s.cleInt r.inst (0x1680 + 8 * m) ≤ s.cleInt r.inst (0x1684 + 8 * m) →
          s.cleInt r.inst (0x1680 + 8 * m) ≤ nth res.u m 0 ∧ nth res.u m 0 ≤ s.cleInt r.inst (0x1684 + 8 * m))))

/-- The Strike starts a new tick, the local instant one without a number, Eve drops what has not started and the drain
discards what is in flight. Local tick instants and the Strike at which LOCK sets are log entry 43 (DEDUCED), one
event of SKIPC.EVE for an engine and Eve log entry 260 (DESIGN CHOICE): the model's choices. -/
def Obligations.BoundaryInstantsOfTheTick : Prop :=
  ∀ s : State, s.phase = .run →
    let u := (s.when (!s.isK) s.nodeOffset).alignTick.acqTick
    let fresh (t : State) : Prop := t.tickNs = 0 ∧ t.azf.slotSent = false ∧ t.azf.harvSeen = false ∧
      t.azf.cmdSeen = false ∧ t.azf.timSeen = false ∧ t.azf.pick = Option.none ∧ t.azf.tnum = Option.none ∧
      t.get R.AZF_TSTA_TVALID = 0
    (s.lock = true → u.lock = true → Answers .strike s (fun t => fresh t ∧ t.tck.due = s.tck.later ∧ t.tck.later = [] ∧
      t.cle.finished = [] ∧ t.rse.acc = [] ∧ t.rse.begun = 0 ∧ t.rse.counted = 0 ∧ t.rse.downs = 0 ∧ t.rse.reps = 0 ∧
      (s.tck.due = [] → s.tck.struck = true → u.azf.tnum = Option.none → t.tick = (s.tick + 1) % 2 ^ 48) ∧
      (∀ k, s.tck.due = [] → u.azf.tnum = some k → t.tick = k % 2 ^ 48))) ∧
    (s.lock = false → u.lock = false → (s.pwr.swPend = false → Answers .localTickInstant s (fun t => fresh t ∧ t.tick = s.tick ∧
      t.tck.due = s.tck.due ∧ t.tck.later = s.tck.later)) ∧
      (s.pwr.swPend = true → Answers .localTickInstant s (fun t => t.phase = .wiping ∧ t.get R.PWR_RSTC_CAUSE = 3))) ∧
    (s.lock = false → ∀ c ∈ [Instr.strike, .eveClose, .drainInstant], Answers c s (fun t => t = s)) ∧
    (s.lock = true → Answers .localTickInstant s (fun t => t = s)) ∧
    (s.lock = true → Answers .eveClose s (fun t => t.cle.queue = [] ∧ t.cle.run = s.cle.run ∧
      (∀ q ∈ s.cle.queue, q.ch < 32 → t.get (R.CLE_CFLG_LATE q.ch) = 1) ∧ t.tickNs = max s.tickNs s.eveNs ∧
      t.mem = s.mem ∧ t.out = s.out)) ∧
    (s.lock = true → s.pwr.swPend = false → s.fcu.restartAt = Option.none → Answers .drainInstant s (fun t =>
      t.azf.queue = [] ∧ t.azf.kept = [] ∧ t.midFrame = [] ∧ t.rse.acc = [] ∧ (∀ x ∈ t.rse.inst, x.cmd = Option.none) ∧
      t.tickNs = max s.tickNs s.drainNs ∧ t.mem = s.mem ∧ t.get R.AZF_POOLSTA_FREE = 16384)) ∧
    (s.lock = true → s.pwr.swPend = true → s.fcu.restartAt = Option.none → Answers .drainInstant s (fun t =>
      t.phase = .wiping ∧ t.get R.PWR_RSTC_CAUSE = 3 ∧ t.mem = s.mem))

/-- The Strike applies due commits, switches an announced TP, captures time, and a cell's decision, profile steps and
the mirror take effect at it. The Strike at which LOCK sets is log entry 43 (DEDUCED), the time within a TIME cycle
log entry 34 (DEDUCED), the applied mirrors of a member in START log entry 185 (DEDUCED): the model's choices. -/
def Obligations.StrikeCarriesTheTickOver : Prop :=
  ∀ s : State, s.phase = .run → s.Inv → s.lock = true →
    let u := (s.when (!s.isK) s.nodeOffset).alignTick.acqTick
    let n := s.get R.TCK_HOLD_HCNT + 1
    let lim := s.get R.TCK_HOLD_HOLDLIM
    let cs := s.cstate
    let drives : Prop := s.en 0x14 = true ∧ s.strikeMode = true ∧ s.hiz = false ∧ s.frozen = false
    let applies (code : Nat) (t : State) : Prop := t.get R.PWM_IDEC_NEXT = code ∧ t.cell.cmd = .none ∧ (drives → t.appl = code)
    let orphan (t : State) : Prop := t.cstate = 3 ∧ applies 3 t ∧ t.bit R.PWM_BYP_SRC 0 = true ∧ t.bit (R.FCU_STK_STK 0) 17 = true
    let cell : Prop := s.isK = true ∧ s.tck.due = [] ∧ s.idValid = true ∧ s.cell.trimDue = false ∧ s.cell.reversed = false ∧
      s.cell.rejoinPend = false
    let own := s.get R.RED_EPOCH_EPOCH
    let e := if 0 ≤ diffSigned 16 u.red.pEpoch own then u.red.pEpoch + 1 else own + 1
    let plus (g : Fld) (t : State) : Prop := t.get g = min (s.get g + 1) (2 ^ g.width - 1)
    let member : Prop := (s.isC = true ∨ s.isS = true) ∧ s.tck.due = [] ∧ u.redOn = true
    u.lock = true → 2 ≤ u.dsxFree → s.azf.enums = [] → Answers .strike s (fun t =>
      (let v := t.tbsAt (4 * t.tbs.rem + t.tck.frac / 2 ^ 38)
       t.get R.TBS_STRKS_SEC = secOf v ∧ t.get R.TBS_STRKN_NS = nsOf v ∧ t.get R.TBS_STRKF_SUB = subOf v ∧
       t.get R.TBS_STRKF_TICK = t.tick16) ∧
      (s.tck.due.Nodup → ∀ p, p < 64 →
        (p ∈ s.tck.due → t.get (R.SEQ p) = (s.get (R.SEQ p) + 1) % 2 ^ 32 ∧ (t.on (R.PEND p) = s.tck.later.contains p) ∧
          ∀ g ∈ [R.TBS_GAIN_GP, R.TBS_GAIN_GI, R.RED_CFG_HBN, R.RED_CFG_RVH, R.ACQ_CFG_SOFS], keyOnPage p g.key = true →
            t.get g = s.stagedOf g) ∧
        (p ∉ s.tck.due → t.get (R.SEQ p) = s.get (R.SEQ p))) ∧
      (7 ∉ s.tck.due →
        (s.tck.tpLeft = 1 → t.get R.TCK_PER_PER = s.get R.TCK_PNEW_PNEW ∧ t.get R.TCK_PNEW_PNEW = 0 ∧
          t.get R.TCK_STAT_TPCHG = 0 ∧ t.tck.tpLeft = 0) ∧
        (∀ k, s.tck.tpLeft = k + 2 → t.get R.TCK_PER_PER = s.get R.TCK_PER_PER ∧ t.tck.tpLeft = k + 1 ∧
          t.get R.TCK_STAT_TPCHG = s.get R.TCK_STAT_TPCHG) ∧
        (s.tck.tpLeft = 0 → t.get R.TCK_PER_PER = s.get R.TCK_PER_PER)) ∧
      (cell → s.cell.leavePend = false →
        (s.cell.cmd = .none → cs = 1 ∨ cs = 2 → n ≤ lim → t.cstate = 2 ∧ t.get R.TCK_HOLD_HCNT = n ∧ applies s.appl t) ∧
        (s.cell.cmd = .none → cs = 1 ∨ cs = 2 → lim < n → orphan t) ∧
        (s.cell.cmd = .repeat → cs = 1 ∨ cs = 2 → t.cstate = 1 ∧ t.get R.TCK_HOLD_HCNT = 0 ∧ applies s.appl t) ∧
        (s.cell.cmd = .down → cs ≠ 3 → s.cell.decNext ≤ 4 → t.cstate = 1 ∧ t.get R.TCK_HOLD_HCNT = 0 ∧
          (if s.bypReq = true ∨ s.bypAux = true then applies 0 t
           else applies (if s.cell.decNext = 4 then s.appl else s.cell.decNext) t ∧ t.get R.PWM_IDEC_ROW = s.cell.decRow % 16 ∧
             (s.cell.decRow = 10 → t.cell.trimDue = true)))) ∧
      (cell → s.cell.leavePend = true → cs ≠ 3 → orphan t) ∧
      (s.isK = true → s.tck.due = [] → s.cell.trimDue = false → s.cell.leavePend = false → s.cell.rejoinPend = true → cs = 3 →
        t.cstate = 0 ∧ t.get R.TCK_HOLD_HCNT = 0 ∧ applies 3 t ∧ t.bit R.PWM_BYP_SRC 0 = false) ∧
      (s.isC = true ∨ s.isS = true → s.tck.due = [] → u.mirComplete = Option.none → ∀ c, c < 16 →
        let o : PgnVal := ⟨s.getS (R.PGN_P_P c), s.getS (R.PGN_V_V c), s.getS (R.PGN_A_A c), s.on (R.PGN_PSTA_OVS c)⟩
        let tgt := s.getS (R.PGN_TGT_TGT c)
        let d := s.get (R.PGN_PCFG_DM1 c) + 1
        let shows (x : PgnVal) : Prop := t.get (R.PGN_P_P c) = ofSigned 64 x.p ∧ t.get (R.PGN_V_V c) = ofSigned 64 x.v ∧
          t.get (R.PGN_A_A c) = ofSigned 64 x.a
        (t.active = true → s.runs 0x0D = true → s.on (R.PGN_PCFG_EN c) = true →
          (t.tick + 16 - s.get (R.PGN_PCFG_PHASE c)) % d = 16 % d →
          shows (if bitOf s.cle.preset c = true then { o with p := tgt, v := 0, a := 0 } else
            pgnStep tgt (s.get (R.PGN_VMAX_VMAX c)) (s.get (R.PGN_AMAX_AMAX c)) (s.get (R.PGN_JMAX_JMAX c)) o)) ∧
        (t.active = false → shows o)) ∧
      (member → u.redSt = 2 → ∀ l, u.mirComplete = some l → t.get R.RED_PMODE_MODE = fieldBE (l.headD []) 16 4 ∧
        t.red.segs = [] ∧ t.red.complete = min 255 (u.red.complete + 1) ∧ ∀ r, l.flatMap mirRecsOf = [r] →
          (u.recBad r = true → t.bit (R.FLT 0x0B) Flt.RED_MMIS = true) ∧ (r.rtype = 3 ∨ r.rtype = 4 → r ∈ t.red.held) ∧
          (r.rtype = 1 → r.index < 32 → u.recBad r = false → t.get (R.CLE_CST_OSEQ r.index) = nth r.words 0 0 % 65536)) ∧
      (member → u.redSt = 2 ∨ u.redSt = 3 → u.mirComplete = Option.none → plus R.RED_CNT_MLOSTC t ∧
        t.bit (R.FLT 0x0B) Flt.RED_MLOST = true) ∧
      (member → u.redSt = 3 → u.refused = false → u.bit (R.FEN 0x0B) Flt.RED_MLOST = false →
        u.bit (R.FEN 0x0B) Flt.RED_MMIS = false → t.get R.RED_EPOCH_EPOCH = e % 65536 ∧
        t.get R.RED_STA_REASON = u.red.reason % 2 ^ R.RED_STA_REASON.width ∧ t.get R.RED_STA_COLD = b2n (!u.red.lossReady) ∧
        t.get R.RED_TKO_TICK = t.tick % 2 ^ 32 ∧ plus R.RED_CNT_TKOC t ∧ t.bit (R.FLT 0x0B) Flt.RED_TKO = true ∧
        (s.isS = true → t.get (R.RSE_RHO_RHO 0) = 0 ∧ t.get (R.RSE_RHO_RHO 1) = 0)))

/-- A Section begins Decide when everything expected is in, sends one command frame a ring, and at the deadline repeats
for each arm that has none. Decide at the cut-off is log entry 49, the hold of a trajectory log entry 46 (PRESUMED),
its loss once an episode log entry 111 (DEDUCED), the arm of a chain log entry 79 (PRESUMED): the model's choices. -/
def Obligations.SectionDecidesAndBroadcasts : Prop :=
  ∀ (s : State) (a : Fin 2), s.phase = .run →
    let free (t : State) : Prop := t.mem = s.mem ∧ t.flash = s.flash
    (s.isS = true → s.lock = true → bitOf s.rse.allowed a = true → bitOf s.rse.begun a = false →
      Answers (.decideBegin a) s (fun t => bitOf t.rse.begun a = true ∧ free t ∧ t.azf.hdone = t.tickNs ∧
        t.tickNs = (if s.expectsNone a then max s.tickNs 400 else if s.allIn a then s.tickNs else max s.tickNs s.cutNs) ∧
        (bitOf s.rse.counted a = false → bitOf s.rse.reps a = false → s.decideChannels a = [] → s.decideWaits a = false →
          bitOf t.rse.counted a = true))) ∧
    (s.lock = false ∨ bitOf s.rse.begun a = true ∨ bitOf s.rse.allowed a = false →
      Answers (.decideBegin a) s (fun t => t = s)) ∧
    (∀ c, s.actS = true → s.lock = true → bitOf s.rse.counted a = true → bitOf s.rse.downs a = false →
      bitOf s.rse.reps a = false → s.tickNs < s.cdlNs → (s.inst a).cmd = some c →
      Answers (.broadcast a) s (fun t => bitOf t.rse.downs a = true ∧ t.azf.cmdat = s.tickNs ∧ SameOutsidePool s t ∧
        t.tickNs = s.tickNs ∧ (t.inst a).expNext = some c.nins ∧ (t.inst a).ksel = c.ksel ∧
        (s.tickNs < s.eveNs → ∀ r ∈ s.armRings a, s.laneOk r = true → s.Free r → ∃ f, ⟨r, f⟩ ∈ t.out ∧ fRing f = r ∧
          fType f = (if c.rhold.contains r then tyRepeat else tyDown)))) ∧
    (bitOf s.rse.downs a = true ∨ bitOf s.rse.reps a = true → Answers (.broadcast a) s (fun t => t = s)) ∧
    (s.actS = true → s.lock = true → Answers .commandDeadline s (fun t => SameOutsidePool s t ∧ t.tickNs = max s.tickNs s.cdlNs ∧
      (∀ b ∈ arms, bitOf t.rse.downs b = true ∨ bitOf t.rse.reps b = true) ∧
      (∀ b ∈ arms, bitOf s.rse.downs b = false → bitOf s.rse.reps b = false → s.armRings b ≠ [] →
        nth t.tck.cons b 0 = nth s.tck.cons b 0 + 1) ∧
      ((∀ b ∈ arms, bitOf s.rse.downs b = true ∨ bitOf s.rse.reps b = true) → t.regs = s.regs ∧ t.out = s.out ∧ free t))) ∧
    (s.isS = true → s.lock = true → Answers .harvestCutoff s (fun t => t.tickNs = max s.tickNs s.cutNs ∧
      t.regs = s.regs ∧ t.rse = s.rse ∧ t.out = s.out ∧ free t)) ∧
    (∀ j, s.isS = true → s.lock = true → s.traj a = some j → s.trajHeld j = true → j.raised = false →
      Answers (.trajectoryLoss a) s (fun t => t.traj a = some { j with raised := true } ∧
        t.bit (R.FCU_STK_STK 0) 2 = true ∧ FaultsAnd [] { s with azf := t.azf } t ∧
        Answers (.trajectoryLoss a) t (fun u => u = t)))

/-- Cells launch and extend Harvest frames by one sealed slot a tick, and a Section takes each slot that passes once.
Which Harvest frame takes a slot is log entry 22 (DESIGN CHOICE), where a slot is late log entry 49, what a stored
frame takes of the pool log entry 24, a reversed cell's slot log entry 50, the tag tested log entry 73 (DEDUCED),
bytes 40 to 45 of the slot log entry 82 and the origin of a redirected cell log entry 266 (DESIGN CHOICE): the
model's choices. -/
def Obligations.HarvestCollectsSlots : Prop :=
  ∀ (s : State) (n : Fin 20) (f : Frame) (b : List Byte) (i : Nat), s.phase = .run → (∀ l, s.cell.aux = some l → l.length = 7) →
    let sent (t : State) : Prop := t.azf.slotSent = true ∧ t.mem = s.mem ∧ t.regs = s.regs ∧ ∃ g, t.out = ⟨s.harvLane, g⟩ :: s.out ∧
      g.length = 64 ∧ fType g = tyHarvest ∧ fCnt g = 1 ∧ fCrcOk g = true ∧ slotOk (slice g 12 48) s.tick16 = true ∧
      slotNode (slice g 12 48) = s.nodeId
    (s.hasSlot = true → s.laneOk s.harvLane = true → s.Free s.harvLane → s.nodeId < 16384 →
      (s.isOrigin = true → max s.tickNs 400 < s.eveNs → Answers .harvestOpen s (fun t => sent t ∧
        t.tickNs = max s.tickNs 400)) ∧
      (s.isOrigin = false → s.azf.harvSeen = false → max s.tickNs (440 + 34 * s.originDist) < s.eveNs →
        Answers .originTimeout s sent)) ∧
    (s.isOrigin = false → s.lock = true → Answers .harvestOpen s (fun t => t.out = s.out ∧ t.mem = s.mem ∧ t.regs = s.regs)) ∧
    (s.hasSlot = false ∨ s.azf.harvSeen = true → Answers .originTimeout s (fun t => t = s)) ∧
    (s.isK = true → s.azfOn = true → n.val ≤ 1 → s.laneOk n = true → s.laneOk (1 - n) = true → s.Free (1 - n) → 16 ≤ f.length →
      f.length ≤ 4096 → fKnown f = true → fType f = tyHarvest → fTick f = s.tick16 →
      (s.hasSlot = true → s.harvLane = 1 - n → s.nodeId < 16384 → Answers (.harvestFrameRelay n f) s (fun t =>
        t.azf.slotSent = true ∧ t.mem = s.mem ∧ ∃ g, t.out = ⟨1 - n, g⟩ :: s.out ∧ g.length = f.length + 48 ∧
          fCnt g = (fCnt f + 1) % 65536 ∧ fCrcOk g = fCrcOk f ∧ slotOk (slice g (f.length - 4) 48) s.tick16 = true)) ∧
      (s.azf.slotSent = true → Answers (.harvestFrameRelay n f) s (fun t => t.out = ⟨1 - n, f⟩ :: s.out ∧
        t.azf.harvSeen = true ∧ t.mem = s.mem ∧ t.regs = s.regs))) ∧
    (s.isS = true → n.val < 16 → s.Delivers n tyHarvest f → frameSlots f = [b] → s.slotPass (fRing f) b = some i →
      s.active = true → s.tickNs < s.cutNs → i ∉ s.rse.dup → s.poolUsed.length + 16 ≤ 16384 →
      let kept (t : State) : Prop := SameOutsidePool s t ∧ t.out = s.out ∧ ∃ q, t.azf.kept = s.azf.kept ++ [q] ∧ q.f = f
      (alHas s.rse.acc i = false → Answers (.harvestFrameReceive n f) s (fun t =>
        t.rse.acc = alPut s.rse.acc i (slotIn b) ∧ kept t ∧
        KeepsFieldsBut [R.AZF_POOLSTA_FREE, R.AZF_POOLSTA_MINFREE] s t)) ∧
      (alHas s.rse.acc i = true → Answers (.harvestFrameReceive n f) s (fun t => alHas t.rse.acc i = false ∧
        i ∈ t.rse.dup ∧ kept t ∧
        KeepsFieldsBut [R.AZF_RXERR_SLOT, R.AZF_POOLSTA_FREE, R.AZF_POOLSTA_MINFREE] s t))) ∧
    (s.isS = true → n.val < 16 → s.azfOn = true → s.lock = true → s.laneOk n = true → f.length ≤ 4096 → fKnown f = true →
      fType f = tyHarvest → fCrcOk f = true → fTick f ≠ s.tick16 → Answers (.harvestFrameReceive n f) s (fun t =>
        OnlyFields [R.AZF_TAGERR_STALE] s t ∧
        t.get R.AZF_TAGERR_STALE = min (s.get R.AZF_TAGERR_STALE + 1) (2 ^ R.AZF_TAGERR_STALE.width - 1))) ∧
    (s.actS = true → n.val = 16 ∨ n.val = 17 → s.Delivers n tyExtract f → fSrc f = s.partnerId → fAct f = false →
      frameExtracts f = [b] → s.cellIdx (slotNode b) = some i → i / 64 = fRing f → i ∈ s.azf.conf →
      s.tickNs < s.cutNs → i ∉ s.rse.dup → alHas s.rse.acc i = false → Answers (.keyExtractReceive n f) s (fun t =>
        t.rse.acc = alPut s.rse.acc i (extractIn b) ∧ t.mem = s.mem ∧ t.regs = s.regs)) ∧
    (s.actS = true → n.val = 16 ∨ n.val = 17 → s.Delivers n tySlotCopy f → fSrc f = s.partnerId → fAct f = false →
      frameSlots f = [b] → s.slotPass (fRing f) b = some i → alHas s.rse.copies i = false → Answers (.slotCopyReceive n f) s (fun t =>
        t.rse.copies = alPut s.rse.copies i (slotIn b) ∧ t.rse.acc = s.rse.acc ∧ t.flash = s.flash)) ∧
    (s.forwards = true → s.lock = true → s.azfOn = true → s.tickNs < s.eveNs → Answers .slotCopySend s (fun t =>
      t.rse = s.rse ∧ SameOutsidePool s t ∧ ∀ (r : Fin 16) (p : Nat), s.partnerLane r = some p → s.Free p →
        (∃ e ∈ s.rse.acc, e.1 / 64 = r.val ∧ e.2.full = true) →
        (∀ k < r.val, s.partnerLane k = some p → ∀ e ∈ s.rse.acc, e.1 / 64 = k → e.2.full = false) →
        ∃ g, ⟨p, g⟩ ∈ t.out ∧ fType g = tySlotCopy ∧ fRing g = r.val)) ∧
    (s.forwards = false → Answers .slotCopySend s (fun t => t = s))

/-- A cell decides by the rows of the decision table, takes SPLIT with every command, and Leave, Rejoin and key weights
wait for the Strike. The mailbox part's empty segment is log entry 23 (DESIGN CHOICE), the tag tested log entry 73
and the acknowledgement of a recovery cell log entry 83 (DEDUCED): the model's choices. -/
def Obligations.CellTakesItsCommands : Prop :=
  ∀ (s : State) (n : Fin 20) (f : Frame) (age stick : BitVec 16), s.phase = .run → s.isK = true →
    let key := if dKsel f = 1 then s.get R.PWM_KDIS_KEY else s.get R.PWM_KCH_KEY
    let rc : Nat × Nat :=
      if s.nodeId ∈ dHolds f then (5, 4) else if s.cstate = 0 then (6, 0) else if dLevel f = 0 then (7, 0)
      else if dLevel f < 0 ∧ s.on R.PWM_SCFG_FB = false then (8, 0)
      else if dThr f < key ∨ (key = dThr f ∧ s.nodeId ≤ dTie f) then (9, if dLevel f < 0 then 2 else 1)
      else if dTrv f = true ∧ dTrim f = s.nodeId then (10, 0) else (11, 0)
    let same (t : State) : Prop := t.mem = s.mem ∧ t.out = s.out ∧ t.tickNs = s.tickNs
    (s.Delivers n tyDown f → s.cmdOk f = true → downOk f = true → s.idValid = true → s.imgFail = false →
      dMdst f ≠ s.ringId → Answers (.downFrameReceive n f) s (fun t => same t ∧ t.cell.cmd = .down ∧
        t.cell.decRow = rc.1 ∧ t.cell.decNext = rc.2 ∧ t.cell.planToff = dToff f ∧ t.azf.cmdSeen = true ∧
        t.get R.AZF_SPLIT_SPLIT = dSplit f % 128 ∧ t.get R.AZF_SPLIT_SVALID = 1 ∧
        KeepsFieldsBut [R.AZF_SPLIT_SPLIT, R.AZF_SPLIT_SVALID, R.PWM_IDEC_ROW, R.PWM_IDEC_NEXT, R.PWM_IDEC_TRIMP] s t ∧
        (s.cstate ≠ 3 → s.cell.leavePend = false → s.bypReq = false → s.bypAux = false →
          t.get R.PWM_IDEC_ROW = rc.1 ∧ t.on R.PWM_IDEC_TRIMP = (rc.1 == 10)))) ∧
    (s.Delivers n tyRepeat f → s.cmdOk f = true → s.idValid = true → Answers (.repeatFrameReceive n f) s (fun t => same t ∧
      t.cell.cmd = .repeat ∧ t.azf.cmdSeen = true ∧ t.get R.AZF_SPLIT_SPLIT = dSplit f % 128 ∧ t.get R.PWM_IDEC_ROW = 2 ∧
      KeepsFieldsBut [R.AZF_SPLIT_SPLIT, R.AZF_SPLIT_SVALID, R.PWM_IDEC_ROW, R.PWM_IDEC_NEXT, R.PWM_IDEC_TRIMP] s t)) ∧
    (s.azf.cmdSeen = true →
      let noted (t : State) : Prop := t = { s with azf := { s.azf with copySeen := t.azf.copySeen } }
      (s.Delivers n tyDown f → Answers (.downFrameReceive n f) s noted) ∧
      (s.Delivers n tyRepeat f → Answers (.repeatFrameReceive n f) s noted)) ∧
    (∀ c, c = Instr.leaveMessage ∨ (c = .icmdLeave ∧ s.Takes 0x14) →
      (s.cstate ≠ 3 → s.imgFail = false → Answers c s (fun t => same t ∧ t.cell.leavePend = true ∧
        KeepsFieldsBut [R.PWM_IDEC_ROW, R.PWM_IDEC_NEXT, R.PWM_IDEC_TRIMP] s t ∧
        (s.cell.cmd = .down → t.get R.PWM_IDEC_ROW = 3 ∧ t.get R.PWM_IDEC_NEXT = 3))) ∧
      (s.cstate = 3 ∨ s.imgFail = true → Answers c s (fun t => t = s))) ∧
    (∀ c, c = Instr.rejoinMessage ∨ (c = .icmdRejoin ∧ s.Takes 0x14) →
      (s.cell.leavePend = true → Answers c s (fun t => same t ∧ t.cell.leavePend = false ∧
        t.cell.rejoinPend = s.cell.rejoinPend ∧
        KeepsFieldsBut [R.PWM_IDEC_ROW, R.PWM_IDEC_NEXT, R.PWM_IDEC_TRIMP] s t)) ∧
      (s.cell.leavePend = false → s.cstate = 3 → Answers c s (fun t =>
        t = { s with cell := { s.cell with rejoinPend := true } })) ∧
      (s.cell.leavePend = false → s.cstate ≠ 3 → Answers c s (fun t => t = s))) ∧
    (s.gated 0x14 = false → s.on (R.SRB 0x14) = false → s.frozenPage 0x14 = false → s.tickNs < s.eveNs →
      Answers (.weightsMessage age stick) s (fun t => same t ∧ t.stagedOf R.PWM_KWGT_AGE = age.toNat ∧
        t.stagedOf R.PWM_KWGT_STICK = stick.toNat ∧ t.get (R.PEND 0x14) = 1 ∧ 0x14 ∈ t.tck.due ∧
        t.get R.PWM_KWGT_AGE = s.get R.PWM_KWGT_AGE ∧ KeepsFieldsBut [R.PEND 0x14] s t))

/-- A free transmitter passes a frame on unchanged, a busy one lets it wait in the pool, and messages are kept, answered
and resent. Which frames the row relays is log entry 18, how a frame finds buffers log entry 71, first freshness log
entry 72, resends log entry 81, Leave log entries 94 and 269 (all DEDUCED but 269, DESIGN CHOICE), an empty message
log entry 23 (DESIGN CHOICE): the model's choices. -/
def Obligations.FramesAreRelayedAndKept : Prop :=
  ∀ (s : State) (n m : Fin 20) (f : Frame) (r : Fin 16) (d : Fin 16384) (i : Nat), s.phase = .run → s.Inv →
    (s.azfOn = true → n ≠ m → s.laneOk n = true → s.laneOk m = true → f.length ≤ 4096 →
      (fAct f = false → s.isK = false → s.forwards = false →
        (ownRelay f = true → Answers (.frameRelay n m f) s (fun t => t = s)) ∧
        (fKnown f = true → ownRelay f = false → s.Free m → Answers (.frameRelay n m f) s (fun t =>
          t.out = ⟨m, f⟩ :: s.out ∧ t.mem = s.mem ∧ t.regs = s.regs)) ∧
        (fKnown f = true → ownRelay f = false → s.busy m = true → f.length ≤ 256 → f ≠ [] →
          s.poolMay (fClass f) 0 = true → Answers (.frameRelay n m f) s (fun t => t.out = s.out ∧ ∃ b, b < 16384 ∧
            t.azf.queue = queueIn { s.entry m false false f with bufs := [b] } s.azf.queue ∧
            t.memBytes (0x44000000 + 256 * b) f.length = f ∧
            SameBytesBut (0x44000000 + 256 * b) f.length s t))) ∧
      (fKnown f = false → s.Free m → Answers (.unknownFrame n m f) s (fun t => t.out = ⟨m, f⟩ :: s.out ∧ t.mem = s.mem ∧
        KeepsFieldsBut [R.AZF_TAGERR_UNK] s t ∧
        t.get R.AZF_TAGERR_UNK = min (s.get R.AZF_TAGERR_UNK + 1) (2 ^ R.AZF_TAGERR_UNK.width - 1)))) ∧
    (s.azfOn = true → fKnown f = true → Answers (.unknownFrame n m f) s (fun t => t = s)) ∧
    (s.Delivers n tyTraj f → s.trajMine f = true → fSrc f ≠ s.partnerId → s.tickNs < s.cutNs →
      alGet (s.azf.fresh.map (fun p => (p.1, some p.2))) (fArm f) Option.none = Option.none →
      let j : Traj := ⟨fieldBE f 12 2, byteAt f 14 % 32, trajQ f, false⟩
      Answers (.trajectoryReceive n f) s (fun t => t.mem = s.mem ∧ t.regs = s.regs ∧
        (0 ≤ s.trajAge j → t.traj (fArm f) = some j) ∧ (s.trajAge j < 0 → t.traj (fArm f) = s.traj (fArm f)))) ∧
    (s.Delivers n tyReport f → s.isC = true → fAct f = true → f.length = 40 → fSrc f ≠ s.partnerId →
      alGet (s.azf.fresh.map (fun p => (p.1, some p.2))) (16 + 2 * fSrc f + fArm f) Option.none = Option.none →
      s.poolMay 0 0 = true → Answers (.reportReceive n f) s (fun t => Kept s t n 0 f ∧ t.out = s.out)) ∧
    (s.Delivers n tyMailbox f → s.isS = true ∨ s.isC = true → f.length = 22 + mLen f → 1 ≤ mLen f → mLen f ≤ 200 →
      fDst f = s.nodeId → fSrc f ≠ s.partnerId → bitOf (byteAt f 14) 7 = false → s.poolMay 2 0 = true → s.tickNs < s.eveNs →
      (isCellId (fSrc f) = true → Answers (.mailboxFrameReceive n f) s (fun t => Kept s t n 2 f ∧ t.out = s.out ∧
        alGet t.azf.acks (fSrc f) 256 = byteAt f 12)) ∧
      (isCellId (fSrc f) = false → s.Free n → Answers (.mailboxFrameReceive n f) s (fun t => Kept s t n 2 f ∧
        ∃ g, t.out = ⟨n, g⟩ :: s.out ∧ fType g = tyMailbox ∧ fDst g = fSrc f ∧ byteAt g 13 = byteAt f 12 ∧
          bitOf (byteAt g 14) 7 = true))) ∧
    (∀ g, s.actS = true → s.segOf r = some g →
      (3 ≤ g.stall → g.resends < 8 → Answers (.mailboxResend r) s (fun t => OnlyFields [R.AZF_MBX_MRETX] { s with azf := t.azf } t ∧
        t.get R.AZF_MBX_MRETX = min (s.get R.AZF_MBX_MRETX + 1) (2 ^ R.AZF_MBX_MRETX.width - 1) ∧
        { g with next := g.acked, stall := 0, resends := g.resends + 1 } ∈ t.azf.segTx)) ∧
      (g.stall < 3 → Answers (.mailboxResend r) s (fun t => t = s))) ∧
    (∀ g, s.azfOn = true → s.isK = false → s.azf.outbox.find? (fun x => x.dst == d.val && decide (4 ≤ x.age)) = some g →
      (g.resends < 8 → (s.laneOk g.lane = true → s.Free g.lane) → Answers (.mailboxFrameResend d) s (fun t => t.mem = s.mem ∧
        KeepsFieldsBut [R.AZF_MBX_MRETX] s t ∧ { g with age := 0, resends := g.resends + 1 } ∈ t.azf.outbox ∧
        (s.laneOk g.lane = true → s.mayLaunch = true → ∃ h, t.out = ⟨g.lane, h⟩ :: s.out ∧ fType h = tyMailbox))) ∧
      (8 ≤ g.resends → Answers (.mailboxFrameResend d) s (fun t => OnlyFields [R.AZF_MBX_MFAIL] { s with azf := t.azf } t ∧
        t.azf.outbox = s.azf.outbox.erase g))) ∧
    (s.actS = true → s.cellIdx d = some i → s.azf.conf.contains i = true → s.reachable i = true →
      s.get (R.RSE_LOST_LOSTLIM (armOf (i / 64))) ≠ 0 → s.get (R.RSE_LOST_LOSTLIM (armOf (i / 64))) ≤ (s.ent i).lost →
      (s.ent i).leaveSent = false → Answers (.leaveSend d) s (fun t =>
        t.azf.segTx = s.azf.segTx ++ [⟨d, (s.azf.mseq + 1) % 256, [0x41], 0, 0, 0, 0⟩] ∧ (t.ent i).leaveSent = true ∧
        OnlyFields [R.RSE_FLG_LEAVE (armOf (i / 64))] { s with azf := t.azf, rse := t.rse } t ∧
        Answers (.leaveSend d) t (fun u => u = t)))

/-- Timing frames carry the tick, gain the path delay at each relay and are chosen once, probes measure the link, and
lost alignment clears LOCK. Which tags are tested is log entry 73 (DEDUCED), the rounding of a link delay log entry
74 (DESIGN CHOICE), the offsets delivered log entry 75 (DEDUCED): the model's choices. -/
def Obligations.TimingFramesAlignTheNode : Prop :=
  ∀ (s : State) (n m : Fin 20) (f : Frame) (res turn t1 t4 : Nat) (rx : Int), s.phase = .run → s.azfOn = true →
    let quiet : Prop := s.isK = true ∨ fAct f = false ∨ fSrc f ≠ s.partnerId
    (∀ l ∈ s.timingLanes, s.laneOk l = true → max s.tickNs 100 < s.eveNs →
      (∀ k ∈ s.timingLanes, s.laneOk k = true → s.Free k) → Answers .timingFrameOrigin s (fun t =>
      t.tickNs = max s.tickNs 100 ∧ t.mem = s.mem ∧ t.regs = s.regs ∧ ∃ g, ⟨l, g⟩ ∈ t.out ∧ fType g = tyTiming ∧
        fCrcOk g = true ∧ fieldBE g 12 6 = s.tick % 2 ^ 48 ∧ tCorr g = 0 ∧ fieldBE g 28 2 = s.get R.TCK_PER_PER % 65536)) ∧
    (s.timingLanes = [] → Answers .timingFrameOrigin s (fun t => t = s)) ∧
    (s.laneOk n = true → s.laneOk m = true → s.timingPath n m = true → fKnown f = true → fType f = tyTiming →
      f.length = 52 → s.endsCopy f = false → s.Free m → Answers (.timingFrameRelay n m f res) s (fun t => t.mem = s.mem ∧
        t.regs = s.regs ∧ ∃ g, t.out = ⟨m, g⟩ :: s.out ∧ g.length = 52 ∧
          tCorr g = min (tCorr f + (s.get (R.AZF_LDLY_LD n) + res)) 0xFFFFFFFF ∧
          tCerr g = (tCerr f || decide (0xFFFFFFFF < tCorr f + (s.get (R.AZF_LDLY_LD n) + res))) ∧
          fHops g = (fHops f + 1) % 256 ∧ fCrcOk g = fCrcOk f ∧ fieldBE g 12 6 = fieldBE f 12 6)) ∧
    (s.timingOk n f = true → (s.aligned = true → fTick f = s.tick16) →
      (s.picks (s.timingPick n f rx) = true → Answers (.timingFrameReceive n f rx) s (fun t =>
        let p := s.timingPick n f rx
        t.azf.pick = some p ∧ t.azf.timSeen = true ∧ t.mem = s.mem ∧ t.out = s.out ∧
        t.on R.AZF_TSTA_TVALID = (!s.aligned || p.inBand) ∧
        (s.aligned = false ∨ p.inBand = true →
          t.get R.AZF_TSTA_TLANE = n ∧ t.get R.AZF_TSTA_DEPTH = (fHops f + 1) % 2 ^ R.AZF_TSTA_DEPTH.width ∧
          t.tck.tpLeft = byteAt f 32 ∧ t.on R.TCK_STAT_TPCHG = (byteAt f 32 != 0)) ∧
        (s.aligned = true → p.inBand = false →
          t.get R.AZF_TSTA_TLANE = s.get R.AZF_TSTA_TLANE ∧ t.get R.AZF_TSTA_DEPTH = s.get R.AZF_TSTA_DEPTH) ∧
        t.get R.TCK_PER_PER = (if s.aligned then s.get R.TCK_PER_PER
          else fieldBE f 28 2 % 16384 % 2 ^ R.TCK_PER_PER.width))) ∧
      (s.isK = true → s.azf.pick.isSome → Answers (.timingFrameReceive n f rx) s (fun t =>
        t.azf.pick = s.azf.pick ∧ t.regs = s.regs ∧ t.mem = s.mem))) ∧
    (quiet → s.timingOk n f = true → s.aligned = true → fTick f ≠ s.tick16 → Answers (.timingFrameReceive n f rx) s (fun t =>
      OnlyFields [R.AZF_TAGERR_STALE] s t)) ∧
    (s.follows = true → s.aligned = true → s.pwr.swPend = false →
      let lost (t : State) : Prop := t.get R.TCK_STAT_ALGN = 0 ∧ t.mem = s.mem ∧ t.azf.pick = Option.none ∧
        (s.isC = true → t.lock = s.lock) ∧
        (s.isC = false → t.lock = false ∧ t.bit (R.FCU_STK_STK 0) 16 = true ∧ t.cell.cmd = .none) ∧
        (s.isK = true → s.canDrive = true → s.hiz = false → t.get R.PWM_GSTA_APPL = 3)
      (s.azf.pick = Option.none → 15 ≤ s.azf.align.noBand → Answers .alignmentLost s lost) ∧
      (∀ p, s.azf.pick = some p → p.inBand = false → 2 ≤ s.azf.align.outl → Answers .alignmentLost s (fun t => lost t ∧
        t.get R.AZF_TSTA_OUTL = min (s.get R.AZF_TSTA_OUTL + 1) (2 ^ R.AZF_TSTA_OUTL.width - 1)))) ∧
    (∀ p, s.azf.pick = some p → p.inBand = true → Answers .alignmentLost s (fun t => t = s)) ∧
    (s.laneOk n = true → s.Free n → s.tick % 64 = n.val → max s.tickNs 200 < s.eveNs ∨ s.lock = false →
      Answers (.probeSend n t1) s (fun t => (t.link n).asked = some (((s.link n).pseq + 1) % 65536, t1) ∧ t.mem = s.mem ∧
        t.regs = s.regs ∧ ∃ g, t.out = ⟨n, g⟩ :: s.out ∧ fType g = tyProbe ∧ g.length = 20 ∧
          fieldBE g 12 2 = ((s.link n).pseq + 1) % 65536)) ∧
    (s.tick % 64 ≠ n.val → 8 ≤ (s.link n).svc → Answers (.probeSend n t1) s (fun t => t = s)) ∧
    (quiet → s.laneOk n = true → fKnown f = true → fType f = tyProbe → f.length = 20 → fCrcOk f = true →
      (s.lock = true → fTick f = s.tick16 ∧ s.tickNs < s.eveNs) →
      (turn ≤ 256000 → s.Free n → Answers (.probeReceive n f turn) s (fun t => t.mem = s.mem ∧ t.regs = s.regs ∧
        ∃ g, t.out = ⟨n, g⟩ :: s.out ∧ fType g = tyProbeReply ∧ fieldBE g 12 2 = fieldBE f 12 2 ∧ fieldBE g 14 4 = turn ∧
          fDst g = fSrc f ∧ fCrcOk g = true)) ∧
      (256000 < turn → Answers (.probeReceive n f turn) s (fun t => t = s))) ∧
    (quiet → s.laneOk n = true → fKnown f = true → fType f = tyProbeReply → f.length = 24 → fCrcOk f = true →
      (s.lock = true → fTick f = s.tick16) →
      ((s.link n).asked = some (fieldBE f 12 2, t1) → (s.link n).count = 0 → (s.link n).acc = [] →
        Answers (.probeReplyReceive n f t4) s (fun t => (t.link n).asked = Option.none ∧
          OnlyFields [R.AZF_LDLY_LD n] { s with azf := t.azf } t ∧ t.get (R.AZF_LDLY_LD n) =
            satUns 24 ((((t4 : Int) - t1) - fieldBE f 14 4) / 2 + 16 * s.getS (R.AZF_LDLY_ASYM n)))) ∧
      ((s.link n).asked = Option.none → Answers (.probeReplyReceive n f t4) s (fun t => t = s)))

/-- An enumeration asks, collects replies, decides at each end and assigns each cell its NodeID by its position. The
finding and its message are log entry 77, the partner's Enum and the counting of REFUSE log entry 78, tags of
consumed frames log entry 73 (all DEDUCED), refusals and reports log entry 26 (DESIGN CHOICE): the model's choices. -/
def Obligations.EnumerationNumbersTheRing : Prop :=
  ∀ (s : State) (n : Fin 20) (f : Frame) (r : Fin 16) (e : EnumRun), s.phase = .run → s.azfOn = true →
    (s.Takes 0x34 → s.isC = true ∨ s.isS = true →
      (∀ k < 16, s.enumOn k = true → s.laneOk k = true → s.Free k) → Answers .enumGo s (fun t => t.mem = s.mem ∧
      OnlyFields [R.AZF_ENUM_ROUND] { s with azf := t.azf, out := t.out, lanes := t.lanes } t ∧
      t.get R.AZF_ENUM_ROUND = (s.get R.AZF_ENUM_ROUND + 1) % 2 ^ R.AZF_ENUM_ROUND.width ∧
      (s.enumOn r = true → s.laneOk r = true → s.mayLaunch = true →
        ∃ g, ⟨r, g⟩ ∈ t.out ∧ fType g = tyEnum ∧ eRound g = t.get R.AZF_ENUM_ROUND % 65536))) ∧
    (s.isK = true → Answers .enumGo s (fun t => t = s)) ∧
    (s.Delivers n tyEnum f → f.length = 20 → s.isK = true → s.takesPart = true → n.val ≤ 1 → s.mayLaunch = true → s.laneOk (1 - n) = true →
      s.Free n → s.Free (1 - n) → Answers (.enumReceive n f) s (fun t => t.mem = s.mem ∧ t.nodeId = s.nodeId ∧
        (t.seen (eEndB f 12)).map EnumSeen.h = some (fHops f) ∧
        ∃ g h, t.out = ⟨1 - n, h⟩ :: ⟨n, g⟩ :: s.out ∧ fType g = tyEnumReply ∧ fDst g = fSrc f ∧ byteAt g 15 = fHops f ∧
          fType h = tyEnum ∧ fHops h = (fHops f + 1) % 256 ∧ fCrcOk h = true)) ∧
    (s.isK = true → n.val ≤ 1 → s.laneOk n = true → s.laneOk (1 - n) = true → s.Free (1 - n) → 16 ≤ f.length →
      f.length ≤ 4096 → fKnown f = true → fCrcOk f = false ∨ fTick f ≠ s.tick16 →
      let on' (t : State) : Prop := t.mem = s.mem ∧ t.nodeId = s.nodeId ∧ t.idValid = s.idValid ∧ ∃ h,
        t.out = ⟨1 - n, h⟩ :: s.out ∧ fType h = fType f ∧ fHops h = (fHops f + 1) % 256 ∧ fCrcOk h = fCrcOk f
      (fType f = tyEnum → Answers (.enumReceive n f) s on') ∧ (fType f = tyAssign → Answers (.assignReceive n f) s on')) ∧
    (s.Delivers n tyEnum f → f.length = 20 → s.isS = true → n.val < 16 → fRing f = n → fSrc f ≠ s.nodeId →
      fAct f = false → alGet (s.azf.enums.map (fun p => (p.1, some p.2))) n Option.none = some e →
      Answers (.enumReceive n f) s (fun t => alGet (t.azf.enums.map (fun p => (p.1, some p.2))) n Option.none =
        some { e with partner := some (fHops f) } ∧ { t with azf := s.azf } = s)) ∧
    (s.Delivers n tyEnumReply f → f.length = 28 → s.isS = true → n.val < 16 → fAct f = false → fRing f = n →
      alGet (s.azf.enums.map (fun p => (p.1, some p.2))) n Option.none = some e →
      (fieldBE f 12 2 = e.round → eEndB f 14 = s.sideB → Answers (.enumReplyReceive n f) s (fun t =>
        alGet (t.azf.enums.map (fun p => (p.1, some p.2))) n Option.none = some { e with replies := e.replies ++
          [⟨byteAt f 15, fSrc f, bitOf (byteAt f 14) 6, bitOf (byteAt f 14) 5, bitOf (byteAt f 14) 4, fieldBE f 16 8⟩] } ∧
        { t with azf := s.azf } = s)) ∧
      (fieldBE f 12 2 ≠ e.round → Answers (.enumReplyReceive n f) s (fun t => t = s))) ∧
    (s.isS = true → alGet (s.azf.enums.map (fun p => (p.1, some p.2))) r Option.none = some e → e.decided = false →
      e.finding = Option.none → s.get R.AZF_RINGSTA_RSr < 2 ^ 32 →
      (16 ≤ e.age → (s.laneOk r = true → s.Free r) → Answers (.enumFindingTimeout r) s (fun t => t.mem = s.mem ∧
        KeepsFieldsBut [R.AZF_RINGSTA_RSr] s t ∧ bitsOf (t.get R.AZF_RINGSTA_RSr) (2 * r.val) 2 =
          (if s.ringLen r < e.replies.length ∨ gapless e.replies = false then 3 else 2))) ∧
      (e.age < 16 → Answers (.enumFindingTimeout r) s (fun t => t = s))) ∧
    (∀ p, s.Delivers n tyAssign f → f.length = 28 → s.isK = true → n.val ≤ 1 → s.laneOk (1 - n) = true → s.Free (1 - n) →
      s.assignPos n f = some p → s.imgFail = false →
      let id := cellId (ePair f) (64 * fRing f + p)
      let on' (t : State) : Prop := t.mem = s.mem ∧ ∃ h, t.out = ⟨1 - n, h⟩ :: s.out ∧ fType h = tyAssign ∧
        fHops h = (fHops f + 1) % 256 ∧ fCrcOk h = true
      let still : Prop := s.bit R.PWM_BYP_SRC 4 = false ∧ s.bypWrong = false ∧ s.field.test = Option.none
      (s.idValid = false → s.otherPos f = Option.none ∨ s.otherPos f = some p → Answers (.assignReceive n f) s (fun t =>
        on' t ∧ t.nodeId = id % 2 ^ R.SYS_NODEID_ID.width ∧ t.idValid = true ∧ t.azf.ringN = eN f ∧
        t.bit R.PWM_BYP_SRC 4 = false ∧ (still → KeepsFieldsBut [R.SYS_NODEID_ID, R.SYS_NODEID_VALID] s t))) ∧
      (s.idValid = true → s.nodeId = id → Answers (.assignReceive n f) s (fun t => on' t ∧
        t.bit R.PWM_BYP_SRC 4 = false ∧ (still → KeepsFieldsBut [] s t))) ∧
      (s.idValid = true → s.nodeId ≠ id → Answers (.assignReceive n f) s (fun t => on' t ∧ t.idValid = false ∧
        t.nodeId = 0 ∧ t.azf.reports = .withdrawn :: s.azf.reports)))

/-- Events become descriptors in order, fill the lowest eligible core's slot, are taken, completed and cancelled, and
only machine mode may do so. The exception's registers are log entries 6 (PRESUMED) and 128 (DEDUCED), interrupts of
a core log entries 33 (PRESUMED) and 38 (DEDUCED): the model's choices. -/
def Obligations.DispatcherAndCores : Prop :=
  ∀ (s : State) (src : Fin 256) (num : Fin 64) (arg : BitVec 24) (c : Fin 8) (pc : BitVec 64) (d : Desc), s.phase = .run →
    let ok (n : Nat) : Prop := s.en 8 = true ∧ s.on (R.DSX_SRC_EN n) = true ∧
      Nat.land (s.get (R.DSX_SRC_CMASK n)) s.runMask ≠ 0
    let queued (n : Nat) (t : State) : Prop := ∃ e, t.dsx.queue = s.dsx.queue ++ [e] ∧ e.src = n ∧ e.tick = s.tick16 ∧
      e.arg = arg.toNat ∧ e.dom = s.get (R.DSX_SRC_DOM n) ∧ e.prio = s.get (R.DSX_SRC_PRIO n) ∧ e.id = s.dsx.nextId ∧
      OnlyFields [R.DSX_POOL_MINFREE] { s with dsx := t.dsx } t
    (dsxDefined src = true → ok src → s.dsxFree ≠ 0 → s.on (R.DSX_SRC_COAL src) = false →
      Answers (.sourceEvent src arg) s (queued src)) ∧
    (ok (0x80 + num) → s.dsxFree ≠ 0 → s.Takes 8 → Answers (.post num arg) s (queued (0x80 + num))) ∧
    (src.val ≤ 0x16 → ok src → s.on (R.DSX_SRC_COAL src) = true → s.dsx.queue = [d] → d.src = src.val →
      Answers (.sourceEvent src arg) s (fun t => t.dsx.queue = [{ d with arg := min (d.arg + 1) (2 ^ 24 - 1) }] ∧
        { t with dsx := s.dsx } = s)) ∧
    (dsxDefined src = true → s.en 8 = true → s.on (R.DSX_SRC_EN src) = false → Answers (.sourceEvent src arg) s (fun t =>
      OnlyFields [R.DSX_SRC_DROPF src] s t ∧ t.get (R.DSX_SRC_DROPF src) = 1)) ∧
    (dsxDefined src = false → Answers (.sourceEvent src arg) s (fun t => t = s)) ∧
    (s.dsx.queue = [d] → (∀ k, k < 8 → s.slotOf k = Option.none ∧ s.heldOf k = Option.none) → bitOf d.cmask c = true →
      (∀ k, k < c.val → bitOf d.cmask k = false) → Answers .slotFill s (fun t => t.slotOf c = some d ∧ t.dsx.queue = [] ∧
        (∀ k, k ≠ c.val → t.slotOf k = s.slotOf k) ∧
        { t with dsx := s.dsx, cores := s.cores, freeCtr := s.freeCtr } = s ∧
        (s.coreOn c = true → s.coreHalted c = false → (s.core c).user = true ∨ (s.core c).mie = true →
          (s.core c).meie = true → (t.core c).mcause = 0x800000000000000B#64 ∧ (t.core c).user = false ∧
          (t.core c).mie = false ∧ (t.core c).pc = vectorOf (s.core c).mtvec 11))) ∧
    (s.dsx.queue = [] → (∀ k, k < 8 → s.irq k = Option.none) → Answers .slotFill s (fun t => t = s)) ∧
    (s.coreOn c = true →
      Answers (.mdsxTake c false pc) s (fun t => t.slotOf c = Option.none ∧ (t.heldOf c).map Held.d = s.slotOf c ∧
        (t.core c).rd = BitVec.ofNat 64 (((s.slotOf c).map Desc.word).getD 0) ∧ t.dsx.queue = s.dsx.queue ∧
        t.mem = s.mem ∧ (s.slotOf c = Option.none → t.regs = s.regs)) ∧
      Answers (.mdsxDoneRead c false pc) s (fun t => { t with cores := s.cores, freeCtr := s.freeCtr } = s ∧
        (t.core c).rd = BitVec.ofNat 64 (((s.heldOf c).map (fun h => h.d.word)).getD 0)) ∧
      Answers (.mdsxDoneWrite c false pc) s (fun t => t.heldOf c = Option.none ∧
        { t with dsx := s.dsx, cores := s.cores, freeCtr := s.freeCtr } = s ∧ t.dsx.queue = s.dsx.queue ∧ t.slotOf c = s.slotOf c) ∧
      (∀ (i : Instr) (u : Bool), (u = true ∧ i ∈ [Instr.mdsxTake c true pc, .mdsxDoneRead c true pc,
          .mdsxDoneWrite c true pc]) ∨ i = .timeCsrRead c u pc →
        Answers i s (fun t => (t.core c).mcause = 2#64 ∧ (t.core c).mepc = pc ∧ (t.core c).mpp = !u ∧
          (t.core c).mpie = (s.core c).mie ∧ (t.core c).mie = false ∧ (t.core c).pc = (s.core c).mtvec &&& ~~~3#64 ∧
          (t.core c).user = false ∧ { t with cores := s.cores, freeCtr := s.freeCtr } = s ∧
          ∀ k, k ≠ c.val → t.core k = s.core k)) ∧
      Answers (.fenceI c) s (fun t => (t.core c).stale = [] ∧ { t with cores := s.cores } = s)) ∧
    (s.coreOn c = false → ∀ (u : Bool) (i : Instr), i ∈ [Instr.mdsxTake c u pc, .mdsxDoneRead c u pc, .mdsxDoneWrite c u pc,
      .fenceI c, .timeCsrRead c u pc] → Answers i s (fun t => t = s)) ∧
    (s.Takes 8 → 1 ≤ c.val → s.running c = false → s.coreGated c = false → Answers (.coreStart c) s (fun t =>
      t.running c = true ∧ t.core c = (s.core c).start (BitVec.ofNat 64 (4 * s.get R.DSX_CBOOT_ADDR)) ∧
      (t.core c).psb = (s.core c).psb ∧ (t.core c).lfsr = (s.core c).lfsr ∧
      OnlyFields [R.DSX_CRUN_RUNNING] { s with cores := t.cores } t)) ∧
    (s.running c = true → Answers (.coreStart c) s (fun t => t = s)) ∧
    (s.Takes 8 → Answers (.cancel src false) s (fun t => t.dsx.queue = s.dsx.queue.filter (fun e => e.src != src.val) ∧
      (∀ k e, t.slotOf k = some e → e.src ≠ src.val) ∧ t.dsx.held = s.dsx.held ∧
      OnlyFields [R.DSX_CANCEL_SRC, R.DSX_CNCL_CANC] { s with dsx := t.dsx } t))

/-- Timers run for their interval, the watchdog fires once, counters wrap into OV, and sampling records fill a buffer of
64. Expiry as a row is log entry 127, when a counter counts and wraps log entry 129, the dither's register log entry
130 (all DEDUCED), the counters' interrupt log entries 33 (PRESUMED) and 38 (DEDUCED): the model's choices. -/
def Obligations.TimersCountersAndSampling : Prop :=
  ∀ (s : State) (n : Fin 16) (c : Fin 8) (j : Fin 6) (v : W32) (k : BitVec 48) (r : PsbRec), s.phase = .run →
    let tmr (t : State) : Option Nat := alGet (t.dsx.timers.map (fun p => (p.1, some p.2))) n Option.none
    (s.Takes 8 → Answers (.timerConfigure n v) s (fun t =>
      OnlyFields [R.DSX_TMRCFG_EN n, R.DSX_TMRCFG_PER n, R.DSX_TMRCFG_INTV n] { s with dsx := t.dsx } t ∧
      t.get (R.DSX_TMRCFG_INTV n) = v.toNat % 2 ^ 30 ∧ t.on (R.DSX_TMRCFG_EN n) = v.getLsbD 31 ∧
      t.on (R.DSX_TMRCFG_PER n) = v.getLsbD 30 ∧
      (v.getLsbD 31 = true → tmr t = some (10 * max 1 (v.toNat % 2 ^ 30))) ∧
      (v.getLsbD 31 = false → tmr t = Option.none))) ∧
    (∀ left, tmr s = some left → Answers (.timerExpiry n) s (fun t => t.tickNs = s.tickNs + left ∧ t.mem = s.mem ∧
      tmr t = (if s.on (R.DSX_TMRCFG_PER n) then some (10 * max 1 (s.get (R.DSX_TMRCFG_INTV n))) else Option.none))) ∧
    (tmr s = Option.none → Answers (.timerExpiry n) s (fun t => t = s)) ∧
    (∀ h, s.heldOf c = some h → h.fired = false → s.get R.DSX_WDG_LIMIT ≠ 0 → Answers (.dispatchWatchdog c) s (fun t =>
      t.heldOf c = some { h with fired := true } ∧ t.bit R.DSX_WFLG_WDG c = true ∧ t.bit (R.FCU_STK_STK 0) 9 = true ∧
      t.mem = s.mem ∧ h.since + s.get R.DSX_WDG_LIMIT * 10 + 1 ≤ t.fcu.timeNs)) ∧
    (s.heldOf c = Option.none ∨ s.get R.DSX_WDG_LIMIT = 0 → Answers (.dispatchWatchdog c) s (fun t => t = s)) ∧
    (s.counts c j = true → Answers (.counterWrap c j) s (fun t => t.get (R.PMU_CNT_CNT c j) = 0 ∧
      t.bit (R.PMU_OVF_OV c) j = true ∧ (s.on (R.PMU_PCTL_FZOV c) = true → t.on (R.PMU_PCTL_FRZ c) = true) ∧
      OnlyFields [R.PMU_CNT_CNT c j, R.PMU_OVF_OV c, R.PMU_PCTL_FRZ c] { s with cores := t.cores, freeCtr := t.freeCtr } t ∧
      (s.on (R.PMU_EVSEL_OVIE c j) = true → (s.core c).user = true ∨ (s.core c).mie = true → (s.core c).povie = true →
        (s.core c).meie = false ∨ s.meip c = false → (t.core c).mcause = 0x8000000000000010#64 ∧
          (t.core c).user = false ∧ (t.core c).mie = false ∧ (t.core c).pc = vectorOf (s.core c).mtvec 16))) ∧
    (s.counts c j = false → Answers (.counterWrap c j) s (fun t => t = s)) ∧
    (s.Takes 9 → s.coreGated c = false → Answers (.counterWrite c j k) s (fun t =>
      OnlyFields [R.PMU_CNT_CNT c j] s t ∧ t.get (R.PMU_CNT_CNT c j) = k.toNat)) ∧
    (s.coreOn c = true → s.coreHalted c = false → s.en 9 = true → s.on (R.PMU_PSBCFG_EN c) = true → s.get (R.PMU_PSBCFG_CLASS c) ≤ 4 →
      ((s.core c).psb.length < 64 → Answers (.psbSample c r) s (fun t =>
        (t.core c).psb = (s.core c).psb ++ [⟨r, (s.core c).psbSeq⟩] ∧ (t.core c).psbSeq = ((s.core c).psbSeq + 1) % 65536 ∧
        OnlyFields [R.PMU_OVF_PSBTH c] { s with cores := t.cores, freeCtr := t.freeCtr } t)) ∧
      (64 ≤ (s.core c).psb.length → Answers (.psbSample c r) s (fun t => (t.core c).psb = (s.core c).psb ∧
        t.get (R.PMU_OVF_PSBFULL c) = 1 ∧
        t.get (R.PMU_PSBLOST_LOST c) = min (s.get (R.PMU_PSBLOST_LOST c) + 1) (2 ^ (R.PMU_PSBLOST_LOST c).width - 1) ∧
        OnlyFields [R.PMU_OVF_PSBFULL c, R.PMU_PSBLOST_LOST c] { s with cores := t.cores, freeCtr := t.freeCtr } t))) ∧
    (s.on (R.PMU_PSBCFG_EN c) = false → Answers (.psbSample c r) s (fun t => t = s)) ∧
    (s.coreGated c = false → Answers (.psbRead c) s (fun t => (t.core c).psb = (s.core c).psb.tail ∧ t.resp.err = false ∧
      { t with cores := s.cores, resp := s.resp } = s ∧
      (∀ e l, (s.core c).psb = e :: l → t.resp.data = BitVec.ofNat 32 (e.r.lat.toNat + e.r.flags * 2 ^ 16)))) ∧
    (s.Takes 9 → s.coreGated c = false → s.on (R.PMU_PSBCFG_EN c) = false → v.getLsbD 31 = true →
      Answers (.psbEnable c v) s (fun t => (t.core c).psb = [] ∧ (t.core c).psbSeq = 0 ∧
        (t.core c).lfsr = lfsrStep (c + 1) ∧ t.on (R.PMU_PSBCFG_EN c) = true ∧ t.get (R.PMU_PSBLOST_LOST c) = 0 ∧
        t.get (R.PMU_PSBCFG_PERIOD c) = v.toNat % 2 ^ 20 ∧ t.mem = s.mem ∧
        KeepsFieldsBut [R.PMU_PSBCFG_EN c, R.PMU_PSBCFG_IE c, R.PMU_PSBCFG_CLASS c, R.PMU_PSBCFG_DITHER c,
          R.PMU_PSBCFG_PERIOD c, R.PMU_PSBLOST_LOST c] s t))

/-- An offset is stepped, tracked by the servo or refused by its size and the state, and ACCEPT, RESUME, SNAP and the
hold timeout act in their states. The time within a TIME cycle is log entry 34 and what RESUME clears and REFC
counts log entry 155 (DEDUCED): the model's choices. -/
def Obligations.TimebaseServoAndCommands : Prop :=
  ∀ (s : State) (v : W32) (dt : Nat), s.phase = .run →
    let hi := alGet s.pendHigh R.TBS_OFSIN_OFS.word (s.get R.TBS_OFSIN_OFS / 2 ^ 32)
    let o := toSigned 64 (hi * 2 ^ 32 + v.toNat)
    let i := clampInt s.tbsFm (s.getS R.TBS_FINT_VAL - o * s.get R.TBS_GAIN_GI)
    let st := s.get R.TBS_STA_STATE
    let stepped (x : Int) (t : State) : Prop := t.tbs.units = (((s.tbs.units : Int) - x * 2 ^ 32) % (tbsModulus : Int)).toNat
    (s.Takes 6 → s.en 6 = true → s.tbsSrc = 0 →
      (st = 0 → Answers (.offsetDelivery v) s (fun t => stepped o t ∧ t.get R.TBS_STA_STATE = 2 ∧ t.mem = s.mem ∧
        t.tbs.sinceOfs = 0 ∧ KeepsFieldsBut [R.TBS_OFSIN_OFS, R.TBS_STA_STATE] s t)) ∧
      (st = 2 ∨ st = 3 → (o.natAbs : Int) ≤ s.tbsJump → Answers (.offsetDelivery v) s (fun t =>
        t.tbs.units = s.tbs.units ∧ t.get R.TBS_STA_STATE = 2 ∧ t.getS R.TBS_FINT_VAL = i ∧
        t.getS R.TBS_FADJ_VAL = clampInt s.tbsFm (i - o * s.get R.TBS_GAIN_GP) ∧ t.mem = s.mem ∧ t.tbs.sinceOfs = 0)) ∧
      (st = 2 ∨ st = 3 → s.tbsJump < (o.natAbs : Int) → s.on R.TBS_CFG_AUTOACC = false →
        Answers (.offsetDelivery v) s (fun t => t.tbs.units = s.tbs.units ∧ t.get R.TBS_STA_STATE = 4 ∧
          t.get R.TBS_CNT_REFC = min (s.get R.TBS_CNT_REFC + 1) (2 ^ R.TBS_CNT_REFC.width - 1) ∧
          toSigned 64 (t.get R.TBS_PEND_PEND) = o ∧ t.bit (R.FLT 6) Flt.TBS_JREF = true ∧ t.mem = s.mem))) ∧
    (s.Takes 6 → s.en 6 = true → s.tbsSrc ≠ 0 → Answers (.offsetDelivery v) s (fun t => t.tbs = s.tbs ∧
      KeepsFieldsBut [R.TBS_OFSIN_OFS, R.TBS_MON_MON] s t ∧ t.mem = s.mem)) ∧
    (s.Takes 6 → st = 4 →
      Answers .accept s (fun t => stepped (toSigned 64 (s.get R.TBS_PEND_PEND)) t ∧ t.get R.TBS_STA_STATE = 2 ∧
        t.get R.TBS_CNT_STEPC = min (s.get R.TBS_CNT_STEPC + 1) (2 ^ R.TBS_CNT_STEPC.width - 1) ∧
        OnlyFields [R.TBS_CNT_STEPC, R.TBS_STA_STATE] { s with tbs := t.tbs } t) ∧
      Answers .resume s (fun t => t.tbs.units = s.tbs.units ∧ t.get R.TBS_STA_STATE = 2 ∧ t.get R.TBS_PEND_PEND = 0 ∧
        OnlyFields [R.TBS_PEND_PEND, R.TBS_STA_STATE] { s with tbs := t.tbs } t)) ∧
    (s.Takes 6 → st ≠ 4 → ∀ c ∈ [Instr.accept, .resume], Answers c s (fun t => OnlyFields [R.TBS_STA_CMDREF] s t ∧
      t.get R.TBS_STA_CMDREF = 1)) ∧
    (s.Takes 6 → Answers .snap s (fun t => OnlyFields [R.TBS_SNAPS_SEC, R.TBS_SNAPN_NS, R.TBS_SNAPF_SUB] s t ∧
      t.get R.TBS_SNAPS_SEC = s.tbsNow / 2 ^ 40 / 1000000000 % 2 ^ 48 ∧
      t.get R.TBS_SNAPN_NS = s.tbsNow / 2 ^ 40 % 1000000000 ∧ t.get R.TBS_SNAPF_SUB = s.tbsNow / 2 ^ 32 % 256)) ∧
    (s.en 6 = true → st = 2 → s.tbsTimeout ≤ s.tbs.sinceOfs + dt → Answers (.holdTimeout dt) s (fun t =>
      t.get R.TBS_STA_STATE = 3 ∧ t.bit (R.FLT 6) Flt.TBS_HTMO = true ∧ t.tickNs = s.tickNs + dt ∧ t.mem = s.mem ∧
      t.getS R.TBS_FADJ_VAL = clampInt s.tbsFm (s.getS R.TBS_FINT_VAL))) ∧
    (st ≠ 2 ∨ s.en 6 = false ∨ s.tbs.sinceOfs + dt < s.tbsTimeout → Answers (.holdTimeout dt) s (fun t => t.tickNs = s.tickNs + dt ∧ t.regs = s.regs ∧
      t.mem = s.mem))

/-- A MAC queues or sends the next descriptor's frame, stamps and captures its departure, and stores what it receives;
rings and link follow their commands. The FCS polynomial is log entry 35 and frames to group addresses log entry 156
(PRESUMED), corners of the rings log entry 157 (DEDUCED): the model's choices. -/
def Obligations.EthernetFramesStampsAndRings : Prop :=
  ∀ (s : State) (m : Fin 2) (f : Frame) (fcs tx up : Bool) (v : W32) (d : EthDone)
    (dl : List EthDone), s.phase = .run → s.Inv →
    let x := s.mac m
    let i := (s.get (R.ETH_TXHD_HEAD m) + x.taken) % s.txLen m
    let a := s.txDesc m i
    let g := s.memBytes (s.memNat a 8) (s.memNat (a + 8) 2)
    let ctl := s.memNat (a + 24) 4
    let o := ctl / 2 ^ 16 % 2 ^ 12
    let u := s.txStamp m
    let cap (c : Nat) : Capture := ⟨c % 65536, secOf u, nsOf u, subOf u⟩
    let clean : Prop := s.CleanBytes a 32 ∧ s.CleanBytes (s.memNat a 8) (s.memNat (a + 8) 2)
    let due : Prop := s.runs (0x19 + m) = true ∧ i ≠ s.get (R.ETH_TXTL_TAIL m) ∧ x.taken + 1 < s.txLen m
    let takes : Prop := due ∧ clean
    let free : Prop := s.on (R.ETH_LSTA_LINK m) = true ∧ ∀ q ∈ x.timed.head?, (8 * (g.length + 4) + 160 : Nat) ≤ s.launchD q.sec q.ns
    let other (t : State) : Prop := t.mac (1 - m.val) = s.mac (1 - m.val)
    let plus (e : Fld) (t : State) : Prop := t.get e = min (s.get e + 1) (2 ^ e.width - 1)
    let ri := (s.get (R.ETH_RXHD_HEAD m) + x.rxDone.length) % s.rxLen m
    let ra := s.rxDesc m ri
    let data := f.take (s.memNat (ra + 8) 2)
    let stamp : Prop := s.on (R.ETH_TSCFG_TSALL m) = true ∨ fieldBE f 12 2 = 0x88F7
    let rst := 1 + (if fcs = true then 0 else 2)
    (takes → ctl.testBit 31 = true → Answers (.ethFrameTransmit m) s (fun t => { t with eth := s.eth } = s ∧ other t ∧
      t.mac m = { x with timed := x.timed ++ [⟨i, g, s.memNat (a + 20) 4, s.memNat (a + 16) 4, ctl, false⟩],
                         taken := x.taken + 1 })) ∧
    (due → ctl.testBit 31 = true → isDram a = true → s.CleanBytes (s.memNat a 8) (s.memNat (a + 8) 2) →
      (∀ r ∈ rowsAt a 32, s.badRow r = false) → (∃ r ∈ rowsAt a 32, s.softRow r = true) →
      Answers (.ethFrameTransmit m) s (fun t => t.bit (R.FLT 0x0A) Flt.MEMC_CE = true ∧
        s.get R.MEMC_CEC_CEC ≤ t.get R.MEMC_CEC_CEC ∧ (t.mac m).taken = x.taken + 1)) ∧
    (takes → ctl.testBit 31 = false → free →
      (ctl / 2 ^ 29 % 4 = 0 → Answers (.ethFrameTransmit m) s (fun t => { t with eth := s.eth } = s ∧ other t ∧
        t.mac m = { x with wire := withFcs g :: x.wire, txDone := x.txDone ++ [⟨i, 1⟩], taken := x.taken + 1 })) ∧
      (ctl / 2 ^ 29 % 4 = 1 → x.fifo.length < 16 → Answers (.ethFrameTransmit m) s (fun t => { t with eth := s.eth } = s ∧
        (t.mac m).wire = withFcs g :: x.wire ∧ (t.mac m).fifo = x.fifo ++ [cap ctl])) ∧
      (ctl / 2 ^ 29 % 4 = 1 → 16 ≤ x.fifo.length → Answers (.ethFrameTransmit m) s (fun t => (t.mac m).wire = withFcs g :: x.wire ∧
        (t.mac m).fifo = x.fifo ∧ plus (R.ETH_TSCNT_TXOVF m) t ∧
        OnlyFields [R.ETH_TSCNT_TXOVF m] { s with eth := t.eth } t)) ∧
      (ctl / 2 ^ 29 % 4 = 2 → ctl.testBit 28 = false → o + 10 ≤ g.length → x.fifo.length < 16 →
        Answers (.ethFrameTransmit m) s (fun t => { t with eth := s.eth } = s ∧ (t.mac m).fifo = x.fifo ++ [cap ctl] ∧
          (t.mac m).wire = withFcs (g.take o ++ bytesBE 6 (secOf u) ++ bytesBE 4 (nsOf u) ++ g.drop (o + 10)) :: x.wire)) ∧
      (ctl / 2 ^ 29 % 4 = 2 → g.length < o + 10 → x.fifo.length < 16 → Answers (.ethFrameTransmit m) s (fun t =>
        (t.mac m).wire = withFcs g :: x.wire ∧ (t.mac m).fifo = x.fifo ++ [cap ctl] ∧ plus (R.ETH_TSCNT_INSR m) t ∧
        OnlyFields [R.ETH_TSCNT_INSR m] { s with eth := t.eth } t))) ∧
    (s.runs (0x19 + m) = false ∨ i = s.get (R.ETH_TXTL_TAIL m) ∨ (clean ∧ ctl.testBit 31 = false ∧ ¬ free) →
      Answers (.ethFrameTransmit m) s (fun t => t = s)) ∧
    (s.runs (0x19 + m) = true → s.on (R.ETH_LSTA_LINK m) = true → s.ethMine m f = true →
      (ri ≠ s.get (R.ETH_RXTL_TAIL m) → x.rxDone.length + 1 < s.rxLen m →
        s.CleanBytes ra 32 → s.CleanBytes (s.memNat ra 8) data.length →
        (¬ stamp → Answers (.ethFrameReceive m f fcs) s (fun t => { t with eth := s.eth, mem := s.mem, cores := s.cores } = s ∧ other t ∧
          t.mac m = { x with rxDone := x.rxDone ++ [⟨ri, rst⟩] } ∧ t.memNat (ra + 10) 2 = data.length ∧
          (∀ b, b < s.memNat ra 8 ∨ s.memNat ra 8 + data.length ≤ b → b < ra + 10 ∨ ra + 12 ≤ b → t.memByte b = s.memByte b) ∧
          (s.memNat ra 8 + data.length ≤ ra ∨ ra + 32 ≤ s.memNat ra 8 → t.memBytes (s.memNat ra 8) data.length = data))) ∧
        (stamp → Answers (.ethFrameReceive m f fcs) s (fun t => { t with eth := s.eth, mem := s.mem, cores := s.cores } = s ∧
          t.mac m = { x with rxDone := x.rxDone ++ [⟨ri, rst + 4 + subOf (s.rxStamp m) * 2 ^ 24⟩] } ∧
          t.memNat (ra + 16) 4 = nsOf (s.rxStamp m) ∧ t.memNat (ra + 20) 4 = secOf (s.rxStamp m) % 2 ^ 32 ∧
          t.memNat (ra + 10) 2 = data.length))) ∧
      (ri = s.get (R.ETH_RXTL_TAIL m) → Answers (.ethFrameReceive m f fcs) s (fun t =>
        OnlyFields [R.ETH_LSTA_DROPR m] s t ∧ t.get (R.ETH_LSTA_DROPR m) = 1))) ∧
    (s.runs (0x19 + m) = false ∨ s.on (R.ETH_LSTA_LINK m) = false ∨ s.ethMine m f = false →
      Answers (.ethFrameReceive m f fcs) s (fun t => t = s)) ∧
    (s.Takes (0x19 + m) →
      (x.fifo = [] → Answers (.captureRead m) s (fun t => t = { s with resp := ⟨false, 0⟩ })) ∧
      (∀ c cl, x.fifo = c :: cl → Answers (.captureRead m) s (fun t => { t with eth := s.eth, resp := s.resp } = s ∧ other t ∧
        t.mac m = { x with fifo := cl } ∧ t.resp = ⟨false, BitVec.ofNat 32 (2 ^ 31 + x.fifo.length * 256 + c.sub)⟩)) ∧
      (v.toNat % 65536 < s.txLen m → Answers (.txTailWrite m v) s (fun t => OnlyFields [R.ETH_TXTL_TAIL m] s t ∧
        t.get (R.ETH_TXTL_TAIL m) = v.toNat % 65536)) ∧
      (v.toNat % 65536 < s.rxLen m → Answers (.rxTailWrite m v) s (fun t => OnlyFields [R.ETH_RXTL_TAIL m] s t ∧
        t.get (R.ETH_RXTL_TAIL m) = v.toNat % 65536)) ∧
      (∀ c, (c = Instr.txTailWrite m v ∧ s.txLen m ≤ v.toNat % 65536) ∨ (c = .rxTailWrite m v ∧ s.rxLen m ≤ v.toNat % 65536) →
        Answers c s (fun t => OnlyFields [R.WERR (0x19 + m)] s t ∧ t.get (R.WERR (0x19 + m)) = 1))) ∧
    (s.gated (0x19 + m) = true → Answers (.captureRead m) s (fun t => t = { s with resp := ⟨true, 0⟩ })) ∧
    (let done := if tx = true then x.txDone else x.rxDone
     let at_ := if tx = true then s.txDesc m d.index + 28 else s.rxDesc m d.index + 12
     let head := if tx = true then R.ETH_TXHD_HEAD m else R.ETH_RXHD_HEAD m
     let len := if tx = true then s.txLen m else s.rxLen m
     let src := (if tx = true then 0x45 else 0x44) + 2 * m.val
     (s.runs (0x19 + m) = true → done = d :: dl → s.CleanBytes at_ 4 → Answers (.descriptorCompletion m tx) s (fun t => t.memNat at_ 4 = d.status % 2 ^ 32 ∧
       SameBytesBut at_ 4 s t ∧ t.get head = (s.get head + 1) % len ∧
       (if tx = true then (t.mac m).txDone = dl else (t.mac m).rxDone = dl) ∧ other t ∧
       FaultsAnd [head] { s with eth := t.eth, mem := t.mem, cores := t.cores } t ∧
       (s.en 8 = true → s.on (R.DSX_SRC_EN src) = true → Nat.land (s.get (R.DSX_SRC_CMASK src)) s.runMask ≠ 0 →
         s.dsxFree ≠ 0 → ∃ e, t.dsx.queue = s.dsx.queue ++ [e] ∧ e.src = src ∧ e.arg = d.index % 2 ^ 24))) ∧
     (s.runs (0x19 + m) = false ∨ done = [] → Answers (.descriptorCompletion m tx) s (fun t => t = s))) ∧
    (s.gated (0x19 + m) = false → Answers (.ethLinkChange m up) s (fun t => OnlyFields [R.ETH_LSTA_LINK m] s t ∧
      t.on (R.ETH_LSTA_LINK m) = up)) ∧
    (s.gated (0x19 + m) = true → Answers (.ethLinkChange m up) s (fun t => t = s))

/-- A timed head more than 1 s early or later than LATE is dropped, one on time waits and launches, one slightly late is
sent, and a down link drops it. The instant at which a wait ends, of R287, is log entry 158 (DEDUCED), the model's
reading; the classes of R289 rest on no choice. -/
def Obligations.TimedHeadIsClassifiedAndLaunched : Prop :=
  ∀ (s : State) (m : Fin 2) (h : TimedTx) (tl : List TimedTx), s.phase = .run →
    let x := s.mac m
    let d := s.launchD h.sec h.ns
    let late : Int := ((s.get (R.ETH_TSCFG_LATE m) * 1000 : Nat) : Int)
    let up := s.on (R.ETH_LSTA_LINK m)
    let e := s.elapse (s.launchWait m h.sec h.ns)
    let left := launchLeft h.sec h.ns (e.txStamp m)
    let dl := e.launchD h.sec h.ns
    let done (st : Nat) (w : List Frame) (t : State) : Prop := (t.mac m).timed = tl ∧ (t.mac m).wire = w ∧
      (t.mac m).txDone = x.txDone ++ [⟨h.index, st⟩] ∧ t.mac (1 - m.val) = s.mac (1 - m.val) ∧ t.mem = s.mem
    let counted (e : Fld) (t : State) : Prop := t.get e = min (s.get e + 1) 65535 ∧ KeepsFieldsBut [e] s t
    let dropped (t : State) : Prop := done 3 x.wire t ∧ counted (R.ETH_TLCNT_DROP m) t
    let sentLate (t : State) : Prop := done 5 (withFcs h.f :: x.wire) t ∧ counted (R.ETH_TLCNT_LATE m) t
    (x.timed = h :: tl → s.runs (0x19 + m) = true →
      (1000000000 < d ∨ d < -late → Answers (.timedHeadArrival m) s (fun t => dropped t ∧ t.tickNs = s.tickNs)) ∧
      (0 < d → d ≤ 1000000000 → Answers (.timedHeadArrival m) s (fun t => { t with eth := s.eth } = s ∧
        t.mac (1 - m.val) = s.mac (1 - m.val) ∧ t.mac m = { x with timed := { h with atHead := true } :: tl })) ∧
      (-late ≤ d → d ≤ 0 → up = true → ctlMode h.ctl = 0 → Answers (.timedHeadArrival m) s (fun t => sentLate t ∧
        t.tickNs = s.tickNs)) ∧
      (-late ≤ d → d ≤ 0 → up = false → Answers (.timedHeadArrival m) s dropped) ∧
      (h.atHead = true →
        (0 < left → Answers (.timedLaunch m) s (fun t => t = e)) ∧
        (left ≤ 0 → -(8 * 2 ^ 40) < left ∨ 0 < dl →
          (up = true → ctlMode h.ctl = 0 → Answers (.timedLaunch m) s (fun t => done 1 (withFcs h.f :: x.wire) t ∧
            t.tickNs = e.tickNs ∧ t.regs = s.regs)) ∧
          (up = false → Answers (.timedLaunch m) s (fun t => dropped t ∧ t.tickNs = e.tickNs))) ∧
        (left ≤ -(8 * 2 ^ 40) → dl ≤ 0 →
          (up = true → -late ≤ dl → ctlMode h.ctl = 0 → Answers (.timedLaunch m) s (fun t => sentLate t ∧
            t.tickNs = e.tickNs)) ∧
          (up = false ∨ dl < -late → Answers (.timedLaunch m) s (fun t => dropped t ∧ t.tickNs = e.tickNs)))) ∧
      (h.atHead = false → Answers (.timedLaunch m) s (fun t => t = s))) ∧
    (x.timed = [] → Answers (.timedHeadArrival m) s (fun t => t = s) ∧ Answers (.timedLaunch m) s (fun t => t = s))

/-- A due sample is written whole into the history, a crossing or forced trigger starts a record in ARMED, and ARM,
STOP, FORCE and RDPTR act by the state. The encoder's rate is log entry 170, the corners of triggers, STOP, FORCE
and arming log entry 172 (DEDUCED): the model's choices. -/
def Obligations.AcquisitionSamplesAndTriggers : Prop :=
  ∀ (s : State) (v : W32) (k n : Nat) (l : List Nat), s.phase = .run → s.Inv →
    let len := s.acqChans.length
    let st := s.get R.ACQ_STA_STATE
    let at_ := max s.tickNs (s.get R.ACQ_CFG_SOFS * 10)
    let quiet : Prop := (∀ j, j < 4 → s.on (R.ACQ_MCFG_EN j) = false) ∧ s.acq.record = Option.none
    let none_ : Prop := quiet ∧ ∀ j, j < 64 → s.on (R.ACQ_TCFG_EN j) = false
    let only : Prop := quiet ∧ k < s.acqNum ∧ (∀ j, j < 64 → (s.on (R.ACQ_TCFG_EN j) = true ↔ j = k)) ∧ s.acq.armed.testBit k = true
    let room : Prop := 96 + 8 * len + 16 + 128 ≤ s.ringFree
    let b := s.chanInt n (s.get (R.CLE_OUT_U (s.get (R.ACQ_CHSRC_SEL n) % 256)))
    let a := s.chanInt n (nth l n 0)
    let lvl := s.chanInt n (s.get (R.ACQ_LVL_LVL k))
    let cross : Prop := s.get (R.ACQ_TCFG_TYPE k) = 1 ∧ s.get (R.ACQ_TCFG_CH k) = n ∧ s.chanOn n = true ∧
      s.get (R.ACQ_CHSRC_TYPE n) = 2 ∧ s.gated 0x0E = false ∧ s.acq.prev = some l ∧ a < lvl ∧ lvl ≤ b
    let started (p cb : Nat) (t : State) : Prop := t.get R.ACQ_STA_STATE = (if s.acqPost = 1 then 4 else 3) ∧
      ∃ r, t.acq.record = some r ∧ r.prim = p ∧ r.cb = cb ∧ r.t0 = s.acq.count ∧ r.pre = min s.acqPre s.acq.count ∧
        r.stop = s.acqPost ∧ r.trig = [(p, cb, 0)] ∧ r.tick = s.tick
    (s.sampleDue = true → Answers .acqSample s (fun t => t.tickNs = at_ ∧ t.acq.count = s.acq.count + 1 ∧
      t.acq.sampled = true)) ∧
    (∀ r, s.sampleDue = true → st = 4 → s.acq.marked = true → s.acq.record = some r → r.t0 + r.stop ≤ r.next →
      Answers .acqSample s (fun t =>
      ((∀ j, j < 4 → s.on (R.ACQ_MCFG_EN j) = false) → (∀ j, j < 64 → s.on (R.ACQ_TCFG_EN j) = false) →
        s.acq.forceReq = false → t.acq.record = Option.none) ∧ t.get R.ACQ_RSEQ_VAL = (s.get R.ACQ_RSEQ_VAL + 1) % 2 ^ 32)) ∧
    (s.sampleDue = true → st ≠ 4 ∨ s.acq.marked = false → Answers .acqSample s (fun t =>
      SameBytesBut (s.histAddr s.acq.count 0) (4 * len) s t ∧
      ∀ p ∈ s.acqChans.zipIdx, s.get (R.ACQ_CHSRC_TYPE p.1) = 2 → s.gated 0x0E = false →
        t.mem32 (s.histAddr s.acq.count p.2) = s.get (R.CLE_OUT_U (s.get (R.ACQ_CHSRC_SEL p.1) % 256)) % 2 ^ 32)) ∧
    (s.sampleDue = false → Answers .acqSample s (fun t => t = s)) ∧
    (s.sampleDue = true → none_ → st = 1 → s.acq.armReq = false ∨ s.acq.forceReq = false → Answers .acqSample s (fun t => t.acq.record = Option.none ∧
      t.get R.ACQ_STA_STATE = (if s.acq.armReq = true then 2 else 1) ∧ KeepsFieldsBut [R.ACQ_STA_STATE] s t)) ∧
    (s.sampleDue = true → none_ → st = 2 → s.acq.forceReq = false → Answers .acqSample s (fun t =>
      t.acq.record = Option.none ∧ t.get R.ACQ_STA_STATE = 2 ∧ KeepsFieldsBut [R.ACQ_DEAD_VAL] s t)) ∧
    (s.sampleDue = true → none_ → st = 2 → s.acq.forceReq = true → room → Answers .acqSample s (fun t =>
      started 0x40 0 t ∧ t.acq.forceReq = false ∧ KeepsFieldsBut [R.ACQ_DEAD_VAL, R.ACQ_STA_STATE] s t)) ∧
    (s.sampleDue = true → only → cross → st = 2 →
      (room → Answers .acqSample s (fun t => started k ((b - lvl) * 256 / (b - a)).toNat t ∧ t.acq.armed.testBit k = false ∧
        KeepsFieldsBut [R.ACQ_DEAD_VAL, R.ACQ_STA_STATE] s t)) ∧
      (¬ room → Answers .acqSample s (fun t => t.acq.record = Option.none ∧ t.get R.ACQ_STA_STATE = 1 ∧
        t.get R.ACQ_STA_SCAUSE = 1 ∧ t.bit (R.FLT 0x0C) Flt.ACQ_OVF = true ∧ t.bit (R.FCU_STK_STK 0) 14 = true ∧
        t.get R.ACQ_CNT_OVFC = min (s.get R.ACQ_CNT_OVFC + 1) (2 ^ R.ACQ_CNT_OVFC.width - 1)))) ∧
    (s.Takes 0x0C →
      (st = 1 → Answers .arm s (fun t => t = { s with acq := { s.acq with armReq := true } })) ∧
      (st ≠ 1 → Answers .arm s (fun t => OnlyFields [R.ACQ_STA_CMDREF] s t ∧ t.get R.ACQ_STA_CMDREF = 1)) ∧
      (st = 2 → Answers .acqStop s (fun t => t.get R.ACQ_STA_STATE = 1 ∧ t.get R.ACQ_STA_SCAUSE = 0 ∧
        OnlyFields [R.ACQ_STA_STATE, R.ACQ_STA_SCAUSE] { s with acq := { s.acq with armReq := false } } t)) ∧
      (∀ r, st = 3 → s.acq.record = some r → Answers .acqStop s (fun t => t.get R.ACQ_STA_STATE = 4 ∧
        t.acq.record = some { r with stop := s.acq.count - r.t0, flags := Nat.lor r.flags 8 } ∧ t.acq.stop = some 0 ∧
        OnlyFields [R.ACQ_STA_STATE] { s with acq := t.acq } t)) ∧
      (st = 4 → s.acq.stop = Option.none → Answers .acqStop s (fun t =>
        t = { s with acq := { s.acq with armReq := false, stop := some 0 } })) ∧
      (st = 0 ∨ st = 1 → Answers .acqStop s (fun t => t = { s with acq := { s.acq with armReq := false } })) ∧
      (st = 2 ∨ st = 3 → Answers .force s (fun t => t = { s with acq := { s.acq with forceReq := true } })) ∧
      (st ≠ 2 → st ≠ 3 → Answers .force s (fun t => t = s)) ∧
      (v.toNat % 16 = 0 → v.toNat < s.ringSize → Answers (.rdptrWrite v) s (fun t => OnlyFields [R.ACQ_RDPTR_PTR] s t ∧
        t.get R.ACQ_RDPTR_PTR = v.toNat / 16 % 2 ^ 24)) ∧
      (v.toNat % 16 ≠ 0 ∨ s.ringSize ≤ v.toNat → Answers (.rdptrWrite v) s (fun t => OnlyFields [R.ACQ_STA_CMDREF] s t ∧
        t.get R.ACQ_STA_CMDREF = 1)))

/-- The encoder's end closes a record or begins its measurement, the window reaches X memory, and results or zeros
complete the record in the ring. The encoder's rate is log entry 170, the padding before the measurement block log
entry 171 (DESIGN CHOICE), samples read before they are overwritten log entry 172, a measured channel without record
log entry 173 (DEDUCED): the model's choices. -/
def Obligations.RecordsCloseAndAreMeasured : Prop :=
  (∀ (s : State) (r : AcqRec) (q : Nat) (m : List Byte), m.length % 16 = 0 →
    let b := s.recordBody r q m
    b.length % 16 = 0 ∧ 112 ≤ b.length ∧ natLE (slice b 0 2) = 0x0A01 ∧ natLE (slice b 4 4) = b.length % 2 ^ 32 ∧
    natLE (slice b 8 4) = q % 2 ^ 32 ∧ slice b (b.length - 16) 8 = bytesLE 4 q ++ bytesLE 4 b.length ∧
    slice b (b.length - 4) 4 = bytesLE 4 (crc32c (b.take (b.length - 4))).toNat) ∧
  ∀ (s : State) (r : AcqRec), s.phase = .run → s.Inv → s.acq.record = some r →
    let st := s.get R.ACQ_STA_STATE
    let q := (s.get R.ACQ_RSEQ_VAL + 1) % 2 ^ 32
    let o := s.get R.ACQ_WRPTR_PTR * 16
    let n := s.get R.ACQ_MEAS_ENG
    let closed (r : AcqRec) (m : List Byte) (t : State) : Prop :=
      let b := s.recordBody r q m
      t.acq.record = Option.none ∧ t.acq.phase = .encode ∧ t.get R.ACQ_RSEQ_VAL = q ∧
      t.get R.ACQ_WRPTR_PTR = (o + b.length) % max 1 s.ringSize / 16 % 2 ^ 24 ∧
      (o + b.length ≤ s.ringSize → t.memBytes (s.ringBase + o) b.length = b ∧ SameBytesBut (s.ringBase + o) b.length s t) ∧
      (s.acq.stop = Option.none → s.on R.ACQ_CFG_STOPV = false ∨ r.viol = false → t.get R.ACQ_STA_STATE = 2) ∧
      (s.acq.stop = Option.none → s.on R.ACQ_CFG_STOPV = true → r.viol = true → t.get R.ACQ_STA_STATE = 1 ∧
        t.get R.ACQ_STA_SCAUSE = 2) ∧
      (∀ c, c < 4 → s.acq.stop = some c → t.get R.ACQ_STA_STATE = 1 ∧ t.get R.ACQ_STA_SCAUSE = c)
    let failed (t : State) : Prop := closed { r with flags := Nat.lor r.flags 0x40 } (zeros 64) t ∧
      t.bit (R.FLT 0x0C) Flt.ACQ_MTMO = true
    let regs : List Fld := [R.ACQ_STA_STATE, R.ACQ_STA_SCAUSE, R.ACQ_WRPTR_PTR, R.ACQ_RSEQ_VAL]
    (st = 4 → s.acq.phase = .encode → r.t0 + r.stop ≤ r.next → r.marks = [] →
      (s.acqMeas = true → Answers .encoderDone s (fun t => t = { s with acq := { s.acq with phase := .copy } })) ∧
      (s.acqMeas = false → Answers .encoderDone s (fun t => closed r [] t ∧
        FaultsAnd regs { s with acq := t.acq, mem := t.mem, cores := t.cores } t))) ∧
    (st ≠ 4 ∨ s.acq.phase ≠ .encode → Answers .encoderDone s (fun t => t = s)) ∧
    (st = 4 → s.acq.phase = .copy → s.chanOn (s.get R.ACQ_MEAS_CH) = true → s.get R.ACQ_MADR_XADDR + s.mwin ≤ 16384 →
      Answers .windowCopyDone s (fun t => t.acq.phase = .measure ∧ t.acq.meas = s.fcu.timeNs ∧ t.acq.record = some r ∧
        SameBytesBut (seAddr n 0 (s.get R.ACQ_MADR_XADDR)) (4 * min r.stop s.mwin) s t ∧
        ∀ p ∈ (r.win.take (min r.stop s.mwin)).zipIdx,
          t.seWord n false (s.get R.ACQ_MADR_XADDR + p.2) = BitVec.ofNat 32 p.1)) ∧
    (st ≠ 4 ∨ s.acq.phase ≠ .copy → Answers .windowCopyDone s (fun t => t = s)) ∧
    (st = 4 → s.acq.phase = .measure →
      (s.measRuns = false → s.acq.trapped = false → s.fcu.timeNs ≤ s.measDue → Answers .measurementDone s (fun t =>
        closed { r with flags := Nat.lor r.flags 0xC0 }
          ((List.range 16).flatMap (fun i => bytesLE 4 (s.seWord n true (s.get R.ACQ_MADR_YADDR + i)).toNat)) t ∧
        FaultsAnd regs { s with acq := t.acq, mem := t.mem, cores := t.cores } t)) ∧
      (s.measRuns = true → Answers .measurementDone s (fun t => t = s)) ∧
      (s.measRuns = false → s.acq.trapped = true ∨ s.measDue < s.fcu.timeNs → Answers .measurementDone s (fun t =>
        failed t ∧ t.fcu.timeNs = s.fcu.timeNs)) ∧
      Answers .measurementTimeout s (fun t => failed t ∧
        t.fcu.timeNs = (if s.acq.trapped = true then s.fcu.timeNs else max s.fcu.timeNs s.measDue))) ∧
    (st ≠ 4 ∨ s.acq.phase ≠ .measure → Answers .measurementDone s (fun t => t = s) ∧
      Answers .measurementTimeout s (fun t => t = s))

/-- The active member launches its mirror once a tick, a waiting one its short mirror, each takes the partner's, and
start, yield and return act by the state. START's timeout and mirrors are log entry 185, the instants of mirrors log
entry 189, yield and return log entry 191, the order of command bits log entry 40 (all DEDUCED): the model's
choices. -/
def Obligations.MirrorYieldAndTakeover : Prop :=
  ∀ (s : State) (n : Fin 20) (f : Frame), s.phase = .run → s.isC = true ∨ s.isS = true →
    let st := s.get R.RED_STA_STATE
    let at_ := if s.isC = true then max s.tickNs (10 * s.get R.RED_MOFS_OFS) else s.tickNs
    let ready := b2n s.redReady
    let e := fieldBE f 14 2
    let keep (t : State) : Prop := t.mem = s.mem ∧ t.tickNs = at_
    let free : Prop := ∀ l : Nat, l = 16 ∨ l = 17 → s.laneOk l = true → s.Free l
    let sends (t : State) (act : Bool) (b12 : Nat) (segs : Nat) : Prop := ∀ l : Nat, l = 16 ∨ l = 17 → s.laneOk l = true →
      ∃ g, ⟨l, g⟩ ∈ t.out ∧ fType g = tyMirror ∧ fAct g = act ∧ fSrc g = s.nodeId % 16384 ∧ fDst g = s.partnerId % 16384 ∧
        fTick g = s.tick16 ∧ fCrcOk g = true ∧ fCnt g = (segs - 1) % 65536 ∧ byteAt g 12 = b12 % 256 ∧
        byteAt g 13 = s.get R.RED_HB_HB % 256 ∧ fieldBE g 14 2 = s.get R.RED_EPOCH_EPOCH % 65536 ∧
        fieldBE g 16 4 = s.get R.RED_MODE_MODE % 2 ^ 32
    let partner : Prop := s.Delivers n tyMirror f ∧ (n.val = 16 ∨ n.val = 17) ∧ fSrc f = s.partnerId ∧ fDst f = s.nodeId ∧
      28 ≤ f.length
    let mayMirror : Prop := s.redOn = true ∧ st = 1 ∧ s.lock = true ∧ s.azfOn = true ∧ s.red.sent = false ∧
      (s.isC = true ∨ s.armsDone = true)
    let mayShort : Prop := s.redOn = true ∧ s.azfOn = true ∧ s.lock = true ∧ s.red.sent = false ∧ (st = 0 ∨ st = 2 ∨ st = 3)
    let starts : Prop := s.redOn = true ∧ s.lock = true ∧ st = 0 ∧ s.refused = false ∧
      (if s.primary = true then 16 else 64) ≤ s.red.startTicks
    let returns : Prop := s.redOn = true ∧ st = 2 ∧ s.primary = true ∧ s.get R.RED_CFG_RVH ≠ 0 ∧
      s.get R.RED_CFG_RVH * 1000000000 ≤ s.get R.RED_RVCNT_CNT * s.tp
    (mayMirror → at_ < s.eveNs → free → Answers .mirrorLaunch s (fun t => SameOutsidePool s t ∧ t.tickNs = at_ ∧
      t.red.sent = true ∧ t.get R.RED_MLEN_SEGS = s.mirFrames.length % 256 ∧ 1 ≤ s.mirFrames.length ∧
      sends t true (128 * b2n s.red.yieldReq + 64 * ready + 16 * b2n s.sevg + 8 * s.get R.RED_STA_COLD) s.mirFrames.length ∧
      (s.mirFrames.length = 1 → keep t ∧ t.red.yieldSent = s.red.yieldReq ∧
        KeepsFieldsBut [R.RED_MLEN_SEGS, R.RED_MLEN_BYTES] s t))) ∧
    (mayMirror → s.eveNs ≤ at_ → Answers .mirrorLaunch s (fun t => keep t ∧ t.out = s.out ∧ t.regs = s.regs ∧ t.red = s.red)) ∧
    (¬ mayMirror → Answers .mirrorLaunch s (fun t => t = s)) ∧
    (mayShort → at_ < s.eveNs → free → s.isC = true ∨ at_ ≤ s.cdlNs + 1000 → Answers .shortMirrorSend s (fun t => keep t ∧
      t.red = { s.red with sent := true } ∧ t.regs = s.regs ∧
      sends t false (64 * ready + 32 * b2n s.red.revReq + 16 * b2n s.sevg + 8 * s.get R.RED_STA_COLD) 1 ∧
      ∀ x ∈ t.out, x ∈ s.out ∨ ((x.lane = 16 ∨ x.lane = 17) ∧ x.f.length = 28))) ∧
    (mayShort → s.eveNs ≤ at_ ∨ (s.isC = false ∧ s.cdlNs + 1000 < at_) → Answers .shortMirrorSend s (fun t => keep t ∧
      t.out = s.out ∧ t.regs = s.regs ∧ t.red = s.red)) ∧
    (¬ mayShort → Answers .shortMirrorSend s (fun t => t = s)) ∧
    (partner → fAct f = true →
      (s.active = false → Answers (.mirrorReceive n f) s (fun t => t.red.mirSeen = true ∧ t.red.hbNow = some (byteAt f 13) ∧
        t.red.pEpoch = e ∧ t.red.yieldSeen = (s.red.yieldSeen || (byteAt f 12).testBit 7) ∧ t.get R.RED_STA_PPRES = 1 ∧
        (alHas s.red.segs (fCnt f / 256) = false → t.red.segs = alPut s.red.segs (fCnt f / 256) f) ∧
        (alHas s.red.segs (fCnt f / 256) = true → t.red.segs = s.red.segs) ∧
        OnlyFields [R.RED_STA_PPRES] { s with red := t.red } t)) ∧
      (s.active = true → s.red.dual = false → Answers (.mirrorReceive n f) s (fun t => t.red.dual = true ∧
        t.red.dualEpoch = some e ∧ t.red.pEpoch = e ∧ t.bit (R.FLT 0x0B) Flt.RED_DUAL = true ∧ t.mem = s.mem))) ∧
    (∀ rx, s.azfOn = true → s.laneOk n = true → fKnown f = true → fType f = tyTiming → fAct f = true → fCrcOk f = true →
      fSrc f = s.partnerId → s.active = true → s.red.dual = false → Answers (.timingFrameReceive n f rx) s (fun t =>
        t.red.dual = true ∧ t.bit (R.FLT 0x0B) Flt.RED_DUAL = true)) ∧
    (partner → fAct f = false → fieldBE f 20 2 = 0 → fCnt f = 0 → Answers (.mirrorReceive n f) s (fun t =>
      t = { s with red := { s.red with shortReady := (byteAt f 12).testBit 6, revSeen := (byteAt f 12).testBit 5 } })) ∧
    (s.Takes 0x0B → s.redOn = true → st = 1 →
      (s.on R.RED_STA_PREADY = true → Answers .yield s (fun t => t = { s with red := { s.red with yieldReq := true } })) ∧
      (s.on R.RED_STA_PREADY = false → Answers .yield s (fun t => OnlyFields [R.RED_STA_CMDREF] s t ∧
        t.get R.RED_STA_CMDREF = 1))) ∧
    (st ≠ 1 → Answers .yield s (fun t => t = s)) ∧
    (starts → Answers .startTimeout s (fun t => t.get R.RED_EPOCH_EPOCH = 1 ∧ t.get R.RED_STA_REASON = 4 ∧
      t.get R.RED_STA_COLD = 1 - ready ∧ t.get R.RED_TKO_TICK = s.tick % 2 ^ 32 ∧ t.get R.RED_RVCNT_CNT = 0 ∧
      t.get R.RED_CNT_TKOC = min (s.get R.RED_CNT_TKOC + 1) (2 ^ 16 - 1) ∧ t.bit (R.FLT 0x0B) Flt.RED_TKO = true ∧
      t.bit (R.FCU_STK_STK 0) 15 = true ∧ SameOutsidePool s t ∧
      (s.bit (R.FEN 0x0B) Flt.RED_TKO = false → s.on (R.FCU_SCFG_EN 15) = false → (∀ r ∈ s.red.held, r.rtype ≠ 4) →
        t.mem = s.mem ∧ t.get R.RED_STA_STATE = 1) ∧
      (s.isC = true → t.get R.AZF_TSTA_DEPTH = 0 ∧ t.get R.TCK_STAT_ALGN = 0) ∧
      (s.isC = false → t.rse.allowed = t.decideArms ∧ t.get (R.RSE_RHO_RHO 0) = 0 ∧ t.get (R.RSE_RHO_RHO 1) = 0))) ∧
    (¬ starts → Answers .startTimeout s (fun t => t = s)) ∧
    (returns → Answers .revertRequest s (fun t => t = { s with red := { s.red with revReq := true } })) ∧
    (¬ returns → Answers .revertRequest s (fun t => t = s))

/-- An event of a fault source sets its sticky bit, classifies by N, W and RCAP, reacts and is logged; recovery, ageing,
unlatch, log reads and scrubs act as ruled. The rows that a scrub covers are log entry 207 (DEDUCED), the model's
reading, and no part of the rules cited. -/
def Obligations.FaultSourcesClassifyAndAreLogged : Prop :=
  ∀ (s : State) (src : Fin 128) (dt : Nat) (v : W32) (addr w : Nat) (mm : ScrubMem) (er : MemErr) (pe : Bool), s.phase = .run →
    let n := src.val
    let u := s.elapse dt
    let now := (s.fcu.timeNs + dt) / 1000 % 2 ^ 48
    let x := s.fcuSrc n
    let st := s.get (R.FCU_SST_STATE n)
    let cnt := s.get (R.FCU_SCFG_NM1 n) + 1
    let react := s.get (R.FCU_SCFG_REACT n)
    let win := max 1 (s.get (R.FCU_SCFG_W n)) * 1000
    let quiet := max 1 (s.get (R.FCU_SQCFG_Q n)) * 100000
    let recs := x.recs.filter (fun r => decide (usSince now r < 86400000000))
    let sticky (k : Nat) (t : State) : Prop := t.bit (R.FCU_STK_STK (k / 32)) (k % 32) = true
    let classifies : Prop := cnt = 1 ∨ (cnt ≤ x.times.length + 1 ∧ usSince now (nth x.times (cnt - 2) 0) ≤ win)
    let latch : Prop := s.get (R.FCU_SQCFG_RCAP n) ≤ recs.length
    let i := s.get R.FCU_LOGWR_IDX
    let logged (kind rc ra now : Nat) (t : State) : Prop := alGet t.fcu.log i ⟨0, 0, 0, 0⟩ =
        ⟨now % 2 ^ 32, now / 2 ^ 32 + n * 2 ^ 16 + kind * 2 ^ 24, if s.lock = true then s.tick % 2 ^ 32 else 0, rc + ra * 16⟩ ∧
      t.get R.FCU_LOGWR_IDX = (i + 1) % 1024 ∧
      (s.get R.FCU_LOGWR_UNREAD = 1024 → t.get R.FCU_LOGWR_UNREAD = 1024 ∧
        t.get R.FCU_LOGRD_IDX = (s.get R.FCU_LOGRD_IDX + 1) % 1024 ∧ t.get R.FCU_LOST_LOST = min (s.get R.FCU_LOST_LOST + 1) 65535) ∧
      (s.get R.FCU_LOGWR_UNREAD < 1024 → t.get R.FCU_LOGWR_UNREAD = s.get R.FCU_LOGWR_UNREAD + 1)
    let logF : List Fld := [R.FCU_LOGWR_IDX, R.FCU_LOGWR_UNREAD, R.FCU_LOGRD_IDX, R.FCU_LOST_LOST]
    let plus (e : Fld) (t : State) : Prop := t.get e = min (s.get e + 1) (2 ^ e.width - 1)
    (fcuIsDefined n = false → Answers (.fcuEvent src dt) s (fun t => t = u)) ∧
    (fcuIsDefined n = true →
      (s.on (R.FCU_SCFG_EN n) = false ∨ st = 3 → Answers (.fcuEvent src dt) s (fun t => sticky n t ∧
        OnlyFields [R.FCU_STK_STK (n / 32)] u t)) ∧
      (s.on (R.FCU_SCFG_EN n) = true → st = 2 → Answers (.fcuEvent src dt) s (fun t => sticky n t ∧
        t.fcuSrc n = { x with last := now, quiet := quiet } ∧ t.fcu.log = s.fcu.log ∧
        OnlyFields [R.FCU_STK_STK (n / 32)] { u with fcu := t.fcu } t)) ∧
      (s.on (R.FCU_SCFG_EN n) = true → st ≤ 1 → ¬ classifies → Answers (.fcuEvent src dt) s (fun t => sticky n t ∧
        t.get (R.FCU_SST_STATE n) = 1 ∧ (t.fcuSrc n).times = (now :: x.times).take cnt ∧ t.fcu.log = s.fcu.log ∧
        OnlyFields [R.FCU_STK_STK (n / 32), R.FCU_SST_STATE n] { u with fcu := t.fcu } t)) ∧
      (s.on (R.FCU_SCFG_EN n) = true → st ≤ 1 → classifies → s.dsxFree ≠ 0 → Answers (.fcuEvent src dt) s (fun t =>
        sticky n t ∧ (latch → t.get (R.FCU_SST_STATE n) = 3 ∧ logged 2 recs.length react now t) ∧
        (¬ latch → t.get (R.FCU_SST_STATE n) = 2 ∧ logged 1 recs.length react now t) ∧
        t.fcuSrc n = ⟨[], recs, now, quiet⟩ ∧ FaultsAnd [] u t ∧ n ∈ t.fcu.reacted ∧
        (react = 4 → t.fcu.restartAt.isSome = true) ∧ (react = 3 → s.isK = true → s.cstate ≠ 3 → s.imgFail = false → t.cell.leavePend = true) ∧
        (react = 2 → s.isK = false → s.active = true → t.red.yieldReq = true) ∧
        (s.on (R.FCU_SCFG_GATE n) = true → s.active = false → s.isC = true ∨ s.isS = true → t.get R.RED_STA_STATE = 4) ∧
        (react = 0 → t.dsx = u.dsx) ∧
        (react ≠ 0 → s.en 8 = true → s.on (R.DSX_SRC_EN 0x40) = true →
          Nat.land (s.get (R.DSX_SRC_CMASK 0x40)) s.runMask ≠ 0 →
          ∃ e, t.dsx.queue = s.dsx.queue ++ [e] ∧ e.src = 0x40 ∧ e.arg = n)))) ∧
    (st = 2 → x.quiet ≤ usSince now x.last → Answers (.quietPeriodExpiry src dt) s (fun t =>
      t.get (R.FCU_SST_STATE n) = 1 ∧ t.get (R.FCU_SST_RCNT n) = (recs.length + 1) % 16 ∧
      t.fcuSrc n = { x with times := [], recs := now :: recs } ∧ logged 3 (recs.length + 1) 0 now t ∧
      OnlyFields (logF ++ [R.FCU_SST_STATE n, R.FCU_SST_RCNT n]) { u with fcu := t.fcu } t)) ∧
    (st ≠ 2 ∨ usSince now x.last < x.quiet → Answers (.quietPeriodExpiry src dt) s (fun t => t = u)) ∧
    Answers (.recoveryAgeing src dt) s (fun t => t.get (R.FCU_SST_RCNT n) = recs.length % 16 ∧
      t.fcuSrc n = { x with recs := recs } ∧ OnlyFields [R.FCU_SST_RCNT n] { u with fcu := t.fcu } t) ∧
    (st = 3 → Answers (.unlatch src) s (fun t => t.get R.FCU_CMD_SRC = n ∧ t.get (R.FCU_SST_STATE n) = 0 ∧
      t.get (R.FCU_SST_RCNT n) = 0 ∧ t.fcuSrc n = { x with times := [], recs := [] } ∧ logged 4 0 0 s.fcuTime t ∧
      OnlyFields (logF ++ [R.FCU_CMD_SRC, R.FCU_SST_STATE n, R.FCU_SST_RCNT n]) { s with fcu := t.fcu } t)) ∧
    (st ≠ 3 → Answers (.unlatch src) s (fun t => OnlyFields [R.FCU_CMD_SRC] s t ∧ t.get R.FCU_CMD_SRC = n)) ∧
    Answers (.logrdWrite v) s (fun t => OnlyFields [R.FCU_LOGRD_IDX, R.FCU_LOGWR_UNREAD] s t ∧
      t.get R.FCU_LOGRD_IDX = v.toNat % 1024 ∧ t.get R.FCU_LOGWR_UNREAD = (i + 1024 - v.toNat % 1024) % 1024) ∧
    (s.gated 0x0A = false → 0x800000000 ≤ addr → addr ≤ 0x9FFFFFFFF →
      (s.burstErr addr er = .none →
        Answers (.dramScrub addr er false) s (fun t => OnlyFields [R.MEMC_STA_SCRB] s t ∧ t.get R.MEMC_STA_SCRB = 1) ∧
        Answers (.dramScrub addr er true) s (fun t => OnlyFields [R.MEMC_STA_SCRB, R.MEMC_SCRB_PASS] s t ∧
          t.get R.MEMC_STA_SCRB = 0 ∧ t.get R.MEMC_SCRB_PASS = (s.get R.MEMC_SCRB_PASS + 1) % 65536)) ∧
      (s.burstErr addr er = .corrected → Answers (.dramScrub addr er pe) s (fun t => plus R.MEMC_CEC_CEC t ∧
        t.bit (R.FLT 0x0A) Flt.MEMC_CE = true ∧ sticky 0 t ∧ t.mem = s.mem ∧ t.bad = s.bad ∧
        ∀ r ∈ burstRows addr, t.softRow r = false)) ∧
      (s.burstErr addr er = .uncorrectable → Answers (.dramScrub addr er pe) s (fun t =>
        t.get R.MEMC_UEA_ADDR = addr / 64 * 64 ∧ t.bit (R.FLT 0x0A) Flt.MEMC_UE = true ∧ sticky 1 t ∧
        (er = .uncorrectable → t.badRow addr = true) ∧ (∀ r, s.badRow r = true → t.badRow r = true) ∧ t.mem = s.mem))) ∧
    (s.gated 0x0A = true ∨ addr < 0x800000000 ∨ 0x9FFFFFFFF < addr →
      Answers (.dramScrub addr er pe) s (fun t => t = s)) ∧
    (s.scrubbed mm = true →
      let a := scrubAddr mm w
      (s.eccAt a er = .none → Answers (.sramScrub mm w er) s (fun t => t = s)) ∧
      (s.eccAt a er = .corrected → Answers (.sramScrub mm w er) s (fun t => t.mem = s.mem ∧ t.bad = s.bad ∧
        t.softRow a = false ∧
        (scrubEngine mm = Option.none → sticky 0 t ∧ FaultsAnd [] { s with soft := t.soft } t) ∧
        ∀ p, scrubEngine mm = some p → plus (R.SE_ECC_CEC p.1) t ∧ t.bit (R.FLT (0x10 + p.1)) Flt.SE_CE = true)) ∧
      (s.eccAt a er = .uncorrectable → Answers (.sramScrub mm w er) s (fun t => sticky 1 t ∧ t.badRow a = true ∧
        t.mem = s.mem ∧ ∀ p, scrubEngine mm = some p → t.get (R.SE_ECC_MEM p.1) = p.2 % 4 ∧
          t.get (R.SE_ECC_ADDR p.1) = w % 2 ^ 14))) ∧
    (s.scrubbed mm = false → Answers (.sramScrub mm w er) s (fun t => t = s))

/-- Hourly and start entries are formed and programmed at the next index, temperatures enter the hour, and epochs, guard
bands and RDATA act as ruled. What an entry holds where nothing was sampled is log entry 200, waiting and failed
entries log entry 201, the guard-band step log entry 202, the hour's classes log entry 203, a full region log entry
204, RDATA outside the region log entry 205 (all DEDUCED): the model's choices. -/
def Obligations.AlmanacEntriesAndPlans : Prop :=
  ∀ (s : State) (pdc pds vstr tdie : BitVec 16), s.phase = .run → s.Inv →
    let al := s.alm
    let i := s.get R.ALM_STA_WIDX
    let lists : Prop := al.drf.length = 4 ∧ al.srf.length = 4
    let formed (kind : Nat) (t : State) (b : List Byte) : Prop := b.length = 96 ∧ almOk b = true ∧
      natLE (slice b 0 1) = kind ∧ natLE (slice b 1 1) = s.get R.SYS_STRAP_ROLE % 256 ∧
      natLE (slice b 2 2) = s.nodeId % 65536 ∧ natLE (slice b 4 4) = al.seq % 2 ^ 32 ∧
      natLE (slice b 8 4) = t.get R.ALM_POH_POH % 2 ^ 32 ∧ natLE (slice b 12 6) = secOf t.tbsNow ∧
      natLE (slice b 18 2) = (b2n (s.get R.TBS_STA_STATE == 2) + (if kind = 2 then 256 * s.get R.PWR_RSTC_CAUSE else 0)) % 65536 ∧
      slice b 34 4 = al.drf.flatMap (bytesLE 1) ∧
      (al.tcnt ≠ 0 → slice b 24 4 = bytesLE 2 (ofSigned 16 al.tmax) ++ bytesLE 2 (ofSigned 16 al.tmin)) ∧
      (al.vinx < 65536 → natLE (slice b 30 2) = al.vinx) ∧ (al.llol < 65536 → natLE (slice b 40 2) = al.llol) ∧
      (al.lcrc < 65536 → natLE (slice b 42 2) = al.lcrc) ∧ (s.field.chop = Option.none → al.swc < 2 ^ 32 → natLE (slice b 44 4) = al.swc) ∧
      (al.fsev < 65536 → natLE (slice b 80 2) = al.fsev) ∧ (al.flat < 65536 → natLE (slice b 82 2) = al.flat)
    let begun (kind : Nat) (t : State) : Prop := ∃ b, formed kind t b ∧ t.alm.prog = some b ∧ t.alm.second = false ∧
      t.alm.waiting = [] ∧ t.get R.ALM_STA_BUSY = 1
    let hour (t : State) : Prop := t.get R.ALM_POH_POH = min (s.get R.ALM_POH_POH + 1) (2 ^ 32 - 1) ∧
      t.fcu.timeNs = max s.fcu.timeNs (al.hour + 3600000000000) ∧ t.alm.hour = t.fcu.timeNs ∧ t.alm.seq = al.seq + 1 ∧
      t.alm.llol = 0 ∧ t.alm.lcrc = 0 ∧ t.alm.swc = 0 ∧ t.alm.tcnt = 0 ∧ t.alm.tsum = 0 ∧ t.alm.drf = [0, 0, 0, 0] ∧
      t.flash = s.flash ∧ t.mem = s.mem
    let plus (e : Fld) (t : State) : Prop := t.get e = min (s.get e + 1) (2 ^ e.width - 1)
    let lost (t : State) : Prop := t.bit (R.FCU_STK_STK 0) 18 = true
    (lists → al.prog = Option.none → al.waiting = [] →
      (i < almEntries →
        Answers (.hourlyEntry pdc pds vstr) s (fun t => hour t ∧ begun 1 t ∧
          KeepsFieldsBut [R.ALM_POH_POH, R.ALM_STA_BUSY] s t ∧ ∀ b, t.alm.prog = some b →
            natLE (slice b 20 2) = pdc.toNat ∧ natLE (slice b 22 2) = pds.toNat ∧ natLE (slice b 32 2) = vstr.toNat) ∧
        (al.started = false → Answers .startEntry s (fun t => begun 2 t ∧ t.alm.started = true ∧
          t.fcu.timeNs = max s.fcu.timeNs (al.rel + 1000000000) ∧ KeepsFieldsBut [R.ALM_STA_BUSY] s t ∧
          t.flash = s.flash ∧ t.mem = s.mem))) ∧
      (almEntries ≤ i → Answers (.hourlyEntry pdc pds vstr) s (fun t => hour t ∧ lost t ∧ t.alm.prog = Option.none ∧
        t.alm.waiting = []))) ∧
    (∀ p, lists → al.prog = some p → Answers (.hourlyEntry pdc pds vstr) s (fun t => hour t ∧ t.alm.prog = some p ∧
      ∃ b, formed 1 t b ∧ t.alm.waiting = al.waiting ++ [b])) ∧
    (al.started = true → Answers .startEntry s (fun t => t = s)) ∧
    (∀ b, al.prog = some b → b.length = 96 → i < almEntries →
      (al.waiting = [] → Answers (.almanacProgramDone true) s (fun t => t.flashBytes (almAddr i) 96 = b ∧
        (i % 682 = 0 → t.flashBytes (0x02000000 + 65536 * (i / 682)) 64 = almHeader (i / 682)) ∧
        (∀ a, a < almAddr i ∨ almAddr i + 96 ≤ a → (i % 682 = 0 → a < almAddr i - 64 ∨ almAddr i ≤ a) →
          Memory.read 0xFF t.flash a = Memory.read 0xFF s.flash a) ∧
        t.get R.ALM_STA_WIDX = i + 1 ∧ t.get R.ALM_STA_BUSY = 0 ∧ t.alm.prog = Option.none ∧ t.mem = s.mem ∧
        (i + 1 < almEntries → KeepsFieldsBut [R.ALM_STA_WIDX, R.ALM_STA_BUSY] s t) ∧
        (i + 1 = almEntries → t.get R.ALM_STA_FULL = 1 ∧ t.bit (R.FLT 4) Flt.ALM_FULL = true ∧ lost t))) ∧
      (∀ c, c = Instr.almanacProgramDone false → Answers c s (fun t => plus R.ALM_WCNT_WFC t ∧
        t.bit (R.FLT 4) Flt.ALM_WFAIL = true ∧ lost t ∧ t.mem = s.mem ∧
        (al.second = false → i + 1 < almEntries → t.get R.ALM_STA_WIDX = i + 1 ∧ t.alm.prog = some b ∧ t.alm.second = true ∧
          t.get R.ALM_STA_BUSY = s.get R.ALM_STA_BUSY) ∧
        (al.second = true → al.waiting = [] → t.get R.ALM_STA_WIDX = i + 1 ∧ t.alm.prog = Option.none ∧
          t.get R.ALM_STA_BUSY = 0)))) ∧
    (al.prog = Option.none → ∀ ok, Answers (.almanacProgramDone ok) s (fun t => t = s)) ∧
    (let x := toSigned 16 tdie.toNat
     Answers (.temperatureSample tdie) s (fun t => t.get R.ALM_TDIE_TDIE = tdie.toNat ∧ t.alm.tcnt = al.tcnt + 1 ∧
       t.alm.tsum = al.tsum + x ∧ t.alm.tmax = (if al.tcnt = 0 then x else max al.tmax x) ∧
       t.alm.tmin = (if al.tcnt = 0 then x else min al.tmin x) ∧ OnlyFields [R.ALM_TDIE_TDIE] { s with alm := t.alm } t ∧
       (al.dTurn = [] → t.alm.dTurn = [x] ∧ t.alm.drf = al.drf) ∧
       (s.isK = false → t.alm.srf = al.srf) ∧
       (∀ p q r k, al.dTurn = [p, q, r] → q < p → x < p → p - q ≤ p - x → (p - q).natAbs ≤ (q - r).natAbs →
         rainClass (p - q).natAbs = some k →
         t.alm.dTurn = [x, r] ∧ t.alm.drf = setNth al.drf k (min 255 (nth al.drf k 0 + 1)) 0))) ∧
    Answers .epOpen s (fun t => OnlyFields [R.ALM_STA_EPOCH] s t ∧ t.get R.ALM_STA_EPOCH = 1) ∧
    Answers .epClose s (fun t => OnlyFields [R.ALM_STA_EPOCH] s t ∧ t.get R.ALM_STA_EPOCH = 0) ∧
    Answers .guardBandStep s (fun t => OnlyFields [R.ALM_GB_GBC, R.ALM_GB_GBS] s t ∧
      ∀ p ∈ [(R.ALM_GB_GBC, R.ALM_PLAN_GBC), (R.ALM_GB_GBS, R.ALM_PLAN_GBS)],
        (s.get p.1 < s.get p.2 → t.get p.1 = (s.get p.1 + 1) % 256) ∧ (s.get p.2 < s.get p.1 → t.get p.1 = (s.get p.1 - 1) % 256) ∧
        (s.get p.1 = s.get p.2 → t.get p.1 = s.get p.1 % 256)) ∧
    (let w := s.get R.ALM_RIDX_WORD
     let e := s.get R.ALM_RIDX_ENTRY
     Answers .rdataRead s (fun t => t.resp.err = false ∧ t.get R.ALM_RIDX_WORD = (if w = 23 then 0 else w + 1) % 32 ∧
       KeepsFieldsBut [R.ALM_RIDX_WORD] s t ∧ t.flash = s.flash ∧ t.mem = s.mem ∧
       (w ≤ 23 → e < almEntries → t.resp.data = BitVec.ofNat 32 (natLE (s.flashBytes (almAddr e + 4 * w) 4)))))

/-- Every step that answers a next state keeps memory and flash in their one canonical form, and no register field
staged twice. -/
def Obligations.EveryStepKeepsTheInvariant : Prop :=
  ∀ s t : State, s.Inv → step s = .next t → t.Inv

/-- Every step keeps the safety outputs following their functions, off without supply, and the gates in high impedance
at 0. -/
def Obligations.EveryStepKeepsTheDriveSound : Prop :=
  ∀ s t : State, s.DriveSound → step s = .next t → t.DriveSound

/-- Every step keeps at most 4,096 descriptors, return stacks of at most 8, seven latched words of a slot, and register
values in their widths. -/
def Obligations.EveryStepStaysWithinItsStores : Prop :=
  ∀ s t : State, s.Bounded → step s = .next t → t.Bounded
end

