-- ==== Sys2Proof/Laws/Crc.lean ====
section
/-! SUPPORT. Byte order read back, and the CRC-32C of a sealed frame. -/

namespace Sys2Proof.Machine

/-- Bytes most significant first hold their number, cut to their width. -/
theorem natBE_append (l : List Byte) (b : Byte) : natBE (l ++ [b]) = natBE l * 256 + b.toNat := by
  simp [natBE]

@[simp] theorem bytesBE_length (n v : Nat) : (bytesBE n v).length = n := by
  induction n with
  | zero => rfl
  | succ n ih => simp [bytesBE, ih]

@[simp] theorem bytesLE_length (n v : Nat) : (bytesLE n v).length = n := by
  induction n generalizing v with
  | zero => rfl
  | succ n ih => simp [bytesLE, ih]

/-- The accumulator of the bytes read so far moves up by their number. -/
theorem natBE_foldl (l : List Byte) (a : Nat) :
    l.foldl (fun a b => a * 256 + b.toNat) a = a * 256 ^ l.length + natBE l := by
  induction l generalizing a with
  | nil => simp [natBE]
  | cons b t ih =>
    simp only [List.foldl_cons, List.length_cons, natBE]
    rw [ih, ih (0 * 256 + b.toNat), Nat.pow_succ']
    rw [Nat.add_mul, Nat.zero_mul, Nat.zero_add, Nat.mul_assoc, Nat.add_assoc]

theorem natBE_cons (b : Byte) (t : List Byte) : natBE (b :: t) = b.toNat * 256 ^ t.length + natBE t := by
  have := natBE_foldl t (0 * 256 + b.toNat)
  simpa [natBE] using this

theorem natBE_bytesBE (n v : Nat) : natBE (bytesBE n v) = v % 256 ^ n := by
  induction n with
  | zero => simp [bytesBE, natBE, Nat.mod_one]
  | succ n ih =>
    have e : (2 : Nat) ^ (8 * n) = 256 ^ n := by rw [Nat.pow_mul]
    have h : v % 256 ^ (n + 1) = v % 256 ^ n + 256 ^ n * (v / 256 ^ n % 256) := Nat.mod_mul
    rw [bytesBE, natBE_cons, ih, bytesBE_length, BitVec.toNat_ofNat, h, e, Nat.mul_comm (256 ^ n), Nat.add_comm]

/-- A sealed frame of at least a header passes its CRC-32C (R87). -/
theorem fCrcOk_sealCrc (b : List Byte) (h : 12 ≤ b.length) : fCrcOk (sealCrc b) = true := by
  have hl : (sealCrc b).length = b.length + 4 := by simp [sealCrc]
  have ht : (sealCrc b).take b.length = b := by simp [sealCrc]
  have hs : slice (sealCrc b) b.length 4 = bytesBE 4 (crc32c b).toNat := by
    simp only [slice, sealCrc, List.drop_left]
    exact List.take_of_length_le (by simp)
  simp only [fCrcOk, hl, Nat.add_sub_cancel, ht, fieldBE, hs, natBE_bytesBE, Bool.and_eq_true, decide_eq_true_eq,
    beq_iff_eq]
  refine ⟨by omega, Nat.mod_eq_of_lt ?_⟩
  exact (crc32c b).isLt

/-- A frame launched with its header passes its CRC-32C. -/
theorem fCrcOk_mkFrame (h : Hdr) (t : Nat) (body : List Byte) : fCrcOk (mkFrame h t body) = true := by
  apply fCrcOk_sealCrc
  simp only [List.length_append, bytesBE_length]
  omega

end Sys2Proof.Machine
end

