-- ==== Sys2Proof/Laws/State.lean ====
section
/-! SUPPORT. For each primitive update of State, one lemma for each field it leaves alone, and what a register field
reads after it. -/

namespace Sys2Proof.Machine

/-! ### put -/

@[simp] theorem State.put_phase (s : State) (f : Fld) (v : Nat) : (s.put f v).phase = s.phase := rfl
@[simp] theorem State.put_staged (s : State) (f : Fld) (v : Nat) : (s.put f v).staged = s.staged := rfl
@[simp] theorem State.put_shadow (s : State) (f : Fld) (v : Nat) : (s.put f v).shadow = s.shadow := rfl
@[simp] theorem State.put_pendHigh (s : State) (f : Fld) (v : Nat) : (s.put f v).pendHigh = s.pendHigh := rfl
@[simp] theorem State.put_resp (s : State) (f : Fld) (v : Nat) : (s.put f v).resp = s.resp := rfl
@[simp] theorem State.put_mem (s : State) (f : Fld) (v : Nat) : (s.put f v).mem = s.mem := rfl
@[simp] theorem State.put_flash (s : State) (f : Fld) (v : Nat) : (s.put f v).flash = s.flash := rfl
@[simp] theorem State.put_pwr (s : State) (f : Fld) (v : Nat) : (s.put f v).pwr = s.pwr := rfl
@[simp] theorem State.put_tickNs (s : State) (f : Fld) (v : Nat) : (s.put f v).tickNs = s.tickNs := rfl
@[simp] theorem State.put_fcu (s : State) (f : Fld) (v : Nat) : (s.put f v).fcu = s.fcu := rfl
@[simp] theorem State.put_dsx (s : State) (f : Fld) (v : Nat) : (s.put f v).dsx = s.dsx := rfl
@[simp] theorem State.put_cores (s : State) (f : Fld) (v : Nat) : (s.put f v).cores = s.cores := rfl
@[simp] theorem State.put_out (s : State) (f : Fld) (v : Nat) : (s.put f v).out = s.out := rfl
@[simp] theorem State.put_tck (s : State) (f : Fld) (v : Nat) : (s.put f v).tck = s.tck := rfl
@[simp] theorem State.put_lanes (s : State) (f : Fld) (v : Nat) : (s.put f v).lanes = s.lanes := rfl
@[simp] theorem State.put_azf (s : State) (f : Fld) (v : Nat) : (s.put f v).azf = s.azf := rfl
@[simp] theorem State.put_cell (s : State) (f : Fld) (v : Nat) : (s.put f v).cell = s.cell := rfl
@[simp] theorem State.put_rse (s : State) (f : Fld) (v : Nat) : (s.put f v).rse = s.rse := rfl
@[simp] theorem State.put_cle (s : State) (f : Fld) (v : Nat) : (s.put f v).cle = s.cle := rfl
@[simp] theorem State.put_se (s : State) (f : Fld) (v : Nat) : (s.put f v).se = s.se := rfl
@[simp] theorem State.put_bad (s : State) (f : Fld) (v : Nat) : (s.put f v).bad = s.bad := rfl
@[simp] theorem State.put_soft (s : State) (f : Fld) (v : Nat) : (s.put f v).soft = s.soft := rfl
@[simp] theorem State.put_pwm (s : State) (f : Fld) (v : Nat) : (s.put f v).pwm = s.pwm := rfl
@[simp] theorem State.put_adc (s : State) (f : Fld) (v : Nat) : (s.put f v).adc = s.adc := rfl
@[simp] theorem State.put_tbs (s : State) (f : Fld) (v : Nat) : (s.put f v).tbs = s.tbs := rfl
@[simp] theorem State.put_eth (s : State) (f : Fld) (v : Nat) : (s.put f v).eth = s.eth := rfl
@[simp] theorem State.put_acq (s : State) (f : Fld) (v : Nat) : (s.put f v).acq = s.acq := rfl
@[simp] theorem State.put_red (s : State) (f : Fld) (v : Nat) : (s.put f v).red = s.red := rfl
@[simp] theorem State.put_alm (s : State) (f : Fld) (v : Nat) : (s.put f v).alm = s.alm := rfl
@[simp] theorem State.put_field (s : State) (f : Fld) (v : Nat) : (s.put f v).field = s.field := rfl
@[simp] theorem State.put_safAt (s : State) (f : Fld) (v : Nat) : (s.put f v).safAt = s.safAt := rfl
@[simp] theorem State.put_sec (s : State) (f : Fld) (v : Nat) : (s.put f v).sec = s.sec := rfl
@[simp] theorem State.put_store (s : State) (f : Fld) (v : Nat) : (s.put f v).store = s.store := rfl
@[simp] theorem State.put_freeCtr (s : State) (f : Fld) (v : Nat) : (s.put f v).freeCtr = s.freeCtr := rfl
@[simp] theorem State.put_pending (s : State) (f : Fld) (v : Nat) : (s.put f v).pending = s.pending := rfl

/-! ### stage -/

@[simp] theorem State.stage_phase (s : State) (f : Fld) (v : Nat) : (s.stage f v).phase = s.phase := rfl
@[simp] theorem State.stage_regs (s : State) (f : Fld) (v : Nat) : (s.stage f v).regs = s.regs := rfl
@[simp] theorem State.stage_shadow (s : State) (f : Fld) (v : Nat) : (s.stage f v).shadow = s.shadow := rfl
@[simp] theorem State.stage_pendHigh (s : State) (f : Fld) (v : Nat) : (s.stage f v).pendHigh = s.pendHigh := rfl
@[simp] theorem State.stage_resp (s : State) (f : Fld) (v : Nat) : (s.stage f v).resp = s.resp := rfl
@[simp] theorem State.stage_mem (s : State) (f : Fld) (v : Nat) : (s.stage f v).mem = s.mem := rfl
@[simp] theorem State.stage_flash (s : State) (f : Fld) (v : Nat) : (s.stage f v).flash = s.flash := rfl
@[simp] theorem State.stage_pwr (s : State) (f : Fld) (v : Nat) : (s.stage f v).pwr = s.pwr := rfl
@[simp] theorem State.stage_tickNs (s : State) (f : Fld) (v : Nat) : (s.stage f v).tickNs = s.tickNs := rfl
@[simp] theorem State.stage_fcu (s : State) (f : Fld) (v : Nat) : (s.stage f v).fcu = s.fcu := rfl
@[simp] theorem State.stage_dsx (s : State) (f : Fld) (v : Nat) : (s.stage f v).dsx = s.dsx := rfl
@[simp] theorem State.stage_cores (s : State) (f : Fld) (v : Nat) : (s.stage f v).cores = s.cores := rfl
@[simp] theorem State.stage_out (s : State) (f : Fld) (v : Nat) : (s.stage f v).out = s.out := rfl
@[simp] theorem State.stage_tck (s : State) (f : Fld) (v : Nat) : (s.stage f v).tck = s.tck := rfl
@[simp] theorem State.stage_lanes (s : State) (f : Fld) (v : Nat) : (s.stage f v).lanes = s.lanes := rfl
@[simp] theorem State.stage_azf (s : State) (f : Fld) (v : Nat) : (s.stage f v).azf = s.azf := rfl
@[simp] theorem State.stage_cell (s : State) (f : Fld) (v : Nat) : (s.stage f v).cell = s.cell := rfl
@[simp] theorem State.stage_rse (s : State) (f : Fld) (v : Nat) : (s.stage f v).rse = s.rse := rfl
@[simp] theorem State.stage_cle (s : State) (f : Fld) (v : Nat) : (s.stage f v).cle = s.cle := rfl
@[simp] theorem State.stage_se (s : State) (f : Fld) (v : Nat) : (s.stage f v).se = s.se := rfl
@[simp] theorem State.stage_bad (s : State) (f : Fld) (v : Nat) : (s.stage f v).bad = s.bad := rfl
@[simp] theorem State.stage_soft (s : State) (f : Fld) (v : Nat) : (s.stage f v).soft = s.soft := rfl
@[simp] theorem State.stage_pwm (s : State) (f : Fld) (v : Nat) : (s.stage f v).pwm = s.pwm := rfl
@[simp] theorem State.stage_adc (s : State) (f : Fld) (v : Nat) : (s.stage f v).adc = s.adc := rfl
@[simp] theorem State.stage_tbs (s : State) (f : Fld) (v : Nat) : (s.stage f v).tbs = s.tbs := rfl
@[simp] theorem State.stage_eth (s : State) (f : Fld) (v : Nat) : (s.stage f v).eth = s.eth := rfl
@[simp] theorem State.stage_acq (s : State) (f : Fld) (v : Nat) : (s.stage f v).acq = s.acq := rfl
@[simp] theorem State.stage_red (s : State) (f : Fld) (v : Nat) : (s.stage f v).red = s.red := rfl
@[simp] theorem State.stage_alm (s : State) (f : Fld) (v : Nat) : (s.stage f v).alm = s.alm := rfl
@[simp] theorem State.stage_field (s : State) (f : Fld) (v : Nat) : (s.stage f v).field = s.field := rfl
@[simp] theorem State.stage_safAt (s : State) (f : Fld) (v : Nat) : (s.stage f v).safAt = s.safAt := rfl
@[simp] theorem State.stage_sec (s : State) (f : Fld) (v : Nat) : (s.stage f v).sec = s.sec := rfl
@[simp] theorem State.stage_store (s : State) (f : Fld) (v : Nat) : (s.stage f v).store = s.store := rfl
@[simp] theorem State.stage_freeCtr (s : State) (f : Fld) (v : Nat) : (s.stage f v).freeCtr = s.freeCtr := rfl
@[simp] theorem State.stage_pending (s : State) (f : Fld) (v : Nat) : (s.stage f v).pending = s.pending := rfl
@[simp] theorem State.stage_get (s : State) (f : Fld) (v : Nat) (g : Fld) : (s.stage f v).get g = s.get g := rfl
@[simp] theorem State.stage_on (s : State) (f : Fld) (v : Nat) (g : Fld) : (s.stage f v).on g = s.on g := rfl

/-! ### setMem32 -/

@[simp] theorem State.setMem32_phase (s : State) (a v : Nat) : (s.setMem32 a v).phase = s.phase := rfl
@[simp] theorem State.setMem32_regs (s : State) (a v : Nat) : (s.setMem32 a v).regs = s.regs := rfl
@[simp] theorem State.setMem32_staged (s : State) (a v : Nat) : (s.setMem32 a v).staged = s.staged := rfl
@[simp] theorem State.setMem32_shadow (s : State) (a v : Nat) : (s.setMem32 a v).shadow = s.shadow := rfl
@[simp] theorem State.setMem32_pendHigh (s : State) (a v : Nat) : (s.setMem32 a v).pendHigh = s.pendHigh := rfl
@[simp] theorem State.setMem32_resp (s : State) (a v : Nat) : (s.setMem32 a v).resp = s.resp := rfl
@[simp] theorem State.setMem32_flash (s : State) (a v : Nat) : (s.setMem32 a v).flash = s.flash := rfl
@[simp] theorem State.setMem32_pwr (s : State) (a v : Nat) : (s.setMem32 a v).pwr = s.pwr := rfl
@[simp] theorem State.setMem32_tickNs (s : State) (a v : Nat) : (s.setMem32 a v).tickNs = s.tickNs := rfl
@[simp] theorem State.setMem32_fcu (s : State) (a v : Nat) : (s.setMem32 a v).fcu = s.fcu := rfl
@[simp] theorem State.setMem32_dsx (s : State) (a v : Nat) : (s.setMem32 a v).dsx = s.dsx := rfl
@[simp] theorem State.setMem32_cores (s : State) (a v : Nat) : (s.setMem32 a v).cores = s.cores := rfl
@[simp] theorem State.setMem32_out (s : State) (a v : Nat) : (s.setMem32 a v).out = s.out := rfl
@[simp] theorem State.setMem32_tck (s : State) (a v : Nat) : (s.setMem32 a v).tck = s.tck := rfl
@[simp] theorem State.setMem32_lanes (s : State) (a v : Nat) : (s.setMem32 a v).lanes = s.lanes := rfl
@[simp] theorem State.setMem32_azf (s : State) (a v : Nat) : (s.setMem32 a v).azf = s.azf := rfl
@[simp] theorem State.setMem32_cell (s : State) (a v : Nat) : (s.setMem32 a v).cell = s.cell := rfl
@[simp] theorem State.setMem32_rse (s : State) (a v : Nat) : (s.setMem32 a v).rse = s.rse := rfl
@[simp] theorem State.setMem32_cle (s : State) (a v : Nat) : (s.setMem32 a v).cle = s.cle := rfl
@[simp] theorem State.setMem32_se (s : State) (a v : Nat) : (s.setMem32 a v).se = s.se := rfl
@[simp] theorem State.setMem32_bad (s : State) (a v : Nat) : (s.setMem32 a v).bad = s.bad := rfl
@[simp] theorem State.setMem32_soft (s : State) (a v : Nat) : (s.setMem32 a v).soft = s.soft := rfl
@[simp] theorem State.setMem32_pwm (s : State) (a v : Nat) : (s.setMem32 a v).pwm = s.pwm := rfl
@[simp] theorem State.setMem32_adc (s : State) (a v : Nat) : (s.setMem32 a v).adc = s.adc := rfl
@[simp] theorem State.setMem32_tbs (s : State) (a v : Nat) : (s.setMem32 a v).tbs = s.tbs := rfl
@[simp] theorem State.setMem32_eth (s : State) (a v : Nat) : (s.setMem32 a v).eth = s.eth := rfl
@[simp] theorem State.setMem32_acq (s : State) (a v : Nat) : (s.setMem32 a v).acq = s.acq := rfl
@[simp] theorem State.setMem32_red (s : State) (a v : Nat) : (s.setMem32 a v).red = s.red := rfl
@[simp] theorem State.setMem32_alm (s : State) (a v : Nat) : (s.setMem32 a v).alm = s.alm := rfl
@[simp] theorem State.setMem32_field (s : State) (a v : Nat) : (s.setMem32 a v).field = s.field := rfl
@[simp] theorem State.setMem32_safAt (s : State) (a v : Nat) : (s.setMem32 a v).safAt = s.safAt := rfl
@[simp] theorem State.setMem32_sec (s : State) (a v : Nat) : (s.setMem32 a v).sec = s.sec := rfl
@[simp] theorem State.setMem32_store (s : State) (a v : Nat) : (s.setMem32 a v).store = s.store := rfl
@[simp] theorem State.setMem32_freeCtr (s : State) (a v : Nat) : (s.setMem32 a v).freeCtr = s.freeCtr := rfl
@[simp] theorem State.setMem32_pending (s : State) (a v : Nat) : (s.setMem32 a v).pending = s.pending := rfl
@[simp] theorem State.setMem32_get (s : State) (a v : Nat) (g : Fld) : (s.setMem32 a v).get g = s.get g := rfl
@[simp] theorem State.setMem32_on (s : State) (a v : Nat) (g : Fld) : (s.setMem32 a v).on g = s.on g := rfl

/-! ### setMem -/

@[simp] theorem State.setMem_phase (s : State) (a : Nat) (l : List Byte) : (s.setMem a l).phase = s.phase := rfl
@[simp] theorem State.setMem_regs (s : State) (a : Nat) (l : List Byte) : (s.setMem a l).regs = s.regs := rfl
@[simp] theorem State.setMem_staged (s : State) (a : Nat) (l : List Byte) : (s.setMem a l).staged = s.staged := rfl
@[simp] theorem State.setMem_shadow (s : State) (a : Nat) (l : List Byte) : (s.setMem a l).shadow = s.shadow := rfl
@[simp] theorem State.setMem_pendHigh (s : State) (a : Nat) (l : List Byte) : (s.setMem a l).pendHigh = s.pendHigh := rfl
@[simp] theorem State.setMem_resp (s : State) (a : Nat) (l : List Byte) : (s.setMem a l).resp = s.resp := rfl
@[simp] theorem State.setMem_flash (s : State) (a : Nat) (l : List Byte) : (s.setMem a l).flash = s.flash := rfl
@[simp] theorem State.setMem_pwr (s : State) (a : Nat) (l : List Byte) : (s.setMem a l).pwr = s.pwr := rfl
@[simp] theorem State.setMem_tickNs (s : State) (a : Nat) (l : List Byte) : (s.setMem a l).tickNs = s.tickNs := rfl
@[simp] theorem State.setMem_fcu (s : State) (a : Nat) (l : List Byte) : (s.setMem a l).fcu = s.fcu := rfl
@[simp] theorem State.setMem_dsx (s : State) (a : Nat) (l : List Byte) : (s.setMem a l).dsx = s.dsx := rfl
@[simp] theorem State.setMem_cores (s : State) (a : Nat) (l : List Byte) : (s.setMem a l).cores = s.cores := rfl
@[simp] theorem State.setMem_out (s : State) (a : Nat) (l : List Byte) : (s.setMem a l).out = s.out := rfl
@[simp] theorem State.setMem_tck (s : State) (a : Nat) (l : List Byte) : (s.setMem a l).tck = s.tck := rfl
@[simp] theorem State.setMem_lanes (s : State) (a : Nat) (l : List Byte) : (s.setMem a l).lanes = s.lanes := rfl
@[simp] theorem State.setMem_azf (s : State) (a : Nat) (l : List Byte) : (s.setMem a l).azf = s.azf := rfl
@[simp] theorem State.setMem_cell (s : State) (a : Nat) (l : List Byte) : (s.setMem a l).cell = s.cell := rfl
@[simp] theorem State.setMem_rse (s : State) (a : Nat) (l : List Byte) : (s.setMem a l).rse = s.rse := rfl
@[simp] theorem State.setMem_cle (s : State) (a : Nat) (l : List Byte) : (s.setMem a l).cle = s.cle := rfl
@[simp] theorem State.setMem_se (s : State) (a : Nat) (l : List Byte) : (s.setMem a l).se = s.se := rfl
@[simp] theorem State.setMem_bad (s : State) (a : Nat) (l : List Byte) : (s.setMem a l).bad = s.bad := rfl
@[simp] theorem State.setMem_soft (s : State) (a : Nat) (l : List Byte) : (s.setMem a l).soft = s.soft := rfl
@[simp] theorem State.setMem_pwm (s : State) (a : Nat) (l : List Byte) : (s.setMem a l).pwm = s.pwm := rfl
@[simp] theorem State.setMem_adc (s : State) (a : Nat) (l : List Byte) : (s.setMem a l).adc = s.adc := rfl
@[simp] theorem State.setMem_tbs (s : State) (a : Nat) (l : List Byte) : (s.setMem a l).tbs = s.tbs := rfl
@[simp] theorem State.setMem_eth (s : State) (a : Nat) (l : List Byte) : (s.setMem a l).eth = s.eth := rfl
@[simp] theorem State.setMem_acq (s : State) (a : Nat) (l : List Byte) : (s.setMem a l).acq = s.acq := rfl
@[simp] theorem State.setMem_red (s : State) (a : Nat) (l : List Byte) : (s.setMem a l).red = s.red := rfl
@[simp] theorem State.setMem_alm (s : State) (a : Nat) (l : List Byte) : (s.setMem a l).alm = s.alm := rfl
@[simp] theorem State.setMem_field (s : State) (a : Nat) (l : List Byte) : (s.setMem a l).field = s.field := rfl
@[simp] theorem State.setMem_safAt (s : State) (a : Nat) (l : List Byte) : (s.setMem a l).safAt = s.safAt := rfl
@[simp] theorem State.setMem_sec (s : State) (a : Nat) (l : List Byte) : (s.setMem a l).sec = s.sec := rfl
@[simp] theorem State.setMem_store (s : State) (a : Nat) (l : List Byte) : (s.setMem a l).store = s.store := rfl
@[simp] theorem State.setMem_freeCtr (s : State) (a : Nat) (l : List Byte) : (s.setMem a l).freeCtr = s.freeCtr := rfl
@[simp] theorem State.setMem_pending (s : State) (a : Nat) (l : List Byte) : (s.setMem a l).pending = s.pending := rfl
@[simp] theorem State.setMem_get (s : State) (a : Nat) (l : List Byte) (g : Fld) : (s.setMem a l).get g = s.get g := rfl
@[simp] theorem State.setMem_on (s : State) (a : Nat) (l : List Byte) (g : Fld) : (s.setMem a l).on g = s.on g := rfl

/-! ### setFlash -/

@[simp] theorem State.setFlash_phase (s : State) (a : Nat) (l : List Byte) : (s.setFlash a l).phase = s.phase := rfl
@[simp] theorem State.setFlash_regs (s : State) (a : Nat) (l : List Byte) : (s.setFlash a l).regs = s.regs := rfl
@[simp] theorem State.setFlash_staged (s : State) (a : Nat) (l : List Byte) : (s.setFlash a l).staged = s.staged := rfl
@[simp] theorem State.setFlash_shadow (s : State) (a : Nat) (l : List Byte) : (s.setFlash a l).shadow = s.shadow := rfl
@[simp] theorem State.setFlash_pendHigh (s : State) (a : Nat) (l : List Byte) : (s.setFlash a l).pendHigh = s.pendHigh := rfl
@[simp] theorem State.setFlash_resp (s : State) (a : Nat) (l : List Byte) : (s.setFlash a l).resp = s.resp := rfl
@[simp] theorem State.setFlash_mem (s : State) (a : Nat) (l : List Byte) : (s.setFlash a l).mem = s.mem := rfl
@[simp] theorem State.setFlash_pwr (s : State) (a : Nat) (l : List Byte) : (s.setFlash a l).pwr = s.pwr := rfl
@[simp] theorem State.setFlash_tickNs (s : State) (a : Nat) (l : List Byte) : (s.setFlash a l).tickNs = s.tickNs := rfl
@[simp] theorem State.setFlash_fcu (s : State) (a : Nat) (l : List Byte) : (s.setFlash a l).fcu = s.fcu := rfl
@[simp] theorem State.setFlash_dsx (s : State) (a : Nat) (l : List Byte) : (s.setFlash a l).dsx = s.dsx := rfl
@[simp] theorem State.setFlash_cores (s : State) (a : Nat) (l : List Byte) : (s.setFlash a l).cores = s.cores := rfl
@[simp] theorem State.setFlash_out (s : State) (a : Nat) (l : List Byte) : (s.setFlash a l).out = s.out := rfl
@[simp] theorem State.setFlash_tck (s : State) (a : Nat) (l : List Byte) : (s.setFlash a l).tck = s.tck := rfl
@[simp] theorem State.setFlash_lanes (s : State) (a : Nat) (l : List Byte) : (s.setFlash a l).lanes = s.lanes := rfl
@[simp] theorem State.setFlash_azf (s : State) (a : Nat) (l : List Byte) : (s.setFlash a l).azf = s.azf := rfl
@[simp] theorem State.setFlash_cell (s : State) (a : Nat) (l : List Byte) : (s.setFlash a l).cell = s.cell := rfl
@[simp] theorem State.setFlash_rse (s : State) (a : Nat) (l : List Byte) : (s.setFlash a l).rse = s.rse := rfl
@[simp] theorem State.setFlash_cle (s : State) (a : Nat) (l : List Byte) : (s.setFlash a l).cle = s.cle := rfl
@[simp] theorem State.setFlash_se (s : State) (a : Nat) (l : List Byte) : (s.setFlash a l).se = s.se := rfl
@[simp] theorem State.setFlash_bad (s : State) (a : Nat) (l : List Byte) : (s.setFlash a l).bad = s.bad := rfl
@[simp] theorem State.setFlash_soft (s : State) (a : Nat) (l : List Byte) : (s.setFlash a l).soft = s.soft := rfl
@[simp] theorem State.setFlash_pwm (s : State) (a : Nat) (l : List Byte) : (s.setFlash a l).pwm = s.pwm := rfl
@[simp] theorem State.setFlash_adc (s : State) (a : Nat) (l : List Byte) : (s.setFlash a l).adc = s.adc := rfl
@[simp] theorem State.setFlash_tbs (s : State) (a : Nat) (l : List Byte) : (s.setFlash a l).tbs = s.tbs := rfl
@[simp] theorem State.setFlash_eth (s : State) (a : Nat) (l : List Byte) : (s.setFlash a l).eth = s.eth := rfl
@[simp] theorem State.setFlash_acq (s : State) (a : Nat) (l : List Byte) : (s.setFlash a l).acq = s.acq := rfl
@[simp] theorem State.setFlash_red (s : State) (a : Nat) (l : List Byte) : (s.setFlash a l).red = s.red := rfl
@[simp] theorem State.setFlash_alm (s : State) (a : Nat) (l : List Byte) : (s.setFlash a l).alm = s.alm := rfl
@[simp] theorem State.setFlash_field (s : State) (a : Nat) (l : List Byte) : (s.setFlash a l).field = s.field := rfl
@[simp] theorem State.setFlash_safAt (s : State) (a : Nat) (l : List Byte) : (s.setFlash a l).safAt = s.safAt := rfl
@[simp] theorem State.setFlash_sec (s : State) (a : Nat) (l : List Byte) : (s.setFlash a l).sec = s.sec := rfl
@[simp] theorem State.setFlash_store (s : State) (a : Nat) (l : List Byte) : (s.setFlash a l).store = s.store := rfl
@[simp] theorem State.setFlash_freeCtr (s : State) (a : Nat) (l : List Byte) : (s.setFlash a l).freeCtr = s.freeCtr := rfl
@[simp] theorem State.setFlash_pending (s : State) (a : Nat) (l : List Byte) : (s.setFlash a l).pending = s.pending := rfl
@[simp] theorem State.setFlash_get (s : State) (a : Nat) (l : List Byte) (g : Fld) : (s.setFlash a l).get g = s.get g := rfl
@[simp] theorem State.setFlash_on (s : State) (a : Nat) (l : List Byte) (g : Fld) : (s.setFlash a l).on g = s.on g := rfl

/-! ### setCore -/

@[simp] theorem State.setCore_phase (s : State) (c : Nat) (k : CoreState) : (s.setCore c k).phase = s.phase := rfl
@[simp] theorem State.setCore_regs (s : State) (c : Nat) (k : CoreState) : (s.setCore c k).regs = s.regs := rfl
@[simp] theorem State.setCore_staged (s : State) (c : Nat) (k : CoreState) : (s.setCore c k).staged = s.staged := rfl
@[simp] theorem State.setCore_shadow (s : State) (c : Nat) (k : CoreState) : (s.setCore c k).shadow = s.shadow := rfl
@[simp] theorem State.setCore_pendHigh (s : State) (c : Nat) (k : CoreState) : (s.setCore c k).pendHigh = s.pendHigh := rfl
@[simp] theorem State.setCore_resp (s : State) (c : Nat) (k : CoreState) : (s.setCore c k).resp = s.resp := rfl
@[simp] theorem State.setCore_mem (s : State) (c : Nat) (k : CoreState) : (s.setCore c k).mem = s.mem := rfl
@[simp] theorem State.setCore_flash (s : State) (c : Nat) (k : CoreState) : (s.setCore c k).flash = s.flash := rfl
@[simp] theorem State.setCore_pwr (s : State) (c : Nat) (k : CoreState) : (s.setCore c k).pwr = s.pwr := rfl
@[simp] theorem State.setCore_tickNs (s : State) (c : Nat) (k : CoreState) : (s.setCore c k).tickNs = s.tickNs := rfl
@[simp] theorem State.setCore_fcu (s : State) (c : Nat) (k : CoreState) : (s.setCore c k).fcu = s.fcu := rfl
@[simp] theorem State.setCore_dsx (s : State) (c : Nat) (k : CoreState) : (s.setCore c k).dsx = s.dsx := rfl
@[simp] theorem State.setCore_out (s : State) (c : Nat) (k : CoreState) : (s.setCore c k).out = s.out := rfl
@[simp] theorem State.setCore_tck (s : State) (c : Nat) (k : CoreState) : (s.setCore c k).tck = s.tck := rfl
@[simp] theorem State.setCore_lanes (s : State) (c : Nat) (k : CoreState) : (s.setCore c k).lanes = s.lanes := rfl
@[simp] theorem State.setCore_azf (s : State) (c : Nat) (k : CoreState) : (s.setCore c k).azf = s.azf := rfl
@[simp] theorem State.setCore_cell (s : State) (c : Nat) (k : CoreState) : (s.setCore c k).cell = s.cell := rfl
@[simp] theorem State.setCore_rse (s : State) (c : Nat) (k : CoreState) : (s.setCore c k).rse = s.rse := rfl
@[simp] theorem State.setCore_cle (s : State) (c : Nat) (k : CoreState) : (s.setCore c k).cle = s.cle := rfl
@[simp] theorem State.setCore_se (s : State) (c : Nat) (k : CoreState) : (s.setCore c k).se = s.se := rfl
@[simp] theorem State.setCore_bad (s : State) (c : Nat) (k : CoreState) : (s.setCore c k).bad = s.bad := rfl
@[simp] theorem State.setCore_soft (s : State) (c : Nat) (k : CoreState) : (s.setCore c k).soft = s.soft := rfl
@[simp] theorem State.setCore_pwm (s : State) (c : Nat) (k : CoreState) : (s.setCore c k).pwm = s.pwm := rfl
@[simp] theorem State.setCore_adc (s : State) (c : Nat) (k : CoreState) : (s.setCore c k).adc = s.adc := rfl
@[simp] theorem State.setCore_tbs (s : State) (c : Nat) (k : CoreState) : (s.setCore c k).tbs = s.tbs := rfl
@[simp] theorem State.setCore_eth (s : State) (c : Nat) (k : CoreState) : (s.setCore c k).eth = s.eth := rfl
@[simp] theorem State.setCore_acq (s : State) (c : Nat) (k : CoreState) : (s.setCore c k).acq = s.acq := rfl
@[simp] theorem State.setCore_red (s : State) (c : Nat) (k : CoreState) : (s.setCore c k).red = s.red := rfl
@[simp] theorem State.setCore_alm (s : State) (c : Nat) (k : CoreState) : (s.setCore c k).alm = s.alm := rfl
@[simp] theorem State.setCore_field (s : State) (c : Nat) (k : CoreState) : (s.setCore c k).field = s.field := rfl
@[simp] theorem State.setCore_safAt (s : State) (c : Nat) (k : CoreState) : (s.setCore c k).safAt = s.safAt := rfl
@[simp] theorem State.setCore_sec (s : State) (c : Nat) (k : CoreState) : (s.setCore c k).sec = s.sec := rfl
@[simp] theorem State.setCore_store (s : State) (c : Nat) (k : CoreState) : (s.setCore c k).store = s.store := rfl
@[simp] theorem State.setCore_freeCtr (s : State) (c : Nat) (k : CoreState) : (s.setCore c k).freeCtr = s.freeCtr := rfl
@[simp] theorem State.setCore_pending (s : State) (c : Nat) (k : CoreState) : (s.setCore c k).pending = s.pending := rfl
@[simp] theorem State.setCore_get (s : State) (c : Nat) (k : CoreState) (g : Fld) : (s.setCore c k).get g = s.get g := rfl
@[simp] theorem State.setCore_on (s : State) (c : Nat) (k : CoreState) (g : Fld) : (s.setCore c k).on g = s.on g := rfl

/-! ### send -/

@[simp] theorem State.send_phase (s : State) (n : Nat) (f : Frame) : (s.send n f).phase = s.phase := rfl
@[simp] theorem State.send_regs (s : State) (n : Nat) (f : Frame) : (s.send n f).regs = s.regs := rfl
@[simp] theorem State.send_staged (s : State) (n : Nat) (f : Frame) : (s.send n f).staged = s.staged := rfl
@[simp] theorem State.send_shadow (s : State) (n : Nat) (f : Frame) : (s.send n f).shadow = s.shadow := rfl
@[simp] theorem State.send_pendHigh (s : State) (n : Nat) (f : Frame) : (s.send n f).pendHigh = s.pendHigh := rfl
@[simp] theorem State.send_resp (s : State) (n : Nat) (f : Frame) : (s.send n f).resp = s.resp := rfl
@[simp] theorem State.send_mem (s : State) (n : Nat) (f : Frame) : (s.send n f).mem = s.mem := rfl
@[simp] theorem State.send_flash (s : State) (n : Nat) (f : Frame) : (s.send n f).flash = s.flash := rfl
@[simp] theorem State.send_pwr (s : State) (n : Nat) (f : Frame) : (s.send n f).pwr = s.pwr := rfl
@[simp] theorem State.send_tickNs (s : State) (n : Nat) (f : Frame) : (s.send n f).tickNs = s.tickNs := rfl
@[simp] theorem State.send_fcu (s : State) (n : Nat) (f : Frame) : (s.send n f).fcu = s.fcu := rfl
@[simp] theorem State.send_dsx (s : State) (n : Nat) (f : Frame) : (s.send n f).dsx = s.dsx := rfl
@[simp] theorem State.send_cores (s : State) (n : Nat) (f : Frame) : (s.send n f).cores = s.cores := rfl
@[simp] theorem State.send_tck (s : State) (n : Nat) (f : Frame) : (s.send n f).tck = s.tck := rfl
@[simp] theorem State.send_lanes (s : State) (n : Nat) (f : Frame) : (s.send n f).lanes = s.lanes := rfl
@[simp] theorem State.send_azf (s : State) (n : Nat) (f : Frame) : (s.send n f).azf = s.azf := rfl
@[simp] theorem State.send_cell (s : State) (n : Nat) (f : Frame) : (s.send n f).cell = s.cell := rfl
@[simp] theorem State.send_rse (s : State) (n : Nat) (f : Frame) : (s.send n f).rse = s.rse := rfl
@[simp] theorem State.send_cle (s : State) (n : Nat) (f : Frame) : (s.send n f).cle = s.cle := rfl
@[simp] theorem State.send_se (s : State) (n : Nat) (f : Frame) : (s.send n f).se = s.se := rfl
@[simp] theorem State.send_bad (s : State) (n : Nat) (f : Frame) : (s.send n f).bad = s.bad := rfl
@[simp] theorem State.send_soft (s : State) (n : Nat) (f : Frame) : (s.send n f).soft = s.soft := rfl
@[simp] theorem State.send_pwm (s : State) (n : Nat) (f : Frame) : (s.send n f).pwm = s.pwm := rfl
@[simp] theorem State.send_adc (s : State) (n : Nat) (f : Frame) : (s.send n f).adc = s.adc := rfl
@[simp] theorem State.send_tbs (s : State) (n : Nat) (f : Frame) : (s.send n f).tbs = s.tbs := rfl
@[simp] theorem State.send_eth (s : State) (n : Nat) (f : Frame) : (s.send n f).eth = s.eth := rfl
@[simp] theorem State.send_acq (s : State) (n : Nat) (f : Frame) : (s.send n f).acq = s.acq := rfl
@[simp] theorem State.send_red (s : State) (n : Nat) (f : Frame) : (s.send n f).red = s.red := rfl
@[simp] theorem State.send_alm (s : State) (n : Nat) (f : Frame) : (s.send n f).alm = s.alm := rfl
@[simp] theorem State.send_field (s : State) (n : Nat) (f : Frame) : (s.send n f).field = s.field := rfl
@[simp] theorem State.send_safAt (s : State) (n : Nat) (f : Frame) : (s.send n f).safAt = s.safAt := rfl
@[simp] theorem State.send_sec (s : State) (n : Nat) (f : Frame) : (s.send n f).sec = s.sec := rfl
@[simp] theorem State.send_store (s : State) (n : Nat) (f : Frame) : (s.send n f).store = s.store := rfl
@[simp] theorem State.send_freeCtr (s : State) (n : Nat) (f : Frame) : (s.send n f).freeCtr = s.freeCtr := rfl
@[simp] theorem State.send_pending (s : State) (n : Nat) (f : Frame) : (s.send n f).pending = s.pending := rfl
@[simp] theorem State.send_get (s : State) (n : Nat) (f : Frame) (g : Fld) : (s.send n f).get g = s.get g := rfl
@[simp] theorem State.send_on (s : State) (n : Nat) (f : Frame) (g : Fld) : (s.send n f).on g = s.on g := rfl

/-! ### hourly -/

@[simp] theorem State.hourly_phase (s : State) (f : AlmState → AlmState) : (s.hourly f).phase = s.phase := rfl
@[simp] theorem State.hourly_regs (s : State) (f : AlmState → AlmState) : (s.hourly f).regs = s.regs := rfl
@[simp] theorem State.hourly_staged (s : State) (f : AlmState → AlmState) : (s.hourly f).staged = s.staged := rfl
@[simp] theorem State.hourly_shadow (s : State) (f : AlmState → AlmState) : (s.hourly f).shadow = s.shadow := rfl
@[simp] theorem State.hourly_pendHigh (s : State) (f : AlmState → AlmState) : (s.hourly f).pendHigh = s.pendHigh := rfl
@[simp] theorem State.hourly_resp (s : State) (f : AlmState → AlmState) : (s.hourly f).resp = s.resp := rfl
@[simp] theorem State.hourly_mem (s : State) (f : AlmState → AlmState) : (s.hourly f).mem = s.mem := rfl
@[simp] theorem State.hourly_flash (s : State) (f : AlmState → AlmState) : (s.hourly f).flash = s.flash := rfl
@[simp] theorem State.hourly_pwr (s : State) (f : AlmState → AlmState) : (s.hourly f).pwr = s.pwr := rfl
@[simp] theorem State.hourly_tickNs (s : State) (f : AlmState → AlmState) : (s.hourly f).tickNs = s.tickNs := rfl
@[simp] theorem State.hourly_fcu (s : State) (f : AlmState → AlmState) : (s.hourly f).fcu = s.fcu := rfl
@[simp] theorem State.hourly_dsx (s : State) (f : AlmState → AlmState) : (s.hourly f).dsx = s.dsx := rfl
@[simp] theorem State.hourly_cores (s : State) (f : AlmState → AlmState) : (s.hourly f).cores = s.cores := rfl
@[simp] theorem State.hourly_out (s : State) (f : AlmState → AlmState) : (s.hourly f).out = s.out := rfl
@[simp] theorem State.hourly_tck (s : State) (f : AlmState → AlmState) : (s.hourly f).tck = s.tck := rfl
@[simp] theorem State.hourly_lanes (s : State) (f : AlmState → AlmState) : (s.hourly f).lanes = s.lanes := rfl
@[simp] theorem State.hourly_azf (s : State) (f : AlmState → AlmState) : (s.hourly f).azf = s.azf := rfl
@[simp] theorem State.hourly_cell (s : State) (f : AlmState → AlmState) : (s.hourly f).cell = s.cell := rfl
@[simp] theorem State.hourly_rse (s : State) (f : AlmState → AlmState) : (s.hourly f).rse = s.rse := rfl
@[simp] theorem State.hourly_cle (s : State) (f : AlmState → AlmState) : (s.hourly f).cle = s.cle := rfl
@[simp] theorem State.hourly_se (s : State) (f : AlmState → AlmState) : (s.hourly f).se = s.se := rfl
@[simp] theorem State.hourly_bad (s : State) (f : AlmState → AlmState) : (s.hourly f).bad = s.bad := rfl
@[simp] theorem State.hourly_soft (s : State) (f : AlmState → AlmState) : (s.hourly f).soft = s.soft := rfl
@[simp] theorem State.hourly_pwm (s : State) (f : AlmState → AlmState) : (s.hourly f).pwm = s.pwm := rfl
@[simp] theorem State.hourly_adc (s : State) (f : AlmState → AlmState) : (s.hourly f).adc = s.adc := rfl
@[simp] theorem State.hourly_tbs (s : State) (f : AlmState → AlmState) : (s.hourly f).tbs = s.tbs := rfl
@[simp] theorem State.hourly_eth (s : State) (f : AlmState → AlmState) : (s.hourly f).eth = s.eth := rfl
@[simp] theorem State.hourly_acq (s : State) (f : AlmState → AlmState) : (s.hourly f).acq = s.acq := rfl
@[simp] theorem State.hourly_red (s : State) (f : AlmState → AlmState) : (s.hourly f).red = s.red := rfl
@[simp] theorem State.hourly_field (s : State) (f : AlmState → AlmState) : (s.hourly f).field = s.field := rfl
@[simp] theorem State.hourly_safAt (s : State) (f : AlmState → AlmState) : (s.hourly f).safAt = s.safAt := rfl
@[simp] theorem State.hourly_sec (s : State) (f : AlmState → AlmState) : (s.hourly f).sec = s.sec := rfl
@[simp] theorem State.hourly_store (s : State) (f : AlmState → AlmState) : (s.hourly f).store = s.store := rfl
@[simp] theorem State.hourly_freeCtr (s : State) (f : AlmState → AlmState) : (s.hourly f).freeCtr = s.freeCtr := rfl
@[simp] theorem State.hourly_pending (s : State) (f : AlmState → AlmState) : (s.hourly f).pending = s.pending := rfl
@[simp] theorem State.hourly_get (s : State) (f : AlmState → AlmState) (g : Fld) : (s.hourly f).get g = s.get g := rfl
@[simp] theorem State.hourly_on (s : State) (f : AlmState → AlmState) (g : Fld) : (s.hourly f).on g = s.on g := rfl

/-! ### setFcuSrc -/

@[simp] theorem State.setFcuSrc_phase (s : State) (n : Nat) (x : FcuSrc) : (s.setFcuSrc n x).phase = s.phase := rfl
@[simp] theorem State.setFcuSrc_regs (s : State) (n : Nat) (x : FcuSrc) : (s.setFcuSrc n x).regs = s.regs := rfl
@[simp] theorem State.setFcuSrc_staged (s : State) (n : Nat) (x : FcuSrc) : (s.setFcuSrc n x).staged = s.staged := rfl
@[simp] theorem State.setFcuSrc_shadow (s : State) (n : Nat) (x : FcuSrc) : (s.setFcuSrc n x).shadow = s.shadow := rfl
@[simp] theorem State.setFcuSrc_pendHigh (s : State) (n : Nat) (x : FcuSrc) : (s.setFcuSrc n x).pendHigh = s.pendHigh := rfl
@[simp] theorem State.setFcuSrc_resp (s : State) (n : Nat) (x : FcuSrc) : (s.setFcuSrc n x).resp = s.resp := rfl
@[simp] theorem State.setFcuSrc_mem (s : State) (n : Nat) (x : FcuSrc) : (s.setFcuSrc n x).mem = s.mem := rfl
@[simp] theorem State.setFcuSrc_flash (s : State) (n : Nat) (x : FcuSrc) : (s.setFcuSrc n x).flash = s.flash := rfl
@[simp] theorem State.setFcuSrc_pwr (s : State) (n : Nat) (x : FcuSrc) : (s.setFcuSrc n x).pwr = s.pwr := rfl
@[simp] theorem State.setFcuSrc_tickNs (s : State) (n : Nat) (x : FcuSrc) : (s.setFcuSrc n x).tickNs = s.tickNs := rfl
@[simp] theorem State.setFcuSrc_dsx (s : State) (n : Nat) (x : FcuSrc) : (s.setFcuSrc n x).dsx = s.dsx := rfl
@[simp] theorem State.setFcuSrc_cores (s : State) (n : Nat) (x : FcuSrc) : (s.setFcuSrc n x).cores = s.cores := rfl
@[simp] theorem State.setFcuSrc_out (s : State) (n : Nat) (x : FcuSrc) : (s.setFcuSrc n x).out = s.out := rfl
@[simp] theorem State.setFcuSrc_tck (s : State) (n : Nat) (x : FcuSrc) : (s.setFcuSrc n x).tck = s.tck := rfl
@[simp] theorem State.setFcuSrc_lanes (s : State) (n : Nat) (x : FcuSrc) : (s.setFcuSrc n x).lanes = s.lanes := rfl
@[simp] theorem State.setFcuSrc_azf (s : State) (n : Nat) (x : FcuSrc) : (s.setFcuSrc n x).azf = s.azf := rfl
@[simp] theorem State.setFcuSrc_cell (s : State) (n : Nat) (x : FcuSrc) : (s.setFcuSrc n x).cell = s.cell := rfl
@[simp] theorem State.setFcuSrc_rse (s : State) (n : Nat) (x : FcuSrc) : (s.setFcuSrc n x).rse = s.rse := rfl
@[simp] theorem State.setFcuSrc_cle (s : State) (n : Nat) (x : FcuSrc) : (s.setFcuSrc n x).cle = s.cle := rfl
@[simp] theorem State.setFcuSrc_se (s : State) (n : Nat) (x : FcuSrc) : (s.setFcuSrc n x).se = s.se := rfl
@[simp] theorem State.setFcuSrc_bad (s : State) (n : Nat) (x : FcuSrc) : (s.setFcuSrc n x).bad = s.bad := rfl
@[simp] theorem State.setFcuSrc_soft (s : State) (n : Nat) (x : FcuSrc) : (s.setFcuSrc n x).soft = s.soft := rfl
@[simp] theorem State.setFcuSrc_pwm (s : State) (n : Nat) (x : FcuSrc) : (s.setFcuSrc n x).pwm = s.pwm := rfl
@[simp] theorem State.setFcuSrc_adc (s : State) (n : Nat) (x : FcuSrc) : (s.setFcuSrc n x).adc = s.adc := rfl
@[simp] theorem State.setFcuSrc_tbs (s : State) (n : Nat) (x : FcuSrc) : (s.setFcuSrc n x).tbs = s.tbs := rfl
@[simp] theorem State.setFcuSrc_eth (s : State) (n : Nat) (x : FcuSrc) : (s.setFcuSrc n x).eth = s.eth := rfl
@[simp] theorem State.setFcuSrc_acq (s : State) (n : Nat) (x : FcuSrc) : (s.setFcuSrc n x).acq = s.acq := rfl
@[simp] theorem State.setFcuSrc_red (s : State) (n : Nat) (x : FcuSrc) : (s.setFcuSrc n x).red = s.red := rfl
@[simp] theorem State.setFcuSrc_alm (s : State) (n : Nat) (x : FcuSrc) : (s.setFcuSrc n x).alm = s.alm := rfl
@[simp] theorem State.setFcuSrc_field (s : State) (n : Nat) (x : FcuSrc) : (s.setFcuSrc n x).field = s.field := rfl
@[simp] theorem State.setFcuSrc_safAt (s : State) (n : Nat) (x : FcuSrc) : (s.setFcuSrc n x).safAt = s.safAt := rfl
@[simp] theorem State.setFcuSrc_sec (s : State) (n : Nat) (x : FcuSrc) : (s.setFcuSrc n x).sec = s.sec := rfl
@[simp] theorem State.setFcuSrc_store (s : State) (n : Nat) (x : FcuSrc) : (s.setFcuSrc n x).store = s.store := rfl
@[simp] theorem State.setFcuSrc_freeCtr (s : State) (n : Nat) (x : FcuSrc) : (s.setFcuSrc n x).freeCtr = s.freeCtr := rfl
@[simp] theorem State.setFcuSrc_pending (s : State) (n : Nat) (x : FcuSrc) : (s.setFcuSrc n x).pending = s.pending := rfl
@[simp] theorem State.setFcuSrc_get (s : State) (n : Nat) (x : FcuSrc) (g : Fld) : (s.setFcuSrc n x).get g = s.get g := rfl
@[simp] theorem State.setFcuSrc_on (s : State) (n : Nat) (x : FcuSrc) (g : Fld) : (s.setFcuSrc n x).on g = s.on g := rfl

/-! ### setLane -/

@[simp] theorem State.setLane_phase (s : State) (n : Nat) (x : LaneState) : (s.setLane n x).phase = s.phase := rfl
@[simp] theorem State.setLane_regs (s : State) (n : Nat) (x : LaneState) : (s.setLane n x).regs = s.regs := rfl
@[simp] theorem State.setLane_staged (s : State) (n : Nat) (x : LaneState) : (s.setLane n x).staged = s.staged := rfl
@[simp] theorem State.setLane_shadow (s : State) (n : Nat) (x : LaneState) : (s.setLane n x).shadow = s.shadow := rfl
@[simp] theorem State.setLane_pendHigh (s : State) (n : Nat) (x : LaneState) : (s.setLane n x).pendHigh = s.pendHigh := rfl
@[simp] theorem State.setLane_resp (s : State) (n : Nat) (x : LaneState) : (s.setLane n x).resp = s.resp := rfl
@[simp] theorem State.setLane_mem (s : State) (n : Nat) (x : LaneState) : (s.setLane n x).mem = s.mem := rfl
@[simp] theorem State.setLane_flash (s : State) (n : Nat) (x : LaneState) : (s.setLane n x).flash = s.flash := rfl
@[simp] theorem State.setLane_pwr (s : State) (n : Nat) (x : LaneState) : (s.setLane n x).pwr = s.pwr := rfl
@[simp] theorem State.setLane_tickNs (s : State) (n : Nat) (x : LaneState) : (s.setLane n x).tickNs = s.tickNs := rfl
@[simp] theorem State.setLane_fcu (s : State) (n : Nat) (x : LaneState) : (s.setLane n x).fcu = s.fcu := rfl
@[simp] theorem State.setLane_dsx (s : State) (n : Nat) (x : LaneState) : (s.setLane n x).dsx = s.dsx := rfl
@[simp] theorem State.setLane_cores (s : State) (n : Nat) (x : LaneState) : (s.setLane n x).cores = s.cores := rfl
@[simp] theorem State.setLane_out (s : State) (n : Nat) (x : LaneState) : (s.setLane n x).out = s.out := rfl
@[simp] theorem State.setLane_tck (s : State) (n : Nat) (x : LaneState) : (s.setLane n x).tck = s.tck := rfl
@[simp] theorem State.setLane_azf (s : State) (n : Nat) (x : LaneState) : (s.setLane n x).azf = s.azf := rfl
@[simp] theorem State.setLane_cell (s : State) (n : Nat) (x : LaneState) : (s.setLane n x).cell = s.cell := rfl
@[simp] theorem State.setLane_rse (s : State) (n : Nat) (x : LaneState) : (s.setLane n x).rse = s.rse := rfl
@[simp] theorem State.setLane_cle (s : State) (n : Nat) (x : LaneState) : (s.setLane n x).cle = s.cle := rfl
@[simp] theorem State.setLane_se (s : State) (n : Nat) (x : LaneState) : (s.setLane n x).se = s.se := rfl
@[simp] theorem State.setLane_bad (s : State) (n : Nat) (x : LaneState) : (s.setLane n x).bad = s.bad := rfl
@[simp] theorem State.setLane_soft (s : State) (n : Nat) (x : LaneState) : (s.setLane n x).soft = s.soft := rfl
@[simp] theorem State.setLane_pwm (s : State) (n : Nat) (x : LaneState) : (s.setLane n x).pwm = s.pwm := rfl
@[simp] theorem State.setLane_adc (s : State) (n : Nat) (x : LaneState) : (s.setLane n x).adc = s.adc := rfl
@[simp] theorem State.setLane_tbs (s : State) (n : Nat) (x : LaneState) : (s.setLane n x).tbs = s.tbs := rfl
@[simp] theorem State.setLane_eth (s : State) (n : Nat) (x : LaneState) : (s.setLane n x).eth = s.eth := rfl
@[simp] theorem State.setLane_acq (s : State) (n : Nat) (x : LaneState) : (s.setLane n x).acq = s.acq := rfl
@[simp] theorem State.setLane_red (s : State) (n : Nat) (x : LaneState) : (s.setLane n x).red = s.red := rfl
@[simp] theorem State.setLane_alm (s : State) (n : Nat) (x : LaneState) : (s.setLane n x).alm = s.alm := rfl
@[simp] theorem State.setLane_field (s : State) (n : Nat) (x : LaneState) : (s.setLane n x).field = s.field := rfl
@[simp] theorem State.setLane_safAt (s : State) (n : Nat) (x : LaneState) : (s.setLane n x).safAt = s.safAt := rfl
@[simp] theorem State.setLane_sec (s : State) (n : Nat) (x : LaneState) : (s.setLane n x).sec = s.sec := rfl
@[simp] theorem State.setLane_store (s : State) (n : Nat) (x : LaneState) : (s.setLane n x).store = s.store := rfl
@[simp] theorem State.setLane_freeCtr (s : State) (n : Nat) (x : LaneState) : (s.setLane n x).freeCtr = s.freeCtr := rfl
@[simp] theorem State.setLane_pending (s : State) (n : Nat) (x : LaneState) : (s.setLane n x).pending = s.pending := rfl
@[simp] theorem State.setLane_get (s : State) (n : Nat) (x : LaneState) (g : Fld) : (s.setLane n x).get g = s.get g := rfl
@[simp] theorem State.setLane_on (s : State) (n : Nat) (x : LaneState) (g : Fld) : (s.setLane n x).on g = s.on g := rfl

/-! ### setMac -/

@[simp] theorem State.setMac_phase (s : State) (m : Nat) (x : EthState) : (s.setMac m x).phase = s.phase := rfl
@[simp] theorem State.setMac_regs (s : State) (m : Nat) (x : EthState) : (s.setMac m x).regs = s.regs := rfl
@[simp] theorem State.setMac_staged (s : State) (m : Nat) (x : EthState) : (s.setMac m x).staged = s.staged := rfl
@[simp] theorem State.setMac_shadow (s : State) (m : Nat) (x : EthState) : (s.setMac m x).shadow = s.shadow := rfl
@[simp] theorem State.setMac_pendHigh (s : State) (m : Nat) (x : EthState) : (s.setMac m x).pendHigh = s.pendHigh := rfl
@[simp] theorem State.setMac_resp (s : State) (m : Nat) (x : EthState) : (s.setMac m x).resp = s.resp := rfl
@[simp] theorem State.setMac_mem (s : State) (m : Nat) (x : EthState) : (s.setMac m x).mem = s.mem := rfl
@[simp] theorem State.setMac_flash (s : State) (m : Nat) (x : EthState) : (s.setMac m x).flash = s.flash := rfl
@[simp] theorem State.setMac_pwr (s : State) (m : Nat) (x : EthState) : (s.setMac m x).pwr = s.pwr := rfl
@[simp] theorem State.setMac_tickNs (s : State) (m : Nat) (x : EthState) : (s.setMac m x).tickNs = s.tickNs := rfl
@[simp] theorem State.setMac_fcu (s : State) (m : Nat) (x : EthState) : (s.setMac m x).fcu = s.fcu := rfl
@[simp] theorem State.setMac_dsx (s : State) (m : Nat) (x : EthState) : (s.setMac m x).dsx = s.dsx := rfl
@[simp] theorem State.setMac_cores (s : State) (m : Nat) (x : EthState) : (s.setMac m x).cores = s.cores := rfl
@[simp] theorem State.setMac_out (s : State) (m : Nat) (x : EthState) : (s.setMac m x).out = s.out := rfl
@[simp] theorem State.setMac_tck (s : State) (m : Nat) (x : EthState) : (s.setMac m x).tck = s.tck := rfl
@[simp] theorem State.setMac_lanes (s : State) (m : Nat) (x : EthState) : (s.setMac m x).lanes = s.lanes := rfl
@[simp] theorem State.setMac_azf (s : State) (m : Nat) (x : EthState) : (s.setMac m x).azf = s.azf := rfl
@[simp] theorem State.setMac_cell (s : State) (m : Nat) (x : EthState) : (s.setMac m x).cell = s.cell := rfl
@[simp] theorem State.setMac_rse (s : State) (m : Nat) (x : EthState) : (s.setMac m x).rse = s.rse := rfl
@[simp] theorem State.setMac_cle (s : State) (m : Nat) (x : EthState) : (s.setMac m x).cle = s.cle := rfl
@[simp] theorem State.setMac_se (s : State) (m : Nat) (x : EthState) : (s.setMac m x).se = s.se := rfl
@[simp] theorem State.setMac_bad (s : State) (m : Nat) (x : EthState) : (s.setMac m x).bad = s.bad := rfl
@[simp] theorem State.setMac_soft (s : State) (m : Nat) (x : EthState) : (s.setMac m x).soft = s.soft := rfl
@[simp] theorem State.setMac_pwm (s : State) (m : Nat) (x : EthState) : (s.setMac m x).pwm = s.pwm := rfl
@[simp] theorem State.setMac_adc (s : State) (m : Nat) (x : EthState) : (s.setMac m x).adc = s.adc := rfl
@[simp] theorem State.setMac_tbs (s : State) (m : Nat) (x : EthState) : (s.setMac m x).tbs = s.tbs := rfl
@[simp] theorem State.setMac_acq (s : State) (m : Nat) (x : EthState) : (s.setMac m x).acq = s.acq := rfl
@[simp] theorem State.setMac_red (s : State) (m : Nat) (x : EthState) : (s.setMac m x).red = s.red := rfl
@[simp] theorem State.setMac_alm (s : State) (m : Nat) (x : EthState) : (s.setMac m x).alm = s.alm := rfl
@[simp] theorem State.setMac_field (s : State) (m : Nat) (x : EthState) : (s.setMac m x).field = s.field := rfl
@[simp] theorem State.setMac_safAt (s : State) (m : Nat) (x : EthState) : (s.setMac m x).safAt = s.safAt := rfl
@[simp] theorem State.setMac_sec (s : State) (m : Nat) (x : EthState) : (s.setMac m x).sec = s.sec := rfl
@[simp] theorem State.setMac_store (s : State) (m : Nat) (x : EthState) : (s.setMac m x).store = s.store := rfl
@[simp] theorem State.setMac_freeCtr (s : State) (m : Nat) (x : EthState) : (s.setMac m x).freeCtr = s.freeCtr := rfl
@[simp] theorem State.setMac_pending (s : State) (m : Nat) (x : EthState) : (s.setMac m x).pending = s.pending := rfl
@[simp] theorem State.setMac_get (s : State) (m : Nat) (x : EthState) (g : Fld) : (s.setMac m x).get g = s.get g := rfl
@[simp] theorem State.setMac_on (s : State) (m : Nat) (x : EthState) (g : Fld) : (s.setMac m x).on g = s.on g := rfl

/-! ### setEng -/

@[simp] theorem State.setEng_phase (s : State) (n : Nat) (e : SeState) : (s.setEng n e).phase = s.phase := rfl
@[simp] theorem State.setEng_regs (s : State) (n : Nat) (e : SeState) : (s.setEng n e).regs = s.regs := rfl
@[simp] theorem State.setEng_staged (s : State) (n : Nat) (e : SeState) : (s.setEng n e).staged = s.staged := rfl
@[simp] theorem State.setEng_shadow (s : State) (n : Nat) (e : SeState) : (s.setEng n e).shadow = s.shadow := rfl
@[simp] theorem State.setEng_pendHigh (s : State) (n : Nat) (e : SeState) : (s.setEng n e).pendHigh = s.pendHigh := rfl
@[simp] theorem State.setEng_resp (s : State) (n : Nat) (e : SeState) : (s.setEng n e).resp = s.resp := rfl
@[simp] theorem State.setEng_mem (s : State) (n : Nat) (e : SeState) : (s.setEng n e).mem = s.mem := rfl
@[simp] theorem State.setEng_flash (s : State) (n : Nat) (e : SeState) : (s.setEng n e).flash = s.flash := rfl
@[simp] theorem State.setEng_pwr (s : State) (n : Nat) (e : SeState) : (s.setEng n e).pwr = s.pwr := rfl
@[simp] theorem State.setEng_tickNs (s : State) (n : Nat) (e : SeState) : (s.setEng n e).tickNs = s.tickNs := rfl
@[simp] theorem State.setEng_fcu (s : State) (n : Nat) (e : SeState) : (s.setEng n e).fcu = s.fcu := rfl
@[simp] theorem State.setEng_dsx (s : State) (n : Nat) (e : SeState) : (s.setEng n e).dsx = s.dsx := rfl
@[simp] theorem State.setEng_cores (s : State) (n : Nat) (e : SeState) : (s.setEng n e).cores = s.cores := rfl
@[simp] theorem State.setEng_out (s : State) (n : Nat) (e : SeState) : (s.setEng n e).out = s.out := rfl
@[simp] theorem State.setEng_tck (s : State) (n : Nat) (e : SeState) : (s.setEng n e).tck = s.tck := rfl
@[simp] theorem State.setEng_lanes (s : State) (n : Nat) (e : SeState) : (s.setEng n e).lanes = s.lanes := rfl
@[simp] theorem State.setEng_azf (s : State) (n : Nat) (e : SeState) : (s.setEng n e).azf = s.azf := rfl
@[simp] theorem State.setEng_cell (s : State) (n : Nat) (e : SeState) : (s.setEng n e).cell = s.cell := rfl
@[simp] theorem State.setEng_rse (s : State) (n : Nat) (e : SeState) : (s.setEng n e).rse = s.rse := rfl
@[simp] theorem State.setEng_cle (s : State) (n : Nat) (e : SeState) : (s.setEng n e).cle = s.cle := rfl
@[simp] theorem State.setEng_bad (s : State) (n : Nat) (e : SeState) : (s.setEng n e).bad = s.bad := rfl
@[simp] theorem State.setEng_soft (s : State) (n : Nat) (e : SeState) : (s.setEng n e).soft = s.soft := rfl
@[simp] theorem State.setEng_pwm (s : State) (n : Nat) (e : SeState) : (s.setEng n e).pwm = s.pwm := rfl
@[simp] theorem State.setEng_adc (s : State) (n : Nat) (e : SeState) : (s.setEng n e).adc = s.adc := rfl
@[simp] theorem State.setEng_tbs (s : State) (n : Nat) (e : SeState) : (s.setEng n e).tbs = s.tbs := rfl
@[simp] theorem State.setEng_eth (s : State) (n : Nat) (e : SeState) : (s.setEng n e).eth = s.eth := rfl
@[simp] theorem State.setEng_acq (s : State) (n : Nat) (e : SeState) : (s.setEng n e).acq = s.acq := rfl
@[simp] theorem State.setEng_red (s : State) (n : Nat) (e : SeState) : (s.setEng n e).red = s.red := rfl
@[simp] theorem State.setEng_alm (s : State) (n : Nat) (e : SeState) : (s.setEng n e).alm = s.alm := rfl
@[simp] theorem State.setEng_field (s : State) (n : Nat) (e : SeState) : (s.setEng n e).field = s.field := rfl
@[simp] theorem State.setEng_safAt (s : State) (n : Nat) (e : SeState) : (s.setEng n e).safAt = s.safAt := rfl
@[simp] theorem State.setEng_sec (s : State) (n : Nat) (e : SeState) : (s.setEng n e).sec = s.sec := rfl
@[simp] theorem State.setEng_store (s : State) (n : Nat) (e : SeState) : (s.setEng n e).store = s.store := rfl
@[simp] theorem State.setEng_freeCtr (s : State) (n : Nat) (e : SeState) : (s.setEng n e).freeCtr = s.freeCtr := rfl
@[simp] theorem State.setEng_pending (s : State) (n : Nat) (e : SeState) : (s.setEng n e).pending = s.pending := rfl
@[simp] theorem State.setEng_get (s : State) (n : Nat) (e : SeState) (g : Fld) : (s.setEng n e).get g = s.get g := rfl
@[simp] theorem State.setEng_on (s : State) (n : Nat) (e : SeState) (g : Fld) : (s.setEng n e).on g = s.on g := rfl

/-! ### setEnt -/

@[simp] theorem State.setEnt_phase (s : State) (i : Nat) (e : CellEnt) : (s.setEnt i e).phase = s.phase := rfl
@[simp] theorem State.setEnt_regs (s : State) (i : Nat) (e : CellEnt) : (s.setEnt i e).regs = s.regs := rfl
@[simp] theorem State.setEnt_staged (s : State) (i : Nat) (e : CellEnt) : (s.setEnt i e).staged = s.staged := rfl
@[simp] theorem State.setEnt_shadow (s : State) (i : Nat) (e : CellEnt) : (s.setEnt i e).shadow = s.shadow := rfl
@[simp] theorem State.setEnt_pendHigh (s : State) (i : Nat) (e : CellEnt) : (s.setEnt i e).pendHigh = s.pendHigh := rfl
@[simp] theorem State.setEnt_resp (s : State) (i : Nat) (e : CellEnt) : (s.setEnt i e).resp = s.resp := rfl
@[simp] theorem State.setEnt_mem (s : State) (i : Nat) (e : CellEnt) : (s.setEnt i e).mem = s.mem := rfl
@[simp] theorem State.setEnt_flash (s : State) (i : Nat) (e : CellEnt) : (s.setEnt i e).flash = s.flash := rfl
@[simp] theorem State.setEnt_pwr (s : State) (i : Nat) (e : CellEnt) : (s.setEnt i e).pwr = s.pwr := rfl
@[simp] theorem State.setEnt_tickNs (s : State) (i : Nat) (e : CellEnt) : (s.setEnt i e).tickNs = s.tickNs := rfl
@[simp] theorem State.setEnt_fcu (s : State) (i : Nat) (e : CellEnt) : (s.setEnt i e).fcu = s.fcu := rfl
@[simp] theorem State.setEnt_dsx (s : State) (i : Nat) (e : CellEnt) : (s.setEnt i e).dsx = s.dsx := rfl
@[simp] theorem State.setEnt_cores (s : State) (i : Nat) (e : CellEnt) : (s.setEnt i e).cores = s.cores := rfl
@[simp] theorem State.setEnt_out (s : State) (i : Nat) (e : CellEnt) : (s.setEnt i e).out = s.out := rfl
@[simp] theorem State.setEnt_tck (s : State) (i : Nat) (e : CellEnt) : (s.setEnt i e).tck = s.tck := rfl
@[simp] theorem State.setEnt_lanes (s : State) (i : Nat) (e : CellEnt) : (s.setEnt i e).lanes = s.lanes := rfl
@[simp] theorem State.setEnt_azf (s : State) (i : Nat) (e : CellEnt) : (s.setEnt i e).azf = s.azf := rfl
@[simp] theorem State.setEnt_cell (s : State) (i : Nat) (e : CellEnt) : (s.setEnt i e).cell = s.cell := rfl
@[simp] theorem State.setEnt_cle (s : State) (i : Nat) (e : CellEnt) : (s.setEnt i e).cle = s.cle := rfl
@[simp] theorem State.setEnt_se (s : State) (i : Nat) (e : CellEnt) : (s.setEnt i e).se = s.se := rfl
@[simp] theorem State.setEnt_bad (s : State) (i : Nat) (e : CellEnt) : (s.setEnt i e).bad = s.bad := rfl
@[simp] theorem State.setEnt_soft (s : State) (i : Nat) (e : CellEnt) : (s.setEnt i e).soft = s.soft := rfl
@[simp] theorem State.setEnt_pwm (s : State) (i : Nat) (e : CellEnt) : (s.setEnt i e).pwm = s.pwm := rfl
@[simp] theorem State.setEnt_adc (s : State) (i : Nat) (e : CellEnt) : (s.setEnt i e).adc = s.adc := rfl
@[simp] theorem State.setEnt_tbs (s : State) (i : Nat) (e : CellEnt) : (s.setEnt i e).tbs = s.tbs := rfl
@[simp] theorem State.setEnt_eth (s : State) (i : Nat) (e : CellEnt) : (s.setEnt i e).eth = s.eth := rfl
@[simp] theorem State.setEnt_acq (s : State) (i : Nat) (e : CellEnt) : (s.setEnt i e).acq = s.acq := rfl
@[simp] theorem State.setEnt_red (s : State) (i : Nat) (e : CellEnt) : (s.setEnt i e).red = s.red := rfl
@[simp] theorem State.setEnt_alm (s : State) (i : Nat) (e : CellEnt) : (s.setEnt i e).alm = s.alm := rfl
@[simp] theorem State.setEnt_field (s : State) (i : Nat) (e : CellEnt) : (s.setEnt i e).field = s.field := rfl
@[simp] theorem State.setEnt_safAt (s : State) (i : Nat) (e : CellEnt) : (s.setEnt i e).safAt = s.safAt := rfl
@[simp] theorem State.setEnt_sec (s : State) (i : Nat) (e : CellEnt) : (s.setEnt i e).sec = s.sec := rfl
@[simp] theorem State.setEnt_store (s : State) (i : Nat) (e : CellEnt) : (s.setEnt i e).store = s.store := rfl
@[simp] theorem State.setEnt_freeCtr (s : State) (i : Nat) (e : CellEnt) : (s.setEnt i e).freeCtr = s.freeCtr := rfl
@[simp] theorem State.setEnt_pending (s : State) (i : Nat) (e : CellEnt) : (s.setEnt i e).pending = s.pending := rfl
@[simp] theorem State.setEnt_get (s : State) (i : Nat) (e : CellEnt) (g : Fld) : (s.setEnt i e).get g = s.get g := rfl
@[simp] theorem State.setEnt_on (s : State) (i : Nat) (e : CellEnt) (g : Fld) : (s.setEnt i e).on g = s.on g := rfl

/-! ### setInst -/

@[simp] theorem State.setInst_phase (s : State) (a : Nat) (x : RseInst) : (s.setInst a x).phase = s.phase := rfl
@[simp] theorem State.setInst_regs (s : State) (a : Nat) (x : RseInst) : (s.setInst a x).regs = s.regs := rfl
@[simp] theorem State.setInst_staged (s : State) (a : Nat) (x : RseInst) : (s.setInst a x).staged = s.staged := rfl
@[simp] theorem State.setInst_shadow (s : State) (a : Nat) (x : RseInst) : (s.setInst a x).shadow = s.shadow := rfl
@[simp] theorem State.setInst_pendHigh (s : State) (a : Nat) (x : RseInst) : (s.setInst a x).pendHigh = s.pendHigh := rfl
@[simp] theorem State.setInst_resp (s : State) (a : Nat) (x : RseInst) : (s.setInst a x).resp = s.resp := rfl
@[simp] theorem State.setInst_mem (s : State) (a : Nat) (x : RseInst) : (s.setInst a x).mem = s.mem := rfl
@[simp] theorem State.setInst_flash (s : State) (a : Nat) (x : RseInst) : (s.setInst a x).flash = s.flash := rfl
@[simp] theorem State.setInst_pwr (s : State) (a : Nat) (x : RseInst) : (s.setInst a x).pwr = s.pwr := rfl
@[simp] theorem State.setInst_tickNs (s : State) (a : Nat) (x : RseInst) : (s.setInst a x).tickNs = s.tickNs := rfl
@[simp] theorem State.setInst_fcu (s : State) (a : Nat) (x : RseInst) : (s.setInst a x).fcu = s.fcu := rfl
@[simp] theorem State.setInst_dsx (s : State) (a : Nat) (x : RseInst) : (s.setInst a x).dsx = s.dsx := rfl
@[simp] theorem State.setInst_cores (s : State) (a : Nat) (x : RseInst) : (s.setInst a x).cores = s.cores := rfl
@[simp] theorem State.setInst_out (s : State) (a : Nat) (x : RseInst) : (s.setInst a x).out = s.out := rfl
@[simp] theorem State.setInst_tck (s : State) (a : Nat) (x : RseInst) : (s.setInst a x).tck = s.tck := rfl
@[simp] theorem State.setInst_lanes (s : State) (a : Nat) (x : RseInst) : (s.setInst a x).lanes = s.lanes := rfl
@[simp] theorem State.setInst_azf (s : State) (a : Nat) (x : RseInst) : (s.setInst a x).azf = s.azf := rfl
@[simp] theorem State.setInst_cell (s : State) (a : Nat) (x : RseInst) : (s.setInst a x).cell = s.cell := rfl
@[simp] theorem State.setInst_cle (s : State) (a : Nat) (x : RseInst) : (s.setInst a x).cle = s.cle := rfl
@[simp] theorem State.setInst_se (s : State) (a : Nat) (x : RseInst) : (s.setInst a x).se = s.se := rfl
@[simp] theorem State.setInst_bad (s : State) (a : Nat) (x : RseInst) : (s.setInst a x).bad = s.bad := rfl
@[simp] theorem State.setInst_soft (s : State) (a : Nat) (x : RseInst) : (s.setInst a x).soft = s.soft := rfl
@[simp] theorem State.setInst_pwm (s : State) (a : Nat) (x : RseInst) : (s.setInst a x).pwm = s.pwm := rfl
@[simp] theorem State.setInst_adc (s : State) (a : Nat) (x : RseInst) : (s.setInst a x).adc = s.adc := rfl
@[simp] theorem State.setInst_tbs (s : State) (a : Nat) (x : RseInst) : (s.setInst a x).tbs = s.tbs := rfl
@[simp] theorem State.setInst_eth (s : State) (a : Nat) (x : RseInst) : (s.setInst a x).eth = s.eth := rfl
@[simp] theorem State.setInst_acq (s : State) (a : Nat) (x : RseInst) : (s.setInst a x).acq = s.acq := rfl
@[simp] theorem State.setInst_red (s : State) (a : Nat) (x : RseInst) : (s.setInst a x).red = s.red := rfl
@[simp] theorem State.setInst_alm (s : State) (a : Nat) (x : RseInst) : (s.setInst a x).alm = s.alm := rfl
@[simp] theorem State.setInst_field (s : State) (a : Nat) (x : RseInst) : (s.setInst a x).field = s.field := rfl
@[simp] theorem State.setInst_safAt (s : State) (a : Nat) (x : RseInst) : (s.setInst a x).safAt = s.safAt := rfl
@[simp] theorem State.setInst_sec (s : State) (a : Nat) (x : RseInst) : (s.setInst a x).sec = s.sec := rfl
@[simp] theorem State.setInst_store (s : State) (a : Nat) (x : RseInst) : (s.setInst a x).store = s.store := rfl
@[simp] theorem State.setInst_freeCtr (s : State) (a : Nat) (x : RseInst) : (s.setInst a x).freeCtr = s.freeCtr := rfl
@[simp] theorem State.setInst_pending (s : State) (a : Nat) (x : RseInst) : (s.setInst a x).pending = s.pending := rfl
@[simp] theorem State.setInst_get (s : State) (a : Nat) (x : RseInst) (g : Fld) : (s.setInst a x).get g = s.get g := rfl
@[simp] theorem State.setInst_on (s : State) (a : Nat) (x : RseInst) (g : Fld) : (s.setInst a x).on g = s.on g := rfl

/-! ### setLink -/

@[simp] theorem State.setLink_phase (s : State) (n : Nat) (x : LinkMeas) : (s.setLink n x).phase = s.phase := rfl
@[simp] theorem State.setLink_regs (s : State) (n : Nat) (x : LinkMeas) : (s.setLink n x).regs = s.regs := rfl
@[simp] theorem State.setLink_staged (s : State) (n : Nat) (x : LinkMeas) : (s.setLink n x).staged = s.staged := rfl
@[simp] theorem State.setLink_shadow (s : State) (n : Nat) (x : LinkMeas) : (s.setLink n x).shadow = s.shadow := rfl
@[simp] theorem State.setLink_pendHigh (s : State) (n : Nat) (x : LinkMeas) : (s.setLink n x).pendHigh = s.pendHigh := rfl
@[simp] theorem State.setLink_resp (s : State) (n : Nat) (x : LinkMeas) : (s.setLink n x).resp = s.resp := rfl
@[simp] theorem State.setLink_mem (s : State) (n : Nat) (x : LinkMeas) : (s.setLink n x).mem = s.mem := rfl
@[simp] theorem State.setLink_flash (s : State) (n : Nat) (x : LinkMeas) : (s.setLink n x).flash = s.flash := rfl
@[simp] theorem State.setLink_pwr (s : State) (n : Nat) (x : LinkMeas) : (s.setLink n x).pwr = s.pwr := rfl
@[simp] theorem State.setLink_tickNs (s : State) (n : Nat) (x : LinkMeas) : (s.setLink n x).tickNs = s.tickNs := rfl
@[simp] theorem State.setLink_fcu (s : State) (n : Nat) (x : LinkMeas) : (s.setLink n x).fcu = s.fcu := rfl
@[simp] theorem State.setLink_dsx (s : State) (n : Nat) (x : LinkMeas) : (s.setLink n x).dsx = s.dsx := rfl
@[simp] theorem State.setLink_cores (s : State) (n : Nat) (x : LinkMeas) : (s.setLink n x).cores = s.cores := rfl
@[simp] theorem State.setLink_out (s : State) (n : Nat) (x : LinkMeas) : (s.setLink n x).out = s.out := rfl
@[simp] theorem State.setLink_tck (s : State) (n : Nat) (x : LinkMeas) : (s.setLink n x).tck = s.tck := rfl
@[simp] theorem State.setLink_lanes (s : State) (n : Nat) (x : LinkMeas) : (s.setLink n x).lanes = s.lanes := rfl
@[simp] theorem State.setLink_cell (s : State) (n : Nat) (x : LinkMeas) : (s.setLink n x).cell = s.cell := rfl
@[simp] theorem State.setLink_rse (s : State) (n : Nat) (x : LinkMeas) : (s.setLink n x).rse = s.rse := rfl
@[simp] theorem State.setLink_cle (s : State) (n : Nat) (x : LinkMeas) : (s.setLink n x).cle = s.cle := rfl
@[simp] theorem State.setLink_se (s : State) (n : Nat) (x : LinkMeas) : (s.setLink n x).se = s.se := rfl
@[simp] theorem State.setLink_bad (s : State) (n : Nat) (x : LinkMeas) : (s.setLink n x).bad = s.bad := rfl
@[simp] theorem State.setLink_soft (s : State) (n : Nat) (x : LinkMeas) : (s.setLink n x).soft = s.soft := rfl
@[simp] theorem State.setLink_pwm (s : State) (n : Nat) (x : LinkMeas) : (s.setLink n x).pwm = s.pwm := rfl
@[simp] theorem State.setLink_adc (s : State) (n : Nat) (x : LinkMeas) : (s.setLink n x).adc = s.adc := rfl
@[simp] theorem State.setLink_tbs (s : State) (n : Nat) (x : LinkMeas) : (s.setLink n x).tbs = s.tbs := rfl
@[simp] theorem State.setLink_eth (s : State) (n : Nat) (x : LinkMeas) : (s.setLink n x).eth = s.eth := rfl
@[simp] theorem State.setLink_acq (s : State) (n : Nat) (x : LinkMeas) : (s.setLink n x).acq = s.acq := rfl
@[simp] theorem State.setLink_red (s : State) (n : Nat) (x : LinkMeas) : (s.setLink n x).red = s.red := rfl
@[simp] theorem State.setLink_alm (s : State) (n : Nat) (x : LinkMeas) : (s.setLink n x).alm = s.alm := rfl
@[simp] theorem State.setLink_field (s : State) (n : Nat) (x : LinkMeas) : (s.setLink n x).field = s.field := rfl
@[simp] theorem State.setLink_safAt (s : State) (n : Nat) (x : LinkMeas) : (s.setLink n x).safAt = s.safAt := rfl
@[simp] theorem State.setLink_sec (s : State) (n : Nat) (x : LinkMeas) : (s.setLink n x).sec = s.sec := rfl
@[simp] theorem State.setLink_store (s : State) (n : Nat) (x : LinkMeas) : (s.setLink n x).store = s.store := rfl
@[simp] theorem State.setLink_freeCtr (s : State) (n : Nat) (x : LinkMeas) : (s.setLink n x).freeCtr = s.freeCtr := rfl
@[simp] theorem State.setLink_pending (s : State) (n : Nat) (x : LinkMeas) : (s.setLink n x).pending = s.pending := rfl
@[simp] theorem State.setLink_get (s : State) (n : Nat) (x : LinkMeas) (g : Fld) : (s.setLink n x).get g = s.get g := rfl
@[simp] theorem State.setLink_on (s : State) (n : Nat) (x : LinkMeas) (g : Fld) : (s.setLink n x).on g = s.on g := rfl

/-! ### setAlign -/

@[simp] theorem State.setAlign_phase (s : State) (a : AlignState) : (s.setAlign a).phase = s.phase := rfl
@[simp] theorem State.setAlign_regs (s : State) (a : AlignState) : (s.setAlign a).regs = s.regs := rfl
@[simp] theorem State.setAlign_staged (s : State) (a : AlignState) : (s.setAlign a).staged = s.staged := rfl
@[simp] theorem State.setAlign_shadow (s : State) (a : AlignState) : (s.setAlign a).shadow = s.shadow := rfl
@[simp] theorem State.setAlign_pendHigh (s : State) (a : AlignState) : (s.setAlign a).pendHigh = s.pendHigh := rfl
@[simp] theorem State.setAlign_resp (s : State) (a : AlignState) : (s.setAlign a).resp = s.resp := rfl
@[simp] theorem State.setAlign_mem (s : State) (a : AlignState) : (s.setAlign a).mem = s.mem := rfl
@[simp] theorem State.setAlign_flash (s : State) (a : AlignState) : (s.setAlign a).flash = s.flash := rfl
@[simp] theorem State.setAlign_pwr (s : State) (a : AlignState) : (s.setAlign a).pwr = s.pwr := rfl
@[simp] theorem State.setAlign_tickNs (s : State) (a : AlignState) : (s.setAlign a).tickNs = s.tickNs := rfl
@[simp] theorem State.setAlign_fcu (s : State) (a : AlignState) : (s.setAlign a).fcu = s.fcu := rfl
@[simp] theorem State.setAlign_dsx (s : State) (a : AlignState) : (s.setAlign a).dsx = s.dsx := rfl
@[simp] theorem State.setAlign_cores (s : State) (a : AlignState) : (s.setAlign a).cores = s.cores := rfl
@[simp] theorem State.setAlign_out (s : State) (a : AlignState) : (s.setAlign a).out = s.out := rfl
@[simp] theorem State.setAlign_tck (s : State) (a : AlignState) : (s.setAlign a).tck = s.tck := rfl
@[simp] theorem State.setAlign_lanes (s : State) (a : AlignState) : (s.setAlign a).lanes = s.lanes := rfl
@[simp] theorem State.setAlign_cell (s : State) (a : AlignState) : (s.setAlign a).cell = s.cell := rfl
@[simp] theorem State.setAlign_rse (s : State) (a : AlignState) : (s.setAlign a).rse = s.rse := rfl
@[simp] theorem State.setAlign_cle (s : State) (a : AlignState) : (s.setAlign a).cle = s.cle := rfl
@[simp] theorem State.setAlign_se (s : State) (a : AlignState) : (s.setAlign a).se = s.se := rfl
@[simp] theorem State.setAlign_bad (s : State) (a : AlignState) : (s.setAlign a).bad = s.bad := rfl
@[simp] theorem State.setAlign_soft (s : State) (a : AlignState) : (s.setAlign a).soft = s.soft := rfl
@[simp] theorem State.setAlign_pwm (s : State) (a : AlignState) : (s.setAlign a).pwm = s.pwm := rfl
@[simp] theorem State.setAlign_adc (s : State) (a : AlignState) : (s.setAlign a).adc = s.adc := rfl
@[simp] theorem State.setAlign_tbs (s : State) (a : AlignState) : (s.setAlign a).tbs = s.tbs := rfl
@[simp] theorem State.setAlign_eth (s : State) (a : AlignState) : (s.setAlign a).eth = s.eth := rfl
@[simp] theorem State.setAlign_acq (s : State) (a : AlignState) : (s.setAlign a).acq = s.acq := rfl
@[simp] theorem State.setAlign_red (s : State) (a : AlignState) : (s.setAlign a).red = s.red := rfl
@[simp] theorem State.setAlign_alm (s : State) (a : AlignState) : (s.setAlign a).alm = s.alm := rfl
@[simp] theorem State.setAlign_field (s : State) (a : AlignState) : (s.setAlign a).field = s.field := rfl
@[simp] theorem State.setAlign_safAt (s : State) (a : AlignState) : (s.setAlign a).safAt = s.safAt := rfl
@[simp] theorem State.setAlign_sec (s : State) (a : AlignState) : (s.setAlign a).sec = s.sec := rfl
@[simp] theorem State.setAlign_store (s : State) (a : AlignState) : (s.setAlign a).store = s.store := rfl
@[simp] theorem State.setAlign_freeCtr (s : State) (a : AlignState) : (s.setAlign a).freeCtr = s.freeCtr := rfl
@[simp] theorem State.setAlign_pending (s : State) (a : AlignState) : (s.setAlign a).pending = s.pending := rfl
@[simp] theorem State.setAlign_get (s : State) (a : AlignState) (g : Fld) : (s.setAlign a).get g = s.get g := rfl
@[simp] theorem State.setAlign_on (s : State) (a : AlignState) (g : Fld) : (s.setAlign a).on g = s.on g := rfl

/-! ### setMove -/

@[simp] theorem State.setMove_phase (s : State) (e : Int) : (s.setMove e).phase = s.phase := rfl
@[simp] theorem State.setMove_regs (s : State) (e : Int) : (s.setMove e).regs = s.regs := rfl
@[simp] theorem State.setMove_staged (s : State) (e : Int) : (s.setMove e).staged = s.staged := rfl
@[simp] theorem State.setMove_shadow (s : State) (e : Int) : (s.setMove e).shadow = s.shadow := rfl
@[simp] theorem State.setMove_pendHigh (s : State) (e : Int) : (s.setMove e).pendHigh = s.pendHigh := rfl
@[simp] theorem State.setMove_resp (s : State) (e : Int) : (s.setMove e).resp = s.resp := rfl
@[simp] theorem State.setMove_mem (s : State) (e : Int) : (s.setMove e).mem = s.mem := rfl
@[simp] theorem State.setMove_flash (s : State) (e : Int) : (s.setMove e).flash = s.flash := rfl
@[simp] theorem State.setMove_pwr (s : State) (e : Int) : (s.setMove e).pwr = s.pwr := rfl
@[simp] theorem State.setMove_tickNs (s : State) (e : Int) : (s.setMove e).tickNs = s.tickNs := rfl
@[simp] theorem State.setMove_fcu (s : State) (e : Int) : (s.setMove e).fcu = s.fcu := rfl
@[simp] theorem State.setMove_dsx (s : State) (e : Int) : (s.setMove e).dsx = s.dsx := rfl
@[simp] theorem State.setMove_cores (s : State) (e : Int) : (s.setMove e).cores = s.cores := rfl
@[simp] theorem State.setMove_out (s : State) (e : Int) : (s.setMove e).out = s.out := rfl
@[simp] theorem State.setMove_lanes (s : State) (e : Int) : (s.setMove e).lanes = s.lanes := rfl
@[simp] theorem State.setMove_azf (s : State) (e : Int) : (s.setMove e).azf = s.azf := rfl
@[simp] theorem State.setMove_cell (s : State) (e : Int) : (s.setMove e).cell = s.cell := rfl
@[simp] theorem State.setMove_rse (s : State) (e : Int) : (s.setMove e).rse = s.rse := rfl
@[simp] theorem State.setMove_cle (s : State) (e : Int) : (s.setMove e).cle = s.cle := rfl
@[simp] theorem State.setMove_se (s : State) (e : Int) : (s.setMove e).se = s.se := rfl
@[simp] theorem State.setMove_bad (s : State) (e : Int) : (s.setMove e).bad = s.bad := rfl
@[simp] theorem State.setMove_soft (s : State) (e : Int) : (s.setMove e).soft = s.soft := rfl
@[simp] theorem State.setMove_pwm (s : State) (e : Int) : (s.setMove e).pwm = s.pwm := rfl
@[simp] theorem State.setMove_adc (s : State) (e : Int) : (s.setMove e).adc = s.adc := rfl
@[simp] theorem State.setMove_tbs (s : State) (e : Int) : (s.setMove e).tbs = s.tbs := rfl
@[simp] theorem State.setMove_eth (s : State) (e : Int) : (s.setMove e).eth = s.eth := rfl
@[simp] theorem State.setMove_acq (s : State) (e : Int) : (s.setMove e).acq = s.acq := rfl
@[simp] theorem State.setMove_red (s : State) (e : Int) : (s.setMove e).red = s.red := rfl
@[simp] theorem State.setMove_alm (s : State) (e : Int) : (s.setMove e).alm = s.alm := rfl
@[simp] theorem State.setMove_field (s : State) (e : Int) : (s.setMove e).field = s.field := rfl
@[simp] theorem State.setMove_safAt (s : State) (e : Int) : (s.setMove e).safAt = s.safAt := rfl
@[simp] theorem State.setMove_sec (s : State) (e : Int) : (s.setMove e).sec = s.sec := rfl
@[simp] theorem State.setMove_store (s : State) (e : Int) : (s.setMove e).store = s.store := rfl
@[simp] theorem State.setMove_freeCtr (s : State) (e : Int) : (s.setMove e).freeCtr = s.freeCtr := rfl
@[simp] theorem State.setMove_pending (s : State) (e : Int) : (s.setMove e).pending = s.pending := rfl
@[simp] theorem State.setMove_get (s : State) (e : Int) (g : Fld) : (s.setMove e).get g = s.get g := rfl
@[simp] theorem State.setMove_on (s : State) (e : Int) (g : Fld) : (s.setMove e).on g = s.on g := rfl

/-! ### setAcq -/

@[simp] theorem State.setAcq_phase (s : State) (f : AcqState → AcqState) : (s.setAcq f).phase = s.phase := rfl
@[simp] theorem State.setAcq_regs (s : State) (f : AcqState → AcqState) : (s.setAcq f).regs = s.regs := rfl
@[simp] theorem State.setAcq_staged (s : State) (f : AcqState → AcqState) : (s.setAcq f).staged = s.staged := rfl
@[simp] theorem State.setAcq_shadow (s : State) (f : AcqState → AcqState) : (s.setAcq f).shadow = s.shadow := rfl
@[simp] theorem State.setAcq_pendHigh (s : State) (f : AcqState → AcqState) : (s.setAcq f).pendHigh = s.pendHigh := rfl
@[simp] theorem State.setAcq_resp (s : State) (f : AcqState → AcqState) : (s.setAcq f).resp = s.resp := rfl
@[simp] theorem State.setAcq_mem (s : State) (f : AcqState → AcqState) : (s.setAcq f).mem = s.mem := rfl
@[simp] theorem State.setAcq_flash (s : State) (f : AcqState → AcqState) : (s.setAcq f).flash = s.flash := rfl
@[simp] theorem State.setAcq_pwr (s : State) (f : AcqState → AcqState) : (s.setAcq f).pwr = s.pwr := rfl
@[simp] theorem State.setAcq_tickNs (s : State) (f : AcqState → AcqState) : (s.setAcq f).tickNs = s.tickNs := rfl
@[simp] theorem State.setAcq_fcu (s : State) (f : AcqState → AcqState) : (s.setAcq f).fcu = s.fcu := rfl
@[simp] theorem State.setAcq_dsx (s : State) (f : AcqState → AcqState) : (s.setAcq f).dsx = s.dsx := rfl
@[simp] theorem State.setAcq_cores (s : State) (f : AcqState → AcqState) : (s.setAcq f).cores = s.cores := rfl
@[simp] theorem State.setAcq_out (s : State) (f : AcqState → AcqState) : (s.setAcq f).out = s.out := rfl
@[simp] theorem State.setAcq_tck (s : State) (f : AcqState → AcqState) : (s.setAcq f).tck = s.tck := rfl
@[simp] theorem State.setAcq_lanes (s : State) (f : AcqState → AcqState) : (s.setAcq f).lanes = s.lanes := rfl
@[simp] theorem State.setAcq_azf (s : State) (f : AcqState → AcqState) : (s.setAcq f).azf = s.azf := rfl
@[simp] theorem State.setAcq_cell (s : State) (f : AcqState → AcqState) : (s.setAcq f).cell = s.cell := rfl
@[simp] theorem State.setAcq_rse (s : State) (f : AcqState → AcqState) : (s.setAcq f).rse = s.rse := rfl
@[simp] theorem State.setAcq_cle (s : State) (f : AcqState → AcqState) : (s.setAcq f).cle = s.cle := rfl
@[simp] theorem State.setAcq_se (s : State) (f : AcqState → AcqState) : (s.setAcq f).se = s.se := rfl
@[simp] theorem State.setAcq_bad (s : State) (f : AcqState → AcqState) : (s.setAcq f).bad = s.bad := rfl
@[simp] theorem State.setAcq_soft (s : State) (f : AcqState → AcqState) : (s.setAcq f).soft = s.soft := rfl
@[simp] theorem State.setAcq_pwm (s : State) (f : AcqState → AcqState) : (s.setAcq f).pwm = s.pwm := rfl
@[simp] theorem State.setAcq_adc (s : State) (f : AcqState → AcqState) : (s.setAcq f).adc = s.adc := rfl
@[simp] theorem State.setAcq_tbs (s : State) (f : AcqState → AcqState) : (s.setAcq f).tbs = s.tbs := rfl
@[simp] theorem State.setAcq_eth (s : State) (f : AcqState → AcqState) : (s.setAcq f).eth = s.eth := rfl
@[simp] theorem State.setAcq_red (s : State) (f : AcqState → AcqState) : (s.setAcq f).red = s.red := rfl
@[simp] theorem State.setAcq_alm (s : State) (f : AcqState → AcqState) : (s.setAcq f).alm = s.alm := rfl
@[simp] theorem State.setAcq_field (s : State) (f : AcqState → AcqState) : (s.setAcq f).field = s.field := rfl
@[simp] theorem State.setAcq_safAt (s : State) (f : AcqState → AcqState) : (s.setAcq f).safAt = s.safAt := rfl
@[simp] theorem State.setAcq_sec (s : State) (f : AcqState → AcqState) : (s.setAcq f).sec = s.sec := rfl
@[simp] theorem State.setAcq_store (s : State) (f : AcqState → AcqState) : (s.setAcq f).store = s.store := rfl
@[simp] theorem State.setAcq_freeCtr (s : State) (f : AcqState → AcqState) : (s.setAcq f).freeCtr = s.freeCtr := rfl
@[simp] theorem State.setAcq_pending (s : State) (f : AcqState → AcqState) : (s.setAcq f).pending = s.pending := rfl
@[simp] theorem State.setAcq_get (s : State) (f : AcqState → AcqState) (g : Fld) : (s.setAcq f).get g = s.get g := rfl
@[simp] theorem State.setAcq_on (s : State) (f : AcqState → AcqState) (g : Fld) : (s.setAcq f).on g = s.on g := rfl

/-! ### setSec -/

@[simp] theorem State.setSec_phase (s : State) (f : SecState → SecState) : (s.setSec f).phase = s.phase := rfl
@[simp] theorem State.setSec_regs (s : State) (f : SecState → SecState) : (s.setSec f).regs = s.regs := rfl
@[simp] theorem State.setSec_staged (s : State) (f : SecState → SecState) : (s.setSec f).staged = s.staged := rfl
@[simp] theorem State.setSec_shadow (s : State) (f : SecState → SecState) : (s.setSec f).shadow = s.shadow := rfl
@[simp] theorem State.setSec_pendHigh (s : State) (f : SecState → SecState) : (s.setSec f).pendHigh = s.pendHigh := rfl
@[simp] theorem State.setSec_resp (s : State) (f : SecState → SecState) : (s.setSec f).resp = s.resp := rfl
@[simp] theorem State.setSec_mem (s : State) (f : SecState → SecState) : (s.setSec f).mem = s.mem := rfl
@[simp] theorem State.setSec_flash (s : State) (f : SecState → SecState) : (s.setSec f).flash = s.flash := rfl
@[simp] theorem State.setSec_pwr (s : State) (f : SecState → SecState) : (s.setSec f).pwr = s.pwr := rfl
@[simp] theorem State.setSec_tickNs (s : State) (f : SecState → SecState) : (s.setSec f).tickNs = s.tickNs := rfl
@[simp] theorem State.setSec_fcu (s : State) (f : SecState → SecState) : (s.setSec f).fcu = s.fcu := rfl
@[simp] theorem State.setSec_dsx (s : State) (f : SecState → SecState) : (s.setSec f).dsx = s.dsx := rfl
@[simp] theorem State.setSec_cores (s : State) (f : SecState → SecState) : (s.setSec f).cores = s.cores := rfl
@[simp] theorem State.setSec_out (s : State) (f : SecState → SecState) : (s.setSec f).out = s.out := rfl
@[simp] theorem State.setSec_tck (s : State) (f : SecState → SecState) : (s.setSec f).tck = s.tck := rfl
@[simp] theorem State.setSec_lanes (s : State) (f : SecState → SecState) : (s.setSec f).lanes = s.lanes := rfl
@[simp] theorem State.setSec_azf (s : State) (f : SecState → SecState) : (s.setSec f).azf = s.azf := rfl
@[simp] theorem State.setSec_cell (s : State) (f : SecState → SecState) : (s.setSec f).cell = s.cell := rfl
@[simp] theorem State.setSec_rse (s : State) (f : SecState → SecState) : (s.setSec f).rse = s.rse := rfl
@[simp] theorem State.setSec_cle (s : State) (f : SecState → SecState) : (s.setSec f).cle = s.cle := rfl
@[simp] theorem State.setSec_se (s : State) (f : SecState → SecState) : (s.setSec f).se = s.se := rfl
@[simp] theorem State.setSec_bad (s : State) (f : SecState → SecState) : (s.setSec f).bad = s.bad := rfl
@[simp] theorem State.setSec_soft (s : State) (f : SecState → SecState) : (s.setSec f).soft = s.soft := rfl
@[simp] theorem State.setSec_pwm (s : State) (f : SecState → SecState) : (s.setSec f).pwm = s.pwm := rfl
@[simp] theorem State.setSec_adc (s : State) (f : SecState → SecState) : (s.setSec f).adc = s.adc := rfl
@[simp] theorem State.setSec_tbs (s : State) (f : SecState → SecState) : (s.setSec f).tbs = s.tbs := rfl
@[simp] theorem State.setSec_eth (s : State) (f : SecState → SecState) : (s.setSec f).eth = s.eth := rfl
@[simp] theorem State.setSec_acq (s : State) (f : SecState → SecState) : (s.setSec f).acq = s.acq := rfl
@[simp] theorem State.setSec_red (s : State) (f : SecState → SecState) : (s.setSec f).red = s.red := rfl
@[simp] theorem State.setSec_alm (s : State) (f : SecState → SecState) : (s.setSec f).alm = s.alm := rfl
@[simp] theorem State.setSec_field (s : State) (f : SecState → SecState) : (s.setSec f).field = s.field := rfl
@[simp] theorem State.setSec_safAt (s : State) (f : SecState → SecState) : (s.setSec f).safAt = s.safAt := rfl
@[simp] theorem State.setSec_store (s : State) (f : SecState → SecState) : (s.setSec f).store = s.store := rfl
@[simp] theorem State.setSec_freeCtr (s : State) (f : SecState → SecState) : (s.setSec f).freeCtr = s.freeCtr := rfl
@[simp] theorem State.setSec_pending (s : State) (f : SecState → SecState) : (s.setSec f).pending = s.pending := rfl
@[simp] theorem State.setSec_get (s : State) (f : SecState → SecState) (g : Fld) : (s.setSec f).get g = s.get g := rfl
@[simp] theorem State.setSec_on (s : State) (f : SecState → SecState) (g : Fld) : (s.setSec f).on g = s.on g := rfl

/-! ### setStore -/

@[simp] theorem State.setStore_phase (s : State) (f : SecStore → SecStore) : (s.setStore f).phase = s.phase := rfl
@[simp] theorem State.setStore_regs (s : State) (f : SecStore → SecStore) : (s.setStore f).regs = s.regs := rfl
@[simp] theorem State.setStore_staged (s : State) (f : SecStore → SecStore) : (s.setStore f).staged = s.staged := rfl
@[simp] theorem State.setStore_shadow (s : State) (f : SecStore → SecStore) : (s.setStore f).shadow = s.shadow := rfl
@[simp] theorem State.setStore_pendHigh (s : State) (f : SecStore → SecStore) : (s.setStore f).pendHigh = s.pendHigh := rfl
@[simp] theorem State.setStore_resp (s : State) (f : SecStore → SecStore) : (s.setStore f).resp = s.resp := rfl
@[simp] theorem State.setStore_mem (s : State) (f : SecStore → SecStore) : (s.setStore f).mem = s.mem := rfl
@[simp] theorem State.setStore_flash (s : State) (f : SecStore → SecStore) : (s.setStore f).flash = s.flash := rfl
@[simp] theorem State.setStore_pwr (s : State) (f : SecStore → SecStore) : (s.setStore f).pwr = s.pwr := rfl
@[simp] theorem State.setStore_tickNs (s : State) (f : SecStore → SecStore) : (s.setStore f).tickNs = s.tickNs := rfl
@[simp] theorem State.setStore_fcu (s : State) (f : SecStore → SecStore) : (s.setStore f).fcu = s.fcu := rfl
@[simp] theorem State.setStore_dsx (s : State) (f : SecStore → SecStore) : (s.setStore f).dsx = s.dsx := rfl
@[simp] theorem State.setStore_cores (s : State) (f : SecStore → SecStore) : (s.setStore f).cores = s.cores := rfl
@[simp] theorem State.setStore_out (s : State) (f : SecStore → SecStore) : (s.setStore f).out = s.out := rfl
@[simp] theorem State.setStore_tck (s : State) (f : SecStore → SecStore) : (s.setStore f).tck = s.tck := rfl
@[simp] theorem State.setStore_lanes (s : State) (f : SecStore → SecStore) : (s.setStore f).lanes = s.lanes := rfl
@[simp] theorem State.setStore_azf (s : State) (f : SecStore → SecStore) : (s.setStore f).azf = s.azf := rfl
@[simp] theorem State.setStore_cell (s : State) (f : SecStore → SecStore) : (s.setStore f).cell = s.cell := rfl
@[simp] theorem State.setStore_rse (s : State) (f : SecStore → SecStore) : (s.setStore f).rse = s.rse := rfl
@[simp] theorem State.setStore_cle (s : State) (f : SecStore → SecStore) : (s.setStore f).cle = s.cle := rfl
@[simp] theorem State.setStore_se (s : State) (f : SecStore → SecStore) : (s.setStore f).se = s.se := rfl
@[simp] theorem State.setStore_bad (s : State) (f : SecStore → SecStore) : (s.setStore f).bad = s.bad := rfl
@[simp] theorem State.setStore_soft (s : State) (f : SecStore → SecStore) : (s.setStore f).soft = s.soft := rfl
@[simp] theorem State.setStore_pwm (s : State) (f : SecStore → SecStore) : (s.setStore f).pwm = s.pwm := rfl
@[simp] theorem State.setStore_adc (s : State) (f : SecStore → SecStore) : (s.setStore f).adc = s.adc := rfl
@[simp] theorem State.setStore_tbs (s : State) (f : SecStore → SecStore) : (s.setStore f).tbs = s.tbs := rfl
@[simp] theorem State.setStore_eth (s : State) (f : SecStore → SecStore) : (s.setStore f).eth = s.eth := rfl
@[simp] theorem State.setStore_acq (s : State) (f : SecStore → SecStore) : (s.setStore f).acq = s.acq := rfl
@[simp] theorem State.setStore_red (s : State) (f : SecStore → SecStore) : (s.setStore f).red = s.red := rfl
@[simp] theorem State.setStore_alm (s : State) (f : SecStore → SecStore) : (s.setStore f).alm = s.alm := rfl
@[simp] theorem State.setStore_field (s : State) (f : SecStore → SecStore) : (s.setStore f).field = s.field := rfl
@[simp] theorem State.setStore_safAt (s : State) (f : SecStore → SecStore) : (s.setStore f).safAt = s.safAt := rfl
@[simp] theorem State.setStore_sec (s : State) (f : SecStore → SecStore) : (s.setStore f).sec = s.sec := rfl
@[simp] theorem State.setStore_freeCtr (s : State) (f : SecStore → SecStore) : (s.setStore f).freeCtr = s.freeCtr := rfl
@[simp] theorem State.setStore_pending (s : State) (f : SecStore → SecStore) : (s.setStore f).pending = s.pending := rfl
@[simp] theorem State.setStore_get (s : State) (f : SecStore → SecStore) (g : Fld) : (s.setStore f).get g = s.get g := rfl
@[simp] theorem State.setStore_on (s : State) (f : SecStore → SecStore) (g : Fld) : (s.setStore f).on g = s.on g := rfl

/-! ### setSlot -/

@[simp] theorem State.setSlot_phase (s : State) (c : Nat) (d : Option Desc) : (s.setSlot c d).phase = s.phase := rfl
@[simp] theorem State.setSlot_regs (s : State) (c : Nat) (d : Option Desc) : (s.setSlot c d).regs = s.regs := rfl
@[simp] theorem State.setSlot_staged (s : State) (c : Nat) (d : Option Desc) : (s.setSlot c d).staged = s.staged := rfl
@[simp] theorem State.setSlot_shadow (s : State) (c : Nat) (d : Option Desc) : (s.setSlot c d).shadow = s.shadow := rfl
@[simp] theorem State.setSlot_pendHigh (s : State) (c : Nat) (d : Option Desc) : (s.setSlot c d).pendHigh = s.pendHigh := rfl
@[simp] theorem State.setSlot_resp (s : State) (c : Nat) (d : Option Desc) : (s.setSlot c d).resp = s.resp := rfl
@[simp] theorem State.setSlot_mem (s : State) (c : Nat) (d : Option Desc) : (s.setSlot c d).mem = s.mem := rfl
@[simp] theorem State.setSlot_flash (s : State) (c : Nat) (d : Option Desc) : (s.setSlot c d).flash = s.flash := rfl
@[simp] theorem State.setSlot_pwr (s : State) (c : Nat) (d : Option Desc) : (s.setSlot c d).pwr = s.pwr := rfl
@[simp] theorem State.setSlot_tickNs (s : State) (c : Nat) (d : Option Desc) : (s.setSlot c d).tickNs = s.tickNs := rfl
@[simp] theorem State.setSlot_fcu (s : State) (c : Nat) (d : Option Desc) : (s.setSlot c d).fcu = s.fcu := rfl
@[simp] theorem State.setSlot_cores (s : State) (c : Nat) (d : Option Desc) : (s.setSlot c d).cores = s.cores := rfl
@[simp] theorem State.setSlot_out (s : State) (c : Nat) (d : Option Desc) : (s.setSlot c d).out = s.out := rfl
@[simp] theorem State.setSlot_tck (s : State) (c : Nat) (d : Option Desc) : (s.setSlot c d).tck = s.tck := rfl
@[simp] theorem State.setSlot_lanes (s : State) (c : Nat) (d : Option Desc) : (s.setSlot c d).lanes = s.lanes := rfl
@[simp] theorem State.setSlot_azf (s : State) (c : Nat) (d : Option Desc) : (s.setSlot c d).azf = s.azf := rfl
@[simp] theorem State.setSlot_cell (s : State) (c : Nat) (d : Option Desc) : (s.setSlot c d).cell = s.cell := rfl
@[simp] theorem State.setSlot_rse (s : State) (c : Nat) (d : Option Desc) : (s.setSlot c d).rse = s.rse := rfl
@[simp] theorem State.setSlot_cle (s : State) (c : Nat) (d : Option Desc) : (s.setSlot c d).cle = s.cle := rfl
@[simp] theorem State.setSlot_se (s : State) (c : Nat) (d : Option Desc) : (s.setSlot c d).se = s.se := rfl
@[simp] theorem State.setSlot_bad (s : State) (c : Nat) (d : Option Desc) : (s.setSlot c d).bad = s.bad := rfl
@[simp] theorem State.setSlot_soft (s : State) (c : Nat) (d : Option Desc) : (s.setSlot c d).soft = s.soft := rfl
@[simp] theorem State.setSlot_pwm (s : State) (c : Nat) (d : Option Desc) : (s.setSlot c d).pwm = s.pwm := rfl
@[simp] theorem State.setSlot_adc (s : State) (c : Nat) (d : Option Desc) : (s.setSlot c d).adc = s.adc := rfl
@[simp] theorem State.setSlot_tbs (s : State) (c : Nat) (d : Option Desc) : (s.setSlot c d).tbs = s.tbs := rfl
@[simp] theorem State.setSlot_eth (s : State) (c : Nat) (d : Option Desc) : (s.setSlot c d).eth = s.eth := rfl
@[simp] theorem State.setSlot_acq (s : State) (c : Nat) (d : Option Desc) : (s.setSlot c d).acq = s.acq := rfl
@[simp] theorem State.setSlot_red (s : State) (c : Nat) (d : Option Desc) : (s.setSlot c d).red = s.red := rfl
@[simp] theorem State.setSlot_alm (s : State) (c : Nat) (d : Option Desc) : (s.setSlot c d).alm = s.alm := rfl
@[simp] theorem State.setSlot_field (s : State) (c : Nat) (d : Option Desc) : (s.setSlot c d).field = s.field := rfl
@[simp] theorem State.setSlot_safAt (s : State) (c : Nat) (d : Option Desc) : (s.setSlot c d).safAt = s.safAt := rfl
@[simp] theorem State.setSlot_sec (s : State) (c : Nat) (d : Option Desc) : (s.setSlot c d).sec = s.sec := rfl
@[simp] theorem State.setSlot_store (s : State) (c : Nat) (d : Option Desc) : (s.setSlot c d).store = s.store := rfl
@[simp] theorem State.setSlot_freeCtr (s : State) (c : Nat) (d : Option Desc) : (s.setSlot c d).freeCtr = s.freeCtr := rfl
@[simp] theorem State.setSlot_pending (s : State) (c : Nat) (d : Option Desc) : (s.setSlot c d).pending = s.pending := rfl
@[simp] theorem State.setSlot_get (s : State) (c : Nat) (d : Option Desc) (g : Fld) : (s.setSlot c d).get g = s.get g := rfl
@[simp] theorem State.setSlot_on (s : State) (c : Nat) (d : Option Desc) (g : Fld) : (s.setSlot c d).on g = s.on g := rfl

/-! ### setHeld -/

@[simp] theorem State.setHeld_phase (s : State) (c : Nat) (h : Option Held) : (s.setHeld c h).phase = s.phase := rfl
@[simp] theorem State.setHeld_regs (s : State) (c : Nat) (h : Option Held) : (s.setHeld c h).regs = s.regs := rfl
@[simp] theorem State.setHeld_staged (s : State) (c : Nat) (h : Option Held) : (s.setHeld c h).staged = s.staged := rfl
@[simp] theorem State.setHeld_shadow (s : State) (c : Nat) (h : Option Held) : (s.setHeld c h).shadow = s.shadow := rfl
@[simp] theorem State.setHeld_pendHigh (s : State) (c : Nat) (h : Option Held) : (s.setHeld c h).pendHigh = s.pendHigh := rfl
@[simp] theorem State.setHeld_resp (s : State) (c : Nat) (h : Option Held) : (s.setHeld c h).resp = s.resp := rfl
@[simp] theorem State.setHeld_mem (s : State) (c : Nat) (h : Option Held) : (s.setHeld c h).mem = s.mem := rfl
@[simp] theorem State.setHeld_flash (s : State) (c : Nat) (h : Option Held) : (s.setHeld c h).flash = s.flash := rfl
@[simp] theorem State.setHeld_pwr (s : State) (c : Nat) (h : Option Held) : (s.setHeld c h).pwr = s.pwr := rfl
@[simp] theorem State.setHeld_tickNs (s : State) (c : Nat) (h : Option Held) : (s.setHeld c h).tickNs = s.tickNs := rfl
@[simp] theorem State.setHeld_fcu (s : State) (c : Nat) (h : Option Held) : (s.setHeld c h).fcu = s.fcu := rfl
@[simp] theorem State.setHeld_cores (s : State) (c : Nat) (h : Option Held) : (s.setHeld c h).cores = s.cores := rfl
@[simp] theorem State.setHeld_out (s : State) (c : Nat) (h : Option Held) : (s.setHeld c h).out = s.out := rfl
@[simp] theorem State.setHeld_tck (s : State) (c : Nat) (h : Option Held) : (s.setHeld c h).tck = s.tck := rfl
@[simp] theorem State.setHeld_lanes (s : State) (c : Nat) (h : Option Held) : (s.setHeld c h).lanes = s.lanes := rfl
@[simp] theorem State.setHeld_azf (s : State) (c : Nat) (h : Option Held) : (s.setHeld c h).azf = s.azf := rfl
@[simp] theorem State.setHeld_cell (s : State) (c : Nat) (h : Option Held) : (s.setHeld c h).cell = s.cell := rfl
@[simp] theorem State.setHeld_rse (s : State) (c : Nat) (h : Option Held) : (s.setHeld c h).rse = s.rse := rfl
@[simp] theorem State.setHeld_cle (s : State) (c : Nat) (h : Option Held) : (s.setHeld c h).cle = s.cle := rfl
@[simp] theorem State.setHeld_se (s : State) (c : Nat) (h : Option Held) : (s.setHeld c h).se = s.se := rfl
@[simp] theorem State.setHeld_bad (s : State) (c : Nat) (h : Option Held) : (s.setHeld c h).bad = s.bad := rfl
@[simp] theorem State.setHeld_soft (s : State) (c : Nat) (h : Option Held) : (s.setHeld c h).soft = s.soft := rfl
@[simp] theorem State.setHeld_pwm (s : State) (c : Nat) (h : Option Held) : (s.setHeld c h).pwm = s.pwm := rfl
@[simp] theorem State.setHeld_adc (s : State) (c : Nat) (h : Option Held) : (s.setHeld c h).adc = s.adc := rfl
@[simp] theorem State.setHeld_tbs (s : State) (c : Nat) (h : Option Held) : (s.setHeld c h).tbs = s.tbs := rfl
@[simp] theorem State.setHeld_eth (s : State) (c : Nat) (h : Option Held) : (s.setHeld c h).eth = s.eth := rfl
@[simp] theorem State.setHeld_acq (s : State) (c : Nat) (h : Option Held) : (s.setHeld c h).acq = s.acq := rfl
@[simp] theorem State.setHeld_red (s : State) (c : Nat) (h : Option Held) : (s.setHeld c h).red = s.red := rfl
@[simp] theorem State.setHeld_alm (s : State) (c : Nat) (h : Option Held) : (s.setHeld c h).alm = s.alm := rfl
@[simp] theorem State.setHeld_field (s : State) (c : Nat) (h : Option Held) : (s.setHeld c h).field = s.field := rfl
@[simp] theorem State.setHeld_safAt (s : State) (c : Nat) (h : Option Held) : (s.setHeld c h).safAt = s.safAt := rfl
@[simp] theorem State.setHeld_sec (s : State) (c : Nat) (h : Option Held) : (s.setHeld c h).sec = s.sec := rfl
@[simp] theorem State.setHeld_store (s : State) (c : Nat) (h : Option Held) : (s.setHeld c h).store = s.store := rfl
@[simp] theorem State.setHeld_freeCtr (s : State) (c : Nat) (h : Option Held) : (s.setHeld c h).freeCtr = s.freeCtr := rfl
@[simp] theorem State.setHeld_pending (s : State) (c : Nat) (h : Option Held) : (s.setHeld c h).pending = s.pending := rfl
@[simp] theorem State.setHeld_get (s : State) (c : Nat) (h : Option Held) (g : Fld) : (s.setHeld c h).get g = s.get g := rfl
@[simp] theorem State.setHeld_on (s : State) (c : Nat) (h : Option Held) (g : Fld) : (s.setHeld c h).on g = s.on g := rfl

/-! ### setQueue -/

@[simp] theorem State.setQueue_phase (s : State) (q : List Desc) : (s.setQueue q).phase = s.phase := rfl
@[simp] theorem State.setQueue_regs (s : State) (q : List Desc) : (s.setQueue q).regs = s.regs := rfl
@[simp] theorem State.setQueue_staged (s : State) (q : List Desc) : (s.setQueue q).staged = s.staged := rfl
@[simp] theorem State.setQueue_shadow (s : State) (q : List Desc) : (s.setQueue q).shadow = s.shadow := rfl
@[simp] theorem State.setQueue_pendHigh (s : State) (q : List Desc) : (s.setQueue q).pendHigh = s.pendHigh := rfl
@[simp] theorem State.setQueue_resp (s : State) (q : List Desc) : (s.setQueue q).resp = s.resp := rfl
@[simp] theorem State.setQueue_mem (s : State) (q : List Desc) : (s.setQueue q).mem = s.mem := rfl
@[simp] theorem State.setQueue_flash (s : State) (q : List Desc) : (s.setQueue q).flash = s.flash := rfl
@[simp] theorem State.setQueue_pwr (s : State) (q : List Desc) : (s.setQueue q).pwr = s.pwr := rfl
@[simp] theorem State.setQueue_tickNs (s : State) (q : List Desc) : (s.setQueue q).tickNs = s.tickNs := rfl
@[simp] theorem State.setQueue_fcu (s : State) (q : List Desc) : (s.setQueue q).fcu = s.fcu := rfl
@[simp] theorem State.setQueue_cores (s : State) (q : List Desc) : (s.setQueue q).cores = s.cores := rfl
@[simp] theorem State.setQueue_out (s : State) (q : List Desc) : (s.setQueue q).out = s.out := rfl
@[simp] theorem State.setQueue_tck (s : State) (q : List Desc) : (s.setQueue q).tck = s.tck := rfl
@[simp] theorem State.setQueue_lanes (s : State) (q : List Desc) : (s.setQueue q).lanes = s.lanes := rfl
@[simp] theorem State.setQueue_azf (s : State) (q : List Desc) : (s.setQueue q).azf = s.azf := rfl
@[simp] theorem State.setQueue_cell (s : State) (q : List Desc) : (s.setQueue q).cell = s.cell := rfl
@[simp] theorem State.setQueue_rse (s : State) (q : List Desc) : (s.setQueue q).rse = s.rse := rfl
@[simp] theorem State.setQueue_cle (s : State) (q : List Desc) : (s.setQueue q).cle = s.cle := rfl
@[simp] theorem State.setQueue_se (s : State) (q : List Desc) : (s.setQueue q).se = s.se := rfl
@[simp] theorem State.setQueue_bad (s : State) (q : List Desc) : (s.setQueue q).bad = s.bad := rfl
@[simp] theorem State.setQueue_soft (s : State) (q : List Desc) : (s.setQueue q).soft = s.soft := rfl
@[simp] theorem State.setQueue_pwm (s : State) (q : List Desc) : (s.setQueue q).pwm = s.pwm := rfl
@[simp] theorem State.setQueue_adc (s : State) (q : List Desc) : (s.setQueue q).adc = s.adc := rfl
@[simp] theorem State.setQueue_tbs (s : State) (q : List Desc) : (s.setQueue q).tbs = s.tbs := rfl
@[simp] theorem State.setQueue_eth (s : State) (q : List Desc) : (s.setQueue q).eth = s.eth := rfl
@[simp] theorem State.setQueue_acq (s : State) (q : List Desc) : (s.setQueue q).acq = s.acq := rfl
@[simp] theorem State.setQueue_red (s : State) (q : List Desc) : (s.setQueue q).red = s.red := rfl
@[simp] theorem State.setQueue_alm (s : State) (q : List Desc) : (s.setQueue q).alm = s.alm := rfl
@[simp] theorem State.setQueue_field (s : State) (q : List Desc) : (s.setQueue q).field = s.field := rfl
@[simp] theorem State.setQueue_safAt (s : State) (q : List Desc) : (s.setQueue q).safAt = s.safAt := rfl
@[simp] theorem State.setQueue_sec (s : State) (q : List Desc) : (s.setQueue q).sec = s.sec := rfl
@[simp] theorem State.setQueue_store (s : State) (q : List Desc) : (s.setQueue q).store = s.store := rfl
@[simp] theorem State.setQueue_freeCtr (s : State) (q : List Desc) : (s.setQueue q).freeCtr = s.freeCtr := rfl
@[simp] theorem State.setQueue_pending (s : State) (q : List Desc) : (s.setQueue q).pending = s.pending := rfl
@[simp] theorem State.setQueue_get (s : State) (q : List Desc) (g : Fld) : (s.setQueue q).get g = s.get g := rfl
@[simp] theorem State.setQueue_on (s : State) (q : List Desc) (g : Fld) : (s.setQueue q).on g = s.on g := rfl

/-! ### setTimer -/

@[simp] theorem State.setTimer_phase (s : State) (n : Nat) (v : Option Nat) : (s.setTimer n v).phase = s.phase := rfl
@[simp] theorem State.setTimer_regs (s : State) (n : Nat) (v : Option Nat) : (s.setTimer n v).regs = s.regs := rfl
@[simp] theorem State.setTimer_staged (s : State) (n : Nat) (v : Option Nat) : (s.setTimer n v).staged = s.staged := rfl
@[simp] theorem State.setTimer_shadow (s : State) (n : Nat) (v : Option Nat) : (s.setTimer n v).shadow = s.shadow := rfl
@[simp] theorem State.setTimer_pendHigh (s : State) (n : Nat) (v : Option Nat) : (s.setTimer n v).pendHigh = s.pendHigh := rfl
@[simp] theorem State.setTimer_resp (s : State) (n : Nat) (v : Option Nat) : (s.setTimer n v).resp = s.resp := rfl
@[simp] theorem State.setTimer_mem (s : State) (n : Nat) (v : Option Nat) : (s.setTimer n v).mem = s.mem := rfl
@[simp] theorem State.setTimer_flash (s : State) (n : Nat) (v : Option Nat) : (s.setTimer n v).flash = s.flash := rfl
@[simp] theorem State.setTimer_pwr (s : State) (n : Nat) (v : Option Nat) : (s.setTimer n v).pwr = s.pwr := rfl
@[simp] theorem State.setTimer_tickNs (s : State) (n : Nat) (v : Option Nat) : (s.setTimer n v).tickNs = s.tickNs := rfl
@[simp] theorem State.setTimer_fcu (s : State) (n : Nat) (v : Option Nat) : (s.setTimer n v).fcu = s.fcu := rfl
@[simp] theorem State.setTimer_cores (s : State) (n : Nat) (v : Option Nat) : (s.setTimer n v).cores = s.cores := rfl
@[simp] theorem State.setTimer_out (s : State) (n : Nat) (v : Option Nat) : (s.setTimer n v).out = s.out := rfl
@[simp] theorem State.setTimer_tck (s : State) (n : Nat) (v : Option Nat) : (s.setTimer n v).tck = s.tck := rfl
@[simp] theorem State.setTimer_lanes (s : State) (n : Nat) (v : Option Nat) : (s.setTimer n v).lanes = s.lanes := rfl
@[simp] theorem State.setTimer_azf (s : State) (n : Nat) (v : Option Nat) : (s.setTimer n v).azf = s.azf := rfl
@[simp] theorem State.setTimer_cell (s : State) (n : Nat) (v : Option Nat) : (s.setTimer n v).cell = s.cell := rfl
@[simp] theorem State.setTimer_rse (s : State) (n : Nat) (v : Option Nat) : (s.setTimer n v).rse = s.rse := rfl
@[simp] theorem State.setTimer_cle (s : State) (n : Nat) (v : Option Nat) : (s.setTimer n v).cle = s.cle := rfl
@[simp] theorem State.setTimer_se (s : State) (n : Nat) (v : Option Nat) : (s.setTimer n v).se = s.se := rfl
@[simp] theorem State.setTimer_bad (s : State) (n : Nat) (v : Option Nat) : (s.setTimer n v).bad = s.bad := rfl
@[simp] theorem State.setTimer_soft (s : State) (n : Nat) (v : Option Nat) : (s.setTimer n v).soft = s.soft := rfl
@[simp] theorem State.setTimer_pwm (s : State) (n : Nat) (v : Option Nat) : (s.setTimer n v).pwm = s.pwm := rfl
@[simp] theorem State.setTimer_adc (s : State) (n : Nat) (v : Option Nat) : (s.setTimer n v).adc = s.adc := rfl
@[simp] theorem State.setTimer_tbs (s : State) (n : Nat) (v : Option Nat) : (s.setTimer n v).tbs = s.tbs := rfl
@[simp] theorem State.setTimer_eth (s : State) (n : Nat) (v : Option Nat) : (s.setTimer n v).eth = s.eth := rfl
@[simp] theorem State.setTimer_acq (s : State) (n : Nat) (v : Option Nat) : (s.setTimer n v).acq = s.acq := rfl
@[simp] theorem State.setTimer_red (s : State) (n : Nat) (v : Option Nat) : (s.setTimer n v).red = s.red := rfl
@[simp] theorem State.setTimer_alm (s : State) (n : Nat) (v : Option Nat) : (s.setTimer n v).alm = s.alm := rfl
@[simp] theorem State.setTimer_field (s : State) (n : Nat) (v : Option Nat) : (s.setTimer n v).field = s.field := rfl
@[simp] theorem State.setTimer_safAt (s : State) (n : Nat) (v : Option Nat) : (s.setTimer n v).safAt = s.safAt := rfl
@[simp] theorem State.setTimer_sec (s : State) (n : Nat) (v : Option Nat) : (s.setTimer n v).sec = s.sec := rfl
@[simp] theorem State.setTimer_store (s : State) (n : Nat) (v : Option Nat) : (s.setTimer n v).store = s.store := rfl
@[simp] theorem State.setTimer_freeCtr (s : State) (n : Nat) (v : Option Nat) : (s.setTimer n v).freeCtr = s.freeCtr := rfl
@[simp] theorem State.setTimer_pending (s : State) (n : Nat) (v : Option Nat) : (s.setTimer n v).pending = s.pending := rfl
@[simp] theorem State.setTimer_get (s : State) (n : Nat) (v : Option Nat) (g : Fld) : (s.setTimer n v).get g = s.get g := rfl
@[simp] theorem State.setTimer_on (s : State) (n : Nat) (v : Option Nat) (g : Fld) : (s.setTimer n v).on g = s.on g := rfl

/-! ### setEnc -/

@[simp] theorem State.setEnc_phase (s : State) (n : Nat) (x : EncChan) : (s.setEnc n x).phase = s.phase := rfl
@[simp] theorem State.setEnc_regs (s : State) (n : Nat) (x : EncChan) : (s.setEnc n x).regs = s.regs := rfl
@[simp] theorem State.setEnc_staged (s : State) (n : Nat) (x : EncChan) : (s.setEnc n x).staged = s.staged := rfl
@[simp] theorem State.setEnc_shadow (s : State) (n : Nat) (x : EncChan) : (s.setEnc n x).shadow = s.shadow := rfl
@[simp] theorem State.setEnc_pendHigh (s : State) (n : Nat) (x : EncChan) : (s.setEnc n x).pendHigh = s.pendHigh := rfl
@[simp] theorem State.setEnc_resp (s : State) (n : Nat) (x : EncChan) : (s.setEnc n x).resp = s.resp := rfl
@[simp] theorem State.setEnc_mem (s : State) (n : Nat) (x : EncChan) : (s.setEnc n x).mem = s.mem := rfl
@[simp] theorem State.setEnc_flash (s : State) (n : Nat) (x : EncChan) : (s.setEnc n x).flash = s.flash := rfl
@[simp] theorem State.setEnc_pwr (s : State) (n : Nat) (x : EncChan) : (s.setEnc n x).pwr = s.pwr := rfl
@[simp] theorem State.setEnc_tickNs (s : State) (n : Nat) (x : EncChan) : (s.setEnc n x).tickNs = s.tickNs := rfl
@[simp] theorem State.setEnc_fcu (s : State) (n : Nat) (x : EncChan) : (s.setEnc n x).fcu = s.fcu := rfl
@[simp] theorem State.setEnc_dsx (s : State) (n : Nat) (x : EncChan) : (s.setEnc n x).dsx = s.dsx := rfl
@[simp] theorem State.setEnc_cores (s : State) (n : Nat) (x : EncChan) : (s.setEnc n x).cores = s.cores := rfl
@[simp] theorem State.setEnc_out (s : State) (n : Nat) (x : EncChan) : (s.setEnc n x).out = s.out := rfl
@[simp] theorem State.setEnc_tck (s : State) (n : Nat) (x : EncChan) : (s.setEnc n x).tck = s.tck := rfl
@[simp] theorem State.setEnc_lanes (s : State) (n : Nat) (x : EncChan) : (s.setEnc n x).lanes = s.lanes := rfl
@[simp] theorem State.setEnc_azf (s : State) (n : Nat) (x : EncChan) : (s.setEnc n x).azf = s.azf := rfl
@[simp] theorem State.setEnc_cell (s : State) (n : Nat) (x : EncChan) : (s.setEnc n x).cell = s.cell := rfl
@[simp] theorem State.setEnc_rse (s : State) (n : Nat) (x : EncChan) : (s.setEnc n x).rse = s.rse := rfl
@[simp] theorem State.setEnc_cle (s : State) (n : Nat) (x : EncChan) : (s.setEnc n x).cle = s.cle := rfl
@[simp] theorem State.setEnc_se (s : State) (n : Nat) (x : EncChan) : (s.setEnc n x).se = s.se := rfl
@[simp] theorem State.setEnc_bad (s : State) (n : Nat) (x : EncChan) : (s.setEnc n x).bad = s.bad := rfl
@[simp] theorem State.setEnc_soft (s : State) (n : Nat) (x : EncChan) : (s.setEnc n x).soft = s.soft := rfl
@[simp] theorem State.setEnc_pwm (s : State) (n : Nat) (x : EncChan) : (s.setEnc n x).pwm = s.pwm := rfl
@[simp] theorem State.setEnc_adc (s : State) (n : Nat) (x : EncChan) : (s.setEnc n x).adc = s.adc := rfl
@[simp] theorem State.setEnc_tbs (s : State) (n : Nat) (x : EncChan) : (s.setEnc n x).tbs = s.tbs := rfl
@[simp] theorem State.setEnc_eth (s : State) (n : Nat) (x : EncChan) : (s.setEnc n x).eth = s.eth := rfl
@[simp] theorem State.setEnc_acq (s : State) (n : Nat) (x : EncChan) : (s.setEnc n x).acq = s.acq := rfl
@[simp] theorem State.setEnc_red (s : State) (n : Nat) (x : EncChan) : (s.setEnc n x).red = s.red := rfl
@[simp] theorem State.setEnc_alm (s : State) (n : Nat) (x : EncChan) : (s.setEnc n x).alm = s.alm := rfl
@[simp] theorem State.setEnc_safAt (s : State) (n : Nat) (x : EncChan) : (s.setEnc n x).safAt = s.safAt := rfl
@[simp] theorem State.setEnc_sec (s : State) (n : Nat) (x : EncChan) : (s.setEnc n x).sec = s.sec := rfl
@[simp] theorem State.setEnc_store (s : State) (n : Nat) (x : EncChan) : (s.setEnc n x).store = s.store := rfl
@[simp] theorem State.setEnc_freeCtr (s : State) (n : Nat) (x : EncChan) : (s.setEnc n x).freeCtr = s.freeCtr := rfl
@[simp] theorem State.setEnc_pending (s : State) (n : Nat) (x : EncChan) : (s.setEnc n x).pending = s.pending := rfl
@[simp] theorem State.setEnc_get (s : State) (n : Nat) (x : EncChan) (g : Fld) : (s.setEnc n x).get g = s.get g := rfl
@[simp] theorem State.setEnc_on (s : State) (n : Nat) (x : EncChan) (g : Fld) : (s.setEnc n x).on g = s.on g := rfl

/-! ### setSaf -/

@[simp] theorem State.setSaf_phase (s : State) (c : Nat) (h : SafChan) : (s.setSaf c h).phase = s.phase := rfl
@[simp] theorem State.setSaf_regs (s : State) (c : Nat) (h : SafChan) : (s.setSaf c h).regs = s.regs := rfl
@[simp] theorem State.setSaf_staged (s : State) (c : Nat) (h : SafChan) : (s.setSaf c h).staged = s.staged := rfl
@[simp] theorem State.setSaf_shadow (s : State) (c : Nat) (h : SafChan) : (s.setSaf c h).shadow = s.shadow := rfl
@[simp] theorem State.setSaf_pendHigh (s : State) (c : Nat) (h : SafChan) : (s.setSaf c h).pendHigh = s.pendHigh := rfl
@[simp] theorem State.setSaf_resp (s : State) (c : Nat) (h : SafChan) : (s.setSaf c h).resp = s.resp := rfl
@[simp] theorem State.setSaf_mem (s : State) (c : Nat) (h : SafChan) : (s.setSaf c h).mem = s.mem := rfl
@[simp] theorem State.setSaf_flash (s : State) (c : Nat) (h : SafChan) : (s.setSaf c h).flash = s.flash := rfl
@[simp] theorem State.setSaf_pwr (s : State) (c : Nat) (h : SafChan) : (s.setSaf c h).pwr = s.pwr := rfl
@[simp] theorem State.setSaf_tickNs (s : State) (c : Nat) (h : SafChan) : (s.setSaf c h).tickNs = s.tickNs := rfl
@[simp] theorem State.setSaf_fcu (s : State) (c : Nat) (h : SafChan) : (s.setSaf c h).fcu = s.fcu := rfl
@[simp] theorem State.setSaf_dsx (s : State) (c : Nat) (h : SafChan) : (s.setSaf c h).dsx = s.dsx := rfl
@[simp] theorem State.setSaf_cores (s : State) (c : Nat) (h : SafChan) : (s.setSaf c h).cores = s.cores := rfl
@[simp] theorem State.setSaf_out (s : State) (c : Nat) (h : SafChan) : (s.setSaf c h).out = s.out := rfl
@[simp] theorem State.setSaf_tck (s : State) (c : Nat) (h : SafChan) : (s.setSaf c h).tck = s.tck := rfl
@[simp] theorem State.setSaf_lanes (s : State) (c : Nat) (h : SafChan) : (s.setSaf c h).lanes = s.lanes := rfl
@[simp] theorem State.setSaf_azf (s : State) (c : Nat) (h : SafChan) : (s.setSaf c h).azf = s.azf := rfl
@[simp] theorem State.setSaf_cell (s : State) (c : Nat) (h : SafChan) : (s.setSaf c h).cell = s.cell := rfl
@[simp] theorem State.setSaf_rse (s : State) (c : Nat) (h : SafChan) : (s.setSaf c h).rse = s.rse := rfl
@[simp] theorem State.setSaf_cle (s : State) (c : Nat) (h : SafChan) : (s.setSaf c h).cle = s.cle := rfl
@[simp] theorem State.setSaf_se (s : State) (c : Nat) (h : SafChan) : (s.setSaf c h).se = s.se := rfl
@[simp] theorem State.setSaf_bad (s : State) (c : Nat) (h : SafChan) : (s.setSaf c h).bad = s.bad := rfl
@[simp] theorem State.setSaf_soft (s : State) (c : Nat) (h : SafChan) : (s.setSaf c h).soft = s.soft := rfl
@[simp] theorem State.setSaf_pwm (s : State) (c : Nat) (h : SafChan) : (s.setSaf c h).pwm = s.pwm := rfl
@[simp] theorem State.setSaf_adc (s : State) (c : Nat) (h : SafChan) : (s.setSaf c h).adc = s.adc := rfl
@[simp] theorem State.setSaf_tbs (s : State) (c : Nat) (h : SafChan) : (s.setSaf c h).tbs = s.tbs := rfl
@[simp] theorem State.setSaf_eth (s : State) (c : Nat) (h : SafChan) : (s.setSaf c h).eth = s.eth := rfl
@[simp] theorem State.setSaf_acq (s : State) (c : Nat) (h : SafChan) : (s.setSaf c h).acq = s.acq := rfl
@[simp] theorem State.setSaf_red (s : State) (c : Nat) (h : SafChan) : (s.setSaf c h).red = s.red := rfl
@[simp] theorem State.setSaf_alm (s : State) (c : Nat) (h : SafChan) : (s.setSaf c h).alm = s.alm := rfl
@[simp] theorem State.setSaf_safAt (s : State) (c : Nat) (h : SafChan) : (s.setSaf c h).safAt = s.safAt := rfl
@[simp] theorem State.setSaf_sec (s : State) (c : Nat) (h : SafChan) : (s.setSaf c h).sec = s.sec := rfl
@[simp] theorem State.setSaf_store (s : State) (c : Nat) (h : SafChan) : (s.setSaf c h).store = s.store := rfl
@[simp] theorem State.setSaf_freeCtr (s : State) (c : Nat) (h : SafChan) : (s.setSaf c h).freeCtr = s.freeCtr := rfl
@[simp] theorem State.setSaf_pending (s : State) (c : Nat) (h : SafChan) : (s.setSaf c h).pending = s.pending := rfl
@[simp] theorem State.setSaf_get (s : State) (c : Nat) (h : SafChan) (g : Fld) : (s.setSaf c h).get g = s.get g := rfl
@[simp] theorem State.setSaf_on (s : State) (c : Nat) (h : SafChan) (g : Fld) : (s.setSaf c h).on g = s.on g := rfl

/-! ### heal -/

@[simp] theorem State.heal_phase (s : State) (a : Nat) : (s.heal a).phase = s.phase := rfl
@[simp] theorem State.heal_staged (s : State) (a : Nat) : (s.heal a).staged = s.staged := rfl
@[simp] theorem State.heal_shadow (s : State) (a : Nat) : (s.heal a).shadow = s.shadow := rfl
@[simp] theorem State.heal_pendHigh (s : State) (a : Nat) : (s.heal a).pendHigh = s.pendHigh := rfl
@[simp] theorem State.heal_resp (s : State) (a : Nat) : (s.heal a).resp = s.resp := rfl
@[simp] theorem State.heal_mem (s : State) (a : Nat) : (s.heal a).mem = s.mem := rfl
@[simp] theorem State.heal_flash (s : State) (a : Nat) : (s.heal a).flash = s.flash := rfl
@[simp] theorem State.heal_pwr (s : State) (a : Nat) : (s.heal a).pwr = s.pwr := rfl
@[simp] theorem State.heal_tickNs (s : State) (a : Nat) : (s.heal a).tickNs = s.tickNs := rfl
@[simp] theorem State.heal_fcu (s : State) (a : Nat) : (s.heal a).fcu = s.fcu := rfl
@[simp] theorem State.heal_dsx (s : State) (a : Nat) : (s.heal a).dsx = s.dsx := rfl
@[simp] theorem State.heal_cores (s : State) (a : Nat) : (s.heal a).cores = s.cores := rfl
@[simp] theorem State.heal_out (s : State) (a : Nat) : (s.heal a).out = s.out := rfl
@[simp] theorem State.heal_tck (s : State) (a : Nat) : (s.heal a).tck = s.tck := rfl
@[simp] theorem State.heal_lanes (s : State) (a : Nat) : (s.heal a).lanes = s.lanes := rfl
@[simp] theorem State.heal_azf (s : State) (a : Nat) : (s.heal a).azf = s.azf := rfl
@[simp] theorem State.heal_cell (s : State) (a : Nat) : (s.heal a).cell = s.cell := rfl
@[simp] theorem State.heal_rse (s : State) (a : Nat) : (s.heal a).rse = s.rse := rfl
@[simp] theorem State.heal_cle (s : State) (a : Nat) : (s.heal a).cle = s.cle := rfl
@[simp] theorem State.heal_se (s : State) (a : Nat) : (s.heal a).se = s.se := rfl
@[simp] theorem State.heal_pwm (s : State) (a : Nat) : (s.heal a).pwm = s.pwm := rfl
@[simp] theorem State.heal_adc (s : State) (a : Nat) : (s.heal a).adc = s.adc := rfl
@[simp] theorem State.heal_tbs (s : State) (a : Nat) : (s.heal a).tbs = s.tbs := rfl
@[simp] theorem State.heal_eth (s : State) (a : Nat) : (s.heal a).eth = s.eth := rfl
@[simp] theorem State.heal_acq (s : State) (a : Nat) : (s.heal a).acq = s.acq := rfl
@[simp] theorem State.heal_red (s : State) (a : Nat) : (s.heal a).red = s.red := rfl
@[simp] theorem State.heal_alm (s : State) (a : Nat) : (s.heal a).alm = s.alm := rfl
@[simp] theorem State.heal_field (s : State) (a : Nat) : (s.heal a).field = s.field := rfl
@[simp] theorem State.heal_safAt (s : State) (a : Nat) : (s.heal a).safAt = s.safAt := rfl
@[simp] theorem State.heal_sec (s : State) (a : Nat) : (s.heal a).sec = s.sec := rfl
@[simp] theorem State.heal_store (s : State) (a : Nat) : (s.heal a).store = s.store := rfl
@[simp] theorem State.heal_freeCtr (s : State) (a : Nat) : (s.heal a).freeCtr = s.freeCtr := rfl
@[simp] theorem State.heal_pending (s : State) (a : Nat) : (s.heal a).pending = s.pending := rfl
@[simp] theorem State.heal_regs (s : State) (a : Nat) : (s.heal a).regs = s.regs := rfl

/-! ### markBad -/

@[simp] theorem State.markBad_phase (s : State) (a : Nat) : (s.markBad a).phase = s.phase := rfl
@[simp] theorem State.markBad_staged (s : State) (a : Nat) : (s.markBad a).staged = s.staged := rfl
@[simp] theorem State.markBad_shadow (s : State) (a : Nat) : (s.markBad a).shadow = s.shadow := rfl
@[simp] theorem State.markBad_pendHigh (s : State) (a : Nat) : (s.markBad a).pendHigh = s.pendHigh := rfl
@[simp] theorem State.markBad_resp (s : State) (a : Nat) : (s.markBad a).resp = s.resp := rfl
@[simp] theorem State.markBad_mem (s : State) (a : Nat) : (s.markBad a).mem = s.mem := rfl
@[simp] theorem State.markBad_flash (s : State) (a : Nat) : (s.markBad a).flash = s.flash := rfl
@[simp] theorem State.markBad_pwr (s : State) (a : Nat) : (s.markBad a).pwr = s.pwr := rfl
@[simp] theorem State.markBad_tickNs (s : State) (a : Nat) : (s.markBad a).tickNs = s.tickNs := rfl
@[simp] theorem State.markBad_fcu (s : State) (a : Nat) : (s.markBad a).fcu = s.fcu := rfl
@[simp] theorem State.markBad_dsx (s : State) (a : Nat) : (s.markBad a).dsx = s.dsx := rfl
@[simp] theorem State.markBad_cores (s : State) (a : Nat) : (s.markBad a).cores = s.cores := rfl
@[simp] theorem State.markBad_out (s : State) (a : Nat) : (s.markBad a).out = s.out := rfl
@[simp] theorem State.markBad_tck (s : State) (a : Nat) : (s.markBad a).tck = s.tck := rfl
@[simp] theorem State.markBad_lanes (s : State) (a : Nat) : (s.markBad a).lanes = s.lanes := rfl
@[simp] theorem State.markBad_azf (s : State) (a : Nat) : (s.markBad a).azf = s.azf := rfl
@[simp] theorem State.markBad_cell (s : State) (a : Nat) : (s.markBad a).cell = s.cell := rfl
@[simp] theorem State.markBad_rse (s : State) (a : Nat) : (s.markBad a).rse = s.rse := rfl
@[simp] theorem State.markBad_cle (s : State) (a : Nat) : (s.markBad a).cle = s.cle := rfl
@[simp] theorem State.markBad_se (s : State) (a : Nat) : (s.markBad a).se = s.se := rfl
@[simp] theorem State.markBad_pwm (s : State) (a : Nat) : (s.markBad a).pwm = s.pwm := rfl
@[simp] theorem State.markBad_adc (s : State) (a : Nat) : (s.markBad a).adc = s.adc := rfl
@[simp] theorem State.markBad_tbs (s : State) (a : Nat) : (s.markBad a).tbs = s.tbs := rfl
@[simp] theorem State.markBad_eth (s : State) (a : Nat) : (s.markBad a).eth = s.eth := rfl
@[simp] theorem State.markBad_acq (s : State) (a : Nat) : (s.markBad a).acq = s.acq := rfl
@[simp] theorem State.markBad_red (s : State) (a : Nat) : (s.markBad a).red = s.red := rfl
@[simp] theorem State.markBad_alm (s : State) (a : Nat) : (s.markBad a).alm = s.alm := rfl
@[simp] theorem State.markBad_field (s : State) (a : Nat) : (s.markBad a).field = s.field := rfl
@[simp] theorem State.markBad_safAt (s : State) (a : Nat) : (s.markBad a).safAt = s.safAt := rfl
@[simp] theorem State.markBad_sec (s : State) (a : Nat) : (s.markBad a).sec = s.sec := rfl
@[simp] theorem State.markBad_store (s : State) (a : Nat) : (s.markBad a).store = s.store := rfl
@[simp] theorem State.markBad_freeCtr (s : State) (a : Nat) : (s.markBad a).freeCtr = s.freeCtr := rfl
@[simp] theorem State.markBad_pending (s : State) (a : Nat) : (s.markBad a).pending = s.pending := rfl
@[simp] theorem State.markBad_regs (s : State) (a : Nat) : (s.markBad a).regs = s.regs := rfl

/-! ### markSoft -/

@[simp] theorem State.markSoft_phase (s : State) (a : Nat) : (s.markSoft a).phase = s.phase := rfl
@[simp] theorem State.markSoft_staged (s : State) (a : Nat) : (s.markSoft a).staged = s.staged := rfl
@[simp] theorem State.markSoft_shadow (s : State) (a : Nat) : (s.markSoft a).shadow = s.shadow := rfl
@[simp] theorem State.markSoft_pendHigh (s : State) (a : Nat) : (s.markSoft a).pendHigh = s.pendHigh := rfl
@[simp] theorem State.markSoft_resp (s : State) (a : Nat) : (s.markSoft a).resp = s.resp := rfl
@[simp] theorem State.markSoft_mem (s : State) (a : Nat) : (s.markSoft a).mem = s.mem := rfl
@[simp] theorem State.markSoft_flash (s : State) (a : Nat) : (s.markSoft a).flash = s.flash := rfl
@[simp] theorem State.markSoft_pwr (s : State) (a : Nat) : (s.markSoft a).pwr = s.pwr := rfl
@[simp] theorem State.markSoft_tickNs (s : State) (a : Nat) : (s.markSoft a).tickNs = s.tickNs := rfl
@[simp] theorem State.markSoft_fcu (s : State) (a : Nat) : (s.markSoft a).fcu = s.fcu := rfl
@[simp] theorem State.markSoft_dsx (s : State) (a : Nat) : (s.markSoft a).dsx = s.dsx := rfl
@[simp] theorem State.markSoft_cores (s : State) (a : Nat) : (s.markSoft a).cores = s.cores := rfl
@[simp] theorem State.markSoft_out (s : State) (a : Nat) : (s.markSoft a).out = s.out := rfl
@[simp] theorem State.markSoft_tck (s : State) (a : Nat) : (s.markSoft a).tck = s.tck := rfl
@[simp] theorem State.markSoft_lanes (s : State) (a : Nat) : (s.markSoft a).lanes = s.lanes := rfl
@[simp] theorem State.markSoft_azf (s : State) (a : Nat) : (s.markSoft a).azf = s.azf := rfl
@[simp] theorem State.markSoft_cell (s : State) (a : Nat) : (s.markSoft a).cell = s.cell := rfl
@[simp] theorem State.markSoft_rse (s : State) (a : Nat) : (s.markSoft a).rse = s.rse := rfl
@[simp] theorem State.markSoft_cle (s : State) (a : Nat) : (s.markSoft a).cle = s.cle := rfl
@[simp] theorem State.markSoft_se (s : State) (a : Nat) : (s.markSoft a).se = s.se := rfl
@[simp] theorem State.markSoft_pwm (s : State) (a : Nat) : (s.markSoft a).pwm = s.pwm := rfl
@[simp] theorem State.markSoft_adc (s : State) (a : Nat) : (s.markSoft a).adc = s.adc := rfl
@[simp] theorem State.markSoft_tbs (s : State) (a : Nat) : (s.markSoft a).tbs = s.tbs := rfl
@[simp] theorem State.markSoft_eth (s : State) (a : Nat) : (s.markSoft a).eth = s.eth := rfl
@[simp] theorem State.markSoft_acq (s : State) (a : Nat) : (s.markSoft a).acq = s.acq := rfl
@[simp] theorem State.markSoft_red (s : State) (a : Nat) : (s.markSoft a).red = s.red := rfl
@[simp] theorem State.markSoft_alm (s : State) (a : Nat) : (s.markSoft a).alm = s.alm := rfl
@[simp] theorem State.markSoft_field (s : State) (a : Nat) : (s.markSoft a).field = s.field := rfl
@[simp] theorem State.markSoft_safAt (s : State) (a : Nat) : (s.markSoft a).safAt = s.safAt := rfl
@[simp] theorem State.markSoft_sec (s : State) (a : Nat) : (s.markSoft a).sec = s.sec := rfl
@[simp] theorem State.markSoft_store (s : State) (a : Nat) : (s.markSoft a).store = s.store := rfl
@[simp] theorem State.markSoft_freeCtr (s : State) (a : Nat) : (s.markSoft a).freeCtr = s.freeCtr := rfl
@[simp] theorem State.markSoft_pending (s : State) (a : Nat) : (s.markSoft a).pending = s.pending := rfl
@[simp] theorem State.markSoft_regs (s : State) (a : Nat) : (s.markSoft a).regs = s.regs := rfl

/-! ### markStale -/

@[simp] theorem State.markStale_phase (s : State) (a n : Nat) : (s.markStale a n).phase = s.phase := rfl
@[simp] theorem State.markStale_staged (s : State) (a n : Nat) : (s.markStale a n).staged = s.staged := rfl
@[simp] theorem State.markStale_shadow (s : State) (a n : Nat) : (s.markStale a n).shadow = s.shadow := rfl
@[simp] theorem State.markStale_pendHigh (s : State) (a n : Nat) : (s.markStale a n).pendHigh = s.pendHigh := rfl
@[simp] theorem State.markStale_resp (s : State) (a n : Nat) : (s.markStale a n).resp = s.resp := rfl
@[simp] theorem State.markStale_mem (s : State) (a n : Nat) : (s.markStale a n).mem = s.mem := rfl
@[simp] theorem State.markStale_flash (s : State) (a n : Nat) : (s.markStale a n).flash = s.flash := rfl
@[simp] theorem State.markStale_pwr (s : State) (a n : Nat) : (s.markStale a n).pwr = s.pwr := rfl
@[simp] theorem State.markStale_tickNs (s : State) (a n : Nat) : (s.markStale a n).tickNs = s.tickNs := rfl
@[simp] theorem State.markStale_fcu (s : State) (a n : Nat) : (s.markStale a n).fcu = s.fcu := rfl
@[simp] theorem State.markStale_dsx (s : State) (a n : Nat) : (s.markStale a n).dsx = s.dsx := rfl
@[simp] theorem State.markStale_out (s : State) (a n : Nat) : (s.markStale a n).out = s.out := rfl
@[simp] theorem State.markStale_tck (s : State) (a n : Nat) : (s.markStale a n).tck = s.tck := rfl
@[simp] theorem State.markStale_lanes (s : State) (a n : Nat) : (s.markStale a n).lanes = s.lanes := rfl
@[simp] theorem State.markStale_azf (s : State) (a n : Nat) : (s.markStale a n).azf = s.azf := rfl
@[simp] theorem State.markStale_cell (s : State) (a n : Nat) : (s.markStale a n).cell = s.cell := rfl
@[simp] theorem State.markStale_rse (s : State) (a n : Nat) : (s.markStale a n).rse = s.rse := rfl
@[simp] theorem State.markStale_cle (s : State) (a n : Nat) : (s.markStale a n).cle = s.cle := rfl
@[simp] theorem State.markStale_se (s : State) (a n : Nat) : (s.markStale a n).se = s.se := rfl
@[simp] theorem State.markStale_pwm (s : State) (a n : Nat) : (s.markStale a n).pwm = s.pwm := rfl
@[simp] theorem State.markStale_adc (s : State) (a n : Nat) : (s.markStale a n).adc = s.adc := rfl
@[simp] theorem State.markStale_tbs (s : State) (a n : Nat) : (s.markStale a n).tbs = s.tbs := rfl
@[simp] theorem State.markStale_eth (s : State) (a n : Nat) : (s.markStale a n).eth = s.eth := rfl
@[simp] theorem State.markStale_acq (s : State) (a n : Nat) : (s.markStale a n).acq = s.acq := rfl
@[simp] theorem State.markStale_red (s : State) (a n : Nat) : (s.markStale a n).red = s.red := rfl
@[simp] theorem State.markStale_alm (s : State) (a n : Nat) : (s.markStale a n).alm = s.alm := rfl
@[simp] theorem State.markStale_field (s : State) (a n : Nat) : (s.markStale a n).field = s.field := rfl
@[simp] theorem State.markStale_safAt (s : State) (a n : Nat) : (s.markStale a n).safAt = s.safAt := rfl
@[simp] theorem State.markStale_sec (s : State) (a n : Nat) : (s.markStale a n).sec = s.sec := rfl
@[simp] theorem State.markStale_store (s : State) (a n : Nat) : (s.markStale a n).store = s.store := rfl
@[simp] theorem State.markStale_freeCtr (s : State) (a n : Nat) : (s.markStale a n).freeCtr = s.freeCtr := rfl
@[simp] theorem State.markStale_pending (s : State) (a n : Nat) : (s.markStale a n).pending = s.pending := rfl
@[simp] theorem State.markStale_regs (s : State) (a n : Nat) : (s.markStale a n).regs = s.regs := rfl
@[simp] theorem State.markStale_bad (s : State) (a n : Nat) : (s.markStale a n).bad = s.bad := rfl
@[simp] theorem State.markStale_soft (s : State) (a n : Nat) : (s.markStale a n).soft = s.soft := rfl

/-! ### setX -/

@[simp] theorem State.setX_phase (s : State) (c i : Nat) (v : BitVec 64) : (s.setX c i v).phase = s.phase := by unfold State.setX; split <;> rfl
@[simp] theorem State.setX_staged (s : State) (c i : Nat) (v : BitVec 64) : (s.setX c i v).staged = s.staged := by unfold State.setX; split <;> rfl
@[simp] theorem State.setX_shadow (s : State) (c i : Nat) (v : BitVec 64) : (s.setX c i v).shadow = s.shadow := by unfold State.setX; split <;> rfl
@[simp] theorem State.setX_pendHigh (s : State) (c i : Nat) (v : BitVec 64) : (s.setX c i v).pendHigh = s.pendHigh := by unfold State.setX; split <;> rfl
@[simp] theorem State.setX_resp (s : State) (c i : Nat) (v : BitVec 64) : (s.setX c i v).resp = s.resp := by unfold State.setX; split <;> rfl
@[simp] theorem State.setX_mem (s : State) (c i : Nat) (v : BitVec 64) : (s.setX c i v).mem = s.mem := by unfold State.setX; split <;> rfl
@[simp] theorem State.setX_flash (s : State) (c i : Nat) (v : BitVec 64) : (s.setX c i v).flash = s.flash := by unfold State.setX; split <;> rfl
@[simp] theorem State.setX_pwr (s : State) (c i : Nat) (v : BitVec 64) : (s.setX c i v).pwr = s.pwr := by unfold State.setX; split <;> rfl
@[simp] theorem State.setX_tickNs (s : State) (c i : Nat) (v : BitVec 64) : (s.setX c i v).tickNs = s.tickNs := by unfold State.setX; split <;> rfl
@[simp] theorem State.setX_fcu (s : State) (c i : Nat) (v : BitVec 64) : (s.setX c i v).fcu = s.fcu := by unfold State.setX; split <;> rfl
@[simp] theorem State.setX_dsx (s : State) (c i : Nat) (v : BitVec 64) : (s.setX c i v).dsx = s.dsx := by unfold State.setX; split <;> rfl
@[simp] theorem State.setX_out (s : State) (c i : Nat) (v : BitVec 64) : (s.setX c i v).out = s.out := by unfold State.setX; split <;> rfl
@[simp] theorem State.setX_tck (s : State) (c i : Nat) (v : BitVec 64) : (s.setX c i v).tck = s.tck := by unfold State.setX; split <;> rfl
@[simp] theorem State.setX_lanes (s : State) (c i : Nat) (v : BitVec 64) : (s.setX c i v).lanes = s.lanes := by unfold State.setX; split <;> rfl
@[simp] theorem State.setX_azf (s : State) (c i : Nat) (v : BitVec 64) : (s.setX c i v).azf = s.azf := by unfold State.setX; split <;> rfl
@[simp] theorem State.setX_cell (s : State) (c i : Nat) (v : BitVec 64) : (s.setX c i v).cell = s.cell := by unfold State.setX; split <;> rfl
@[simp] theorem State.setX_rse (s : State) (c i : Nat) (v : BitVec 64) : (s.setX c i v).rse = s.rse := by unfold State.setX; split <;> rfl
@[simp] theorem State.setX_cle (s : State) (c i : Nat) (v : BitVec 64) : (s.setX c i v).cle = s.cle := by unfold State.setX; split <;> rfl
@[simp] theorem State.setX_se (s : State) (c i : Nat) (v : BitVec 64) : (s.setX c i v).se = s.se := by unfold State.setX; split <;> rfl
@[simp] theorem State.setX_pwm (s : State) (c i : Nat) (v : BitVec 64) : (s.setX c i v).pwm = s.pwm := by unfold State.setX; split <;> rfl
@[simp] theorem State.setX_adc (s : State) (c i : Nat) (v : BitVec 64) : (s.setX c i v).adc = s.adc := by unfold State.setX; split <;> rfl
@[simp] theorem State.setX_tbs (s : State) (c i : Nat) (v : BitVec 64) : (s.setX c i v).tbs = s.tbs := by unfold State.setX; split <;> rfl
@[simp] theorem State.setX_eth (s : State) (c i : Nat) (v : BitVec 64) : (s.setX c i v).eth = s.eth := by unfold State.setX; split <;> rfl
@[simp] theorem State.setX_acq (s : State) (c i : Nat) (v : BitVec 64) : (s.setX c i v).acq = s.acq := by unfold State.setX; split <;> rfl
@[simp] theorem State.setX_red (s : State) (c i : Nat) (v : BitVec 64) : (s.setX c i v).red = s.red := by unfold State.setX; split <;> rfl
@[simp] theorem State.setX_alm (s : State) (c i : Nat) (v : BitVec 64) : (s.setX c i v).alm = s.alm := by unfold State.setX; split <;> rfl
@[simp] theorem State.setX_field (s : State) (c i : Nat) (v : BitVec 64) : (s.setX c i v).field = s.field := by unfold State.setX; split <;> rfl
@[simp] theorem State.setX_safAt (s : State) (c i : Nat) (v : BitVec 64) : (s.setX c i v).safAt = s.safAt := by unfold State.setX; split <;> rfl
@[simp] theorem State.setX_sec (s : State) (c i : Nat) (v : BitVec 64) : (s.setX c i v).sec = s.sec := by unfold State.setX; split <;> rfl
@[simp] theorem State.setX_store (s : State) (c i : Nat) (v : BitVec 64) : (s.setX c i v).store = s.store := by unfold State.setX; split <;> rfl
@[simp] theorem State.setX_freeCtr (s : State) (c i : Nat) (v : BitVec 64) : (s.setX c i v).freeCtr = s.freeCtr := by unfold State.setX; split <;> rfl
@[simp] theorem State.setX_pending (s : State) (c i : Nat) (v : BitVec 64) : (s.setX c i v).pending = s.pending := by unfold State.setX; split <;> rfl
@[simp] theorem State.setX_regs (s : State) (c i : Nat) (v : BitVec 64) : (s.setX c i v).regs = s.regs := by unfold State.setX; split <;> rfl
@[simp] theorem State.setX_bad (s : State) (c i : Nat) (v : BitVec 64) : (s.setX c i v).bad = s.bad := by unfold State.setX; split <;> rfl
@[simp] theorem State.setX_soft (s : State) (c i : Nat) (v : BitVec 64) : (s.setX c i v).soft = s.soft := by unfold State.setX; split <;> rfl

/-! ### What a block stores into memory -/

/-- Something that each turn of a loop keeps holds after it. -/
theorem forUpTo_keeps {α : Type} {P : α → Prop} {f : Nat → α → α} (h : ∀ i x, P x → P (f i x)) (n : Nat) {a : α} (ha : P a) :
    P (forUpTo n f a) := by
  unfold forUpTo
  generalize List.range n = l
  induction l generalizing a with
  | nil => exact ha
  | cons i l ih => exact ih (h i a ha)

/-- Breaking reservations changes only the cores. -/
theorem State.breakResv_frame (s : State) (c a n : Nat) : { s.breakResv c a n with cores := s.cores } = s := by
  apply forUpTo_keeps (P := fun x : State => ({ x with cores := s.cores } : State) = s) _ _ rfl
  intro d x hx
  split
  · exact hx
  · split
    · exact hx
    · exact hx

/-- Two states that agree but for the cores agree once memory and cores are set alike. -/
theorem State.eq_of_cores {t m : State} (h : { t with cores := m.cores } = m) (b : List Host.Cell) (c : List CoreState) :
    { t with mem := b, cores := c } = { m with mem := b, cores := c } :=
  congrArg (fun x : State => { x with mem := b, cores := c }) h

/-- A store of a block changes memory and the cores that it makes stale or whose reservations it breaks, and nothing else. -/
theorem State.storeMem_frame (s : State) (a : Nat) (l : List Byte) :
    { s.storeMem a l with mem := s.mem, cores := s.cores } = s := by
  have h := ((s.setMem a l).markStale a l.length).breakResv_frame 8 a l.length
  rw [State.storeMem, State.eq_of_cores h]
  rfl

end Sys2Proof.Machine
end

