-- ==== Sys2Proof/Laws/Get.lean ====
section
/-! SUPPORT. Reading a register field after writing one, and a sparse list after an update. -/

namespace Sys2Proof.Machine

/-- What is listed at the key just written. -/
@[simp] theorem alGet_alPut_self {α : Type} (l : List (Nat × α)) (k : Nat) (v d : α) :
    alGet (alPut l k v) k d = v := by
  induction l with
  | nil => simp [alPut, alGet]
  | cons c t ih =>
    obtain ⟨a, w⟩ := c
    simp only [alPut]
    split
    · simp [alGet]
    · split
      · simp [alGet]
      · rename_i h1 h2
        have : a ≠ k := fun h => h2 h.symm
        simp [alGet, this, ih]

/-- What is listed at every other key stands. -/
theorem alGet_alPut_ne {α : Type} (l : List (Nat × α)) (k j : Nat) (v d : α) (h : k ≠ j) :
    alGet (alPut l k v) j d = alGet l j d := by
  induction l with
  | nil => simp [alPut, alGet, h]
  | cons c t ih =>
    obtain ⟨a, w⟩ := c
    simp only [alPut]
    split
    · simp [alGet, h]
    · split
      · rename_i h1 h2
        subst h2
        simp [alGet, h]
      · simp [alGet, ih]

/-- A field reads what was put into it, cut to its width. -/
@[simp] theorem State.get_put_self (s : State) (f : Fld) (v : Nat) : (s.put f v).get f = v % 2 ^ f.width := by
  simp [State.get, State.put]

/-- A field reads a value of its width. -/
theorem State.get_lt (s : State) (f : Fld) : s.get f < 2 ^ f.width := Nat.mod_lt _ (Nat.two_pow_pos _)

/-- Cutting what a field reads to its width changes nothing. -/
@[simp] theorem State.get_mod (s : State) (f : Fld) : s.get f % 2 ^ f.width = s.get f := Nat.mod_eq_of_lt (s.get_lt f)

/-- Every field with another key reads as before. -/
theorem State.get_put_ne (s : State) (f g : Fld) (v : Nat) (h : f.key ≠ g.key) : (s.put f v).get g = s.get g := by
  simp [State.get, State.put, alGet_alPut_ne, h]

/-- Putting a field leaves every field outside a list that names it. -/
theorem KeepsFieldsBut_put (l : List Fld) (s t : State) (f : Fld) (v : Nat) (hf : f.key ∈ l.map Fld.key)
    (h : ∀ g : Fld, g.key ∉ l.map Fld.key → s.get g = t.get g) :
    ∀ g : Fld, g.key ∉ l.map Fld.key → (s.put f v).get g = t.get g := by
  intro g hg
  rw [State.get_put_ne _ _ _ _ (fun e => hg (e ▸ hf)), h g hg]

/-- A list read back at the element just set. -/
@[simp] theorem nth_setNth_self {α : Type} (l : List α) (i : Nat) (v d : α) : nth (setNth l i v d) i d = v := by
  induction i generalizing l with
  | zero => cases l <;> simp [setNth, nth]
  | succ i ih => cases l <;> simp [setNth, nth, ih]

/-- Every other element of the list stands. -/
theorem nth_setNth_ne {α : Type} (l : List α) (i j : Nat) (v d : α) (h : i ≠ j) :
    nth (setNth l i v d) j d = nth l j d := by
  induction i generalizing l j with
  | zero =>
    cases j with
    | zero => exact absurd rfl h
    | succ j => cases l <;> simp [setNth, nth]
  | succ i ih =>
    cases j with
    | zero => cases l <;> simp [setNth, nth]
    | succ j =>
      have h' : i ≠ j := fun e => h (e ▸ rfl)
      cases l with
      | nil => simp only [setNth, nth]; rw [ih [] j h']; cases j <;> simp [nth]
      | cons a t => simp only [setNth, nth]; exact ih t j h'

/-- Every field with another key stands after `zero`. -/
theorem State.get_zero_ne (l : List Fld) (s : State) (g : Fld) (h : g.key ∉ l.map Fld.key) :
    (s.zero l).get g = s.get g := by
  induction l generalizing s with
  | nil => rfl
  | cons f t ih =>
    simp only [List.map_cons, List.mem_cons, not_or] at h
    have := ih (s.put f 0) h.2
    simp only [State.zero, forEach, List.foldl_cons] at this ⊢
    rw [this, State.get_put_ne _ _ _ _ (fun e => h.1 e.symm)]

/-- Every field that `zero` names reads 0. -/
theorem State.get_zero_mem (l : List Fld) (s : State) (f : Fld) (h : f ∈ l) : (s.zero l).get f = 0 := by
  induction l generalizing s with
  | nil => cases h
  | cons a t ih =>
    show ((s.put a 0).zero t).get f = 0
    by_cases ht : f ∈ t
    · exact ih _ ht
    · have hf : f = a := by simpa [ht] using h
      subst hf
      by_cases hk : f.key ∈ t.map Fld.key
      · clear h ih
        have key : ∀ (u : State), u.get f = 0 → (u.zero t).get f = 0 := by
          clear ht hk
          induction t with
          | nil => intro u hu; exact hu
          | cons b t ih =>
            intro u hu
            show ((u.put b 0).zero t).get f = 0
            apply ih
            by_cases hb : b.key = f.key
            · simp [State.get, State.put, hb]
            · rw [State.get_put_ne _ _ _ _ hb, hu]
        exact key _ (by simp)
      · rw [State.get_zero_ne _ _ _ hk]; simp

/-- `zero` changes nothing but register fields. -/
theorem State.zero_frame (l : List Fld) (s : State) : { s.zero l with regs := s.regs } = s := by
  induction l generalizing s with
  | nil => rfl
  | cons a t ih => exact (congrArg (fun x : State => { x with regs := s.regs }) (ih (s.put a 0)) :)

/-- On a running module a command has its effect. -/
theorem live_run {s t : State} (h : s.phase = .run) : live s t = t := by simp [live, h]

/-- In reset and in the wipe a command has no effect (R399, R409). -/
theorem live_held {s t : State} (h : s.phase ≠ .run) : live s t = s := by
  unfold live
  split
  · contradiction
  · rfl

@[simp] theorem State.when_true (s t : State) : s.when true t = t := rfl
@[simp] theorem State.when_false (s t : State) : s.when false t = s := rfl

/-- The queue plays no part in whether the module runs. -/
theorem live_or (s t : State) : live s t = s ∨ live s t = t := by
  unfold live
  split
  · exact .inr rfl
  · exact .inl rfl

/-- A page that takes command words takes this one. -/
theorem State.cmd_of {s t : State} {p : Nat} (hg : s.gated p = false) (hs : s.on (R.SRB p) = false) :
    s.cmd p t = t := by simp [State.cmd, State.when, hg, hs]

end Sys2Proof.Machine
end

