-- ==== Sys2Proof/Laws/Frame.lean ====
section
/-! SUPPORT. Composing frames: a chain of register updates changes only the fields it names. -/

namespace Sys2Proof.Machine

theorem onlyFields_refl (l : List Fld) (s : State) : OnlyFields l s s := ⟨rfl, fun _ _ => rfl⟩

/-- One more field put. -/
theorem onlyFields_put {l : List Fld} {s t : State} {f : Fld} {v : Nat} (hf : f ∈ l) (h : OnlyFields l s t) :
    OnlyFields l s (t.put f v) := by
  refine ⟨h.1, fun g hg => ?_⟩
  rw [State.get_put_ne _ _ _ _ (fun e => hg (e ▸ List.mem_map_of_mem hf)), h.2 g hg]

theorem onlyFields_putB {l : List Fld} {s t : State} {f : Fld} {b : Bool} (hf : f ∈ l) (h : OnlyFields l s t) :
    OnlyFields l s (t.putB f b) := onlyFields_put hf h

theorem onlyFields_putS {l : List Fld} {s t : State} {f : Fld} {i : Int} (hf : f ∈ l) (h : OnlyFields l s t) :
    OnlyFields l s (t.putS f i) := onlyFields_put hf h

theorem onlyFields_putBit {l : List Fld} {s t : State} {f : Fld} {n : Nat} {b : Bool} (hf : f ∈ l)
    (h : OnlyFields l s t) : OnlyFields l s (t.putBit f n b) := onlyFields_put hf h

theorem onlyFields_addSat {l : List Fld} {s t : State} {f : Fld} {n : Nat} (hf : f ∈ l) (h : OnlyFields l s t) :
    OnlyFields l s (t.addSat f n) := onlyFields_put hf h

theorem onlyFields_incSat {l : List Fld} {s t : State} {f : Fld} (hf : f ∈ l) (h : OnlyFields l s t) :
    OnlyFields l s (t.incSat f) := onlyFields_put hf h

theorem onlyFields_incWrap {l : List Fld} {s t : State} {f : Fld} (hf : f ∈ l) (h : OnlyFields l s t) :
    OnlyFields l s (t.incWrap f) := onlyFields_put hf h

theorem onlyFields_zero {l m : List Fld} {s t : State} (hf : ∀ f ∈ m, f ∈ l) (h : OnlyFields l s t) :
    OnlyFields l s (t.zero m) := by
  induction m generalizing t with
  | nil => exact h
  | cons a m ih =>
    exact ih (fun f hm => hf f (List.mem_cons_of_mem _ hm)) (onlyFields_put (hf a (List.mem_cons_self ..)) h)

/-- A field outside the list reads as before. -/
theorem onlyFields_get {l : List Fld} {s t : State} (h : OnlyFields l s t) (g : Fld) (hg : g.key ∉ l.map Fld.key) :
    t.get g = s.get g := h.2 g hg

end Sys2Proof.Machine
end

