-- ==== Sys2Proof/Laws/Fault.lean ====
section
/-! SUPPORT. Everything that raising a fault can do: an event of a source, an issue of a descriptor and a FLT bit change
registers of the FCU and DSX pages, RED.STA.STATE and the page's FLT and FCT, and the records of the dispatcher, the FCU,
the Almanac, the redundancy unit and the cell. -/

namespace Sys2Proof.Machine

/-- What an event at the FCU or the dispatcher leaves alone. -/
structure FaultFrame (s t : State) : Prop where
  rest : { t with regs := s.regs, dsx := s.dsx, fcu := s.fcu, alm := s.alm, red := s.red, cell := s.cell } = s
  get : ∀ g : Fld, faultKey g.key = false → t.get g = s.get g

theorem faultFrame_refl (s : State) : FaultFrame s s := ⟨rfl, fun _ _ => rfl⟩

theorem faultFrame_trans {s t u : State} (h : FaultFrame s t) (k : FaultFrame t u) : FaultFrame s u := by
  refine ⟨?_, fun g hg => (k.get g hg).trans (h.get g hg)⟩
  have a := h.rest
  have b := k.rest
  have c := congrArg (fun x : State =>
    { x with regs := s.regs, dsx := s.dsx, fcu := s.fcu, alm := s.alm, red := s.red, cell := s.cell }) b
  exact c.trans a

theorem faultFrame_put {s t : State} {f : Fld} {v : Nat} (hf : faultKey f.key = true) (h : FaultFrame s t) :
    FaultFrame s (t.put f v) :=
  faultFrame_trans h ⟨rfl, fun g hg => State.get_put_ne _ _ _ _ (fun e => by rw [e, hg] at hf; cases hf)⟩

/-- An update of the records an event may change. -/
theorem faultFrame_rec {s t u : State} (h : FaultFrame s t) (hr : u.regs = t.regs)
    (e : { u with regs := t.regs, dsx := t.dsx, fcu := t.fcu, alm := t.alm, red := t.red, cell := t.cell } = t) :
    FaultFrame s u :=
  faultFrame_trans h ⟨e, fun _ _ => by simp [State.get, hr]⟩

theorem faultFrame_when {s t u : State} {b : Bool} (h : FaultFrame s t) (k : FaultFrame t u) :
    FaultFrame s (t.when b u) := by
  unfold State.when
  split
  · exact faultFrame_trans h k
  · exact h

theorem faultKey_src {n : Nat} (h : n < 256) : faultKey (R.DSX_SRC_DROPF n).key = true := by
  simp only [faultKey, R.DSX_SRC_DROPF, fld, Bool.or_eq_true]
  exact .inl (.inl (decide_eq_true (by omega)))

theorem dsxDefined_lt {n : Nat} (h : dsxDefined n = true) : n < 256 := by
  simp only [dsxDefined, decide_eq_true_eq] at h; omega

theorem fcuIsDefined_lt {n : Nat} (h : fcuIsDefined n = true) : n < 128 := by
  simp only [fcuIsDefined, fcuDefined, beq_iff_eq] at h
  split at h
  · omega
  · contradiction

theorem dsxMin_frame (s : State) : FaultFrame s s.dsxMin :=
  faultFrame_when (faultFrame_refl s) (faultFrame_put (by decide) (faultFrame_refl s))

theorem dsxIssueCore_frame (s : State) (n a : Nat) : FaultFrame s (s.dsxIssueCore n a).1 := by
  unfold State.dsxIssueCore
  split
  · exact faultFrame_refl s
  · rename_i hd
    have hk : faultKey (R.DSX_SRC_DROPF n).key = true := faultKey_src (dsxDefined_lt (by simpa using hd))
    have h1 : FaultFrame s ((s.incSat R.DSX_DROP_POOL).put (R.DSX_SRC_DROPF n) 1) :=
      faultFrame_put hk (faultFrame_put (by decide) (faultFrame_refl s))
    split
    · exact h1
    · split
      · exact faultFrame_put hk (faultFrame_refl s)
      · split
        · exact faultFrame_rec (faultFrame_refl s) rfl rfl
        · split
          · exact h1
          · have h2 : ∀ q k, FaultFrame s { s with dsx := { s.dsx with queue := q, nextId := k } } :=
              fun _ _ => faultFrame_rec (faultFrame_refl s) rfl rfl
            exact faultFrame_trans (h2 _ _) (dsxMin_frame _)

theorem setFcuSrc_frame (s : State) (n : Nat) (x : FcuSrc) : FaultFrame s (s.setFcuSrc n x) :=
  faultFrame_rec (faultFrame_refl s) rfl rfl

theorem fcuLog_frame (s : State) (a b c d : Nat) : FaultFrame s (s.fcuLog a b c d) := by
  simp only [State.fcuLog]
  split
  · exact faultFrame_put (by decide) (faultFrame_put (by decide) (faultFrame_put (by decide)
      (faultFrame_rec (faultFrame_refl s) rfl rfl)))
  · exact faultFrame_put (by decide) (faultFrame_put (by decide) (faultFrame_rec (faultFrame_refl s) rfl rfl))

theorem faultKey_sst {n : Nat} (h : n < 128) : faultKey (R.FCU_SST_STATE n).key = true := by
  simp only [faultKey, R.FCU_SST_STATE, fld, Bool.or_eq_true]
  exact .inl (.inl (decide_eq_true (by omega)))

theorem faultKey_stk {n : Nat} (h : n < 128) : faultKey (R.FCU_STK_STK (n / 32)).key = true := by
  simp only [faultKey, R.FCU_STK_STK, fld, Bool.or_eq_true]
  exact .inl (.inl (decide_eq_true (by omega)))

theorem fcuEventCore_frame (s : State) (n : Nat) : FaultFrame s (s.fcuEventCore n).1 := by
  unfold State.fcuEventCore
  split
  · exact faultFrame_refl s
  · rename_i hd
    have hn : n < 128 := fcuIsDefined_lt (by simpa using hd)
    have h1 : FaultFrame s (s.putBit (R.FCU_STK_STK (n / 32)) (n % 32) true) :=
      faultFrame_put (faultKey_stk hn) (faultFrame_refl s)
    dsimp only
    split
    · exact h1
    · split
      · exact h1
      · exact faultFrame_trans h1 (setFcuSrc_frame _ _ _)
      · split
        · refine faultFrame_trans ?_ (fcuLog_frame _ _ _ _ _)
          refine faultFrame_rec (faultFrame_put (faultKey_sst hn) (faultFrame_trans h1 (setFcuSrc_frame _ _ _))) rfl rfl
        · exact faultFrame_put (faultKey_sst hn) (faultFrame_trans h1 (setFcuSrc_frame _ _ _))

theorem fcuYield_frame (s : State) : FaultFrame s s.fcuYield :=
  faultFrame_when (faultFrame_refl s) (faultFrame_rec (faultFrame_refl s) rfl rfl)

/-- A Leave changes what PWM.IDEC shows and the cell's record. -/
theorem leave_frame (s : State) : FaultFrame s s.leave := by
  have h : FaultFrame s { s with cell := { s.cell with leavePend := true } } := faultFrame_rec (faultFrame_refl s) rfl rfl
  unfold State.leave
  split
  · exact faultFrame_refl s
  · dsimp only [State.when]
    split
    · exact faultFrame_put (by decide) (faultFrame_put (by decide) (faultFrame_put (by decide) h))
    · exact h

theorem fcuAct_frame (s : State) (r : Nat) : FaultFrame s (s.fcuAct r) := by
  unfold State.fcuAct
  split
  · exact fcuYield_frame s
  · split
    · exact leave_frame s
    · exact fcuYield_frame s
  · exact faultFrame_rec (faultFrame_refl s) rfl rfl
  · exact faultFrame_refl s

theorem redHalt_frame (s : State) : FaultFrame s s.redHalt :=
  faultFrame_when (faultFrame_refl s) (faultFrame_put (by decide) (faultFrame_refl s))

theorem fcuStep_frame (s : State) (n : Nat) : FaultFrame s (s.fcuStep n).1 := by
  have h0 := fcuEventCore_frame s n
  unfold State.fcuStep
  generalize s.fcuEventCore n = p at *
  obtain ⟨t, r⟩ := p
  dsimp only at *
  split
  · exact h0
  · have h1 : FaultFrame s { t with fcu := { t.fcu with reacted := n :: t.fcu.reacted } } := faultFrame_rec h0 rfl rfl
    generalize hu : (if ({ t with fcu := { t.fcu with reacted := n :: t.fcu.reacted } } : State).on (R.FCU_SCFG_GATE n) then
      ({ t with fcu := { t.fcu with reacted := n :: t.fcu.reacted } } : State).redHalt
      else { t with fcu := { t.fcu with reacted := n :: t.fcu.reacted } }) = u
    have h2 : FaultFrame s u := by
      subst hu
      split
      · exact faultFrame_trans h1 (redHalt_frame _)
      · exact h1
    split
    · exact h2
    · have h3 := faultFrame_trans h2 (dsxIssueCore_frame u 0x40 n)
      generalize u.dsxIssueCore 0x40 n = q at *
      obtain ⟨v, full⟩ := q
      exact faultFrame_trans h3 (fcuAct_frame _ _)

/-- An event of an FCU source leaves everything but the FCU and DSX pages, RED.STA.STATE and five records alone. -/
theorem fcuEvent_frame (s : State) (n : Nat) : FaultFrame s (s.fcuEvent n) := by
  have h := fcuStep_frame s n
  unfold State.fcuEvent
  generalize s.fcuStep n = p at *
  obtain ⟨t, full⟩ := p
  dsimp only at *
  split
  · exact faultFrame_trans h (fcuStep_frame _ _)
  · exact h

/-- So does an event at the dispatcher. -/
theorem dsxIssue_frame (s : State) (n a : Nat) : FaultFrame s (s.dsxIssue n a) := by
  have h := dsxIssueCore_frame s n a
  unfold State.dsxIssue
  generalize s.dsxIssueCore n a = p at *
  obtain ⟨t, full⟩ := p
  dsimp only at *
  split
  · exact faultFrame_trans h (fcuEvent_frame _ _)
  · exact h

/-- A FLT bit raised: beside what an event does, FLT and FCT of the page. -/
theorem raiseFlt_get (s : State) (p k : Nat) (g : Fld) (h : faultKey g.key = false) (h1 : g.key ≠ (R.FLT p).key)
    (h2 : g.key ≠ (R.FCT p).key) : (s.raiseFlt p k).get g = s.get g := by
  simp only [State.raiseFlt]
  split
  · rw [(fcuEvent_frame _ _).get g h, State.incSat, State.addSat, State.get_put_ne _ _ _ _ (fun e => h2 e.symm),
      State.putBit, State.get_put_ne _ _ _ _ (fun e => h1 e.symm)]
  · rw [State.putBit, State.get_put_ne _ _ _ _ (fun e => h1 e.symm)]

/-- What a raised FLT bit leaves of the state. -/
theorem raiseFlt_rest (s : State) (p k : Nat) :
    { s.raiseFlt p k with regs := s.regs, dsx := s.dsx, fcu := s.fcu, alm := s.alm, red := s.red, cell := s.cell } = s := by
  simp only [State.raiseFlt]
  split
  · have e := (fcuEvent_frame (((s.putBit (R.FLT p) k true)).incSat (R.FCT p)) (0x40 + p)).rest
    exact (congrArg (fun x : State =>
      { x with regs := s.regs, dsx := s.dsx, fcu := s.fcu, alm := s.alm, red := s.red, cell := s.cell }) e :)
  · rfl

/-- FLT of the page after a raise, on a page other than the FCU's and the dispatcher's. -/
theorem raiseFlt_flt (s : State) (p k : Nat) (h : faultKey (R.FLT p).key = false) :
    (s.raiseFlt p k).get (R.FLT p) = setBitN (s.get (R.FLT p)) k % 2 ^ 32 := by
  have e1 : (R.FCT p).key ≠ (R.FLT p).key := by simp only [R.FCT, R.FLT, fld]; omega
  have e2 : (s.putBit (R.FLT p) k true).get (R.FLT p) = setBitN (s.get (R.FLT p)) k % 2 ^ 32 := by
    simp only [State.putBit, if_true, State.get_put_self]; rfl
  simp only [State.raiseFlt]
  split
  · rw [(fcuEvent_frame _ _).get _ h, State.incSat, State.addSat, State.get_put_ne _ _ _ _ e1, e2]
  · exact e2

/-! ### Chains of updates and faults -/

theorem faultsAnd_refl (l : List Fld) (s : State) : FaultsAnd l s s := ⟨rfl, fun _ _ _ => rfl⟩

theorem faultsAnd_trans {l : List Fld} {s t u : State} (h : FaultsAnd l s t) (k : FaultsAnd l t u) :
    FaultsAnd l s u := by
  refine ⟨?_, fun g a b => (k.2 g a b).trans (h.2 g a b)⟩
  have c := congrArg (fun x : State =>
    { x with regs := s.regs, dsx := s.dsx, fcu := s.fcu, alm := s.alm, red := s.red, cell := s.cell }) k.1
  exact c.trans h.1

theorem faultsAnd_frame {l : List Fld} {s t u : State} (h : FaultsAnd l s t) (k : FaultFrame t u) : FaultsAnd l s u :=
  faultsAnd_trans h ⟨k.rest, fun g _ b => k.get g b⟩

theorem faultsAnd_only {l : List Fld} {s t : State} (h : OnlyFields l s t) : FaultsAnd l s t := by
  refine ⟨?_, fun g a _ => h.2 g a⟩
  exact (congrArg (fun x : State => { x with dsx := s.dsx, fcu := s.fcu, alm := s.alm, red := s.red, cell := s.cell }) h.1 :)

theorem faultsAnd_put {l : List Fld} {s t : State} {f : Fld} {v : Nat} (hf : f ∈ l) (h : FaultsAnd l s t) :
    FaultsAnd l s (t.put f v) := faultsAnd_trans h (faultsAnd_only (onlyFields_put hf (onlyFields_refl l t)))

theorem faultsAnd_fcuEvent {l : List Fld} {s t : State} {n : Nat} (h : FaultsAnd l s t) :
    FaultsAnd l s (t.fcuEvent n) := faultsAnd_frame h (fcuEvent_frame t n)

theorem faultsAnd_dsxIssue {l : List Fld} {s t : State} {n a : Nat} (h : FaultsAnd l s t) :
    FaultsAnd l s (t.dsxIssue n a) := faultsAnd_frame h (dsxIssue_frame t n a)

theorem faultsAnd_raiseFlt {l : List Fld} {s t : State} {p k : Nat} (h1 : R.FLT p ∈ l) (h2 : R.FCT p ∈ l)
    (h : FaultsAnd l s t) : FaultsAnd l s (t.raiseFlt p k) := by
  refine faultsAnd_trans h ⟨raiseFlt_rest t p k, fun g a b => raiseFlt_get t p k g b ?_ ?_⟩
  · intro e; exact a (e ▸ List.mem_map_of_mem h1)
  · intro e; exact a (e ▸ List.mem_map_of_mem h2)

theorem faultsAnd_hourly {l : List Fld} {s t : State} {f : AlmState → AlmState} (h : FaultsAnd l s t) :
    FaultsAnd l s (t.hourly f) := faultsAnd_trans h ⟨rfl, fun _ _ _ => rfl⟩

theorem faultsAnd_if {l : List Fld} {s t u : State} {b : Prop} [Decidable b] (h : FaultsAnd l s t)
    (k : FaultsAnd l s u) : FaultsAnd l s (if b then t else u) := by
  split
  · exact h
  · exact k

theorem faultsAnd_when {l : List Fld} {s t u : State} {b : Bool} (h : FaultsAnd l s t) (k : FaultsAnd l s u) :
    FaultsAnd l s (t.when b u) := faultsAnd_if k h

/-- The FLT bit raised is set, whatever the event behind it does (pages other than the FCU's and the dispatcher's). -/
theorem raiseFlt_bit (s : State) (p k : Nat) (h : faultKey (R.FLT p).key = false) (hk : k < 32) :
    (s.raiseFlt p k).bit (R.FLT p) k = true := by
  simp only [State.bit, raiseFlt_flt s p k h, setBitN, bitOf, decide_eq_true_eq]
  generalize s.get (R.FLT p) = v
  have e : 2 ^ 32 = 2 ^ k * 2 ^ (32 - k) := by rw [← pow_add]; congr 1; omega
  have m : ∀ x : Nat, x % 2 ^ 32 / 2 ^ k = x / 2 ^ k % 2 ^ (32 - k) := by
    intro x; rw [e, Nat.mod_mul_right_div_self]
  have d : (2 : Nat) ∣ 2 ^ (32 - k) := dvd_pow_self 2 (by omega)
  split
  · rename_i hv
    rw [m, Nat.mod_mod_of_dvd _ d]; exact hv
  · rename_i hv
    rw [m, Nat.mod_mod_of_dvd _ d, Nat.add_div_right _ (by positivity)]
    have hv' : v / 2 ^ k % 2 ≠ 1 := hv
    show (v / 2 ^ k + 1) % 2 = 1
    omega

end Sys2Proof.Machine
end

