-- ==== Sys2Proof/Laws/Lane.lean ====
section
/-! SUPPORT. What handing a frame to a transmitter that is free does, and what its start leaves alone. -/

namespace Sys2Proof.Machine

/-- A lane reads what was put into it. -/
@[simp] theorem State.lane_setLane (s : State) (n : Nat) (l : LaneState) : (s.setLane n l).lane n = l :=
  nth_setNth_self ..

/-- The other lanes stand. -/
theorem State.lane_setLane_ne (s : State) (n m : Nat) (l : LaneState) (h : n ≠ m) : (s.setLane n l).lane m = s.lane m :=
  nth_setNth_ne _ _ _ _ _ h

/-- A frame that leaves at the instant for which it was made is unchanged. -/
@[simp] theorem lateBy_zero (own : Bool) (f : Frame) : lateBy own f 0 = f := by simp [lateBy]

/-- Nothing waits for a free transmitter. -/
theorem nextQueued_none {q : List Queued} {n : Nat} (h : ∀ x ∈ q, x.lane ≠ n) : nextQueued q n = Option.none := by
  have hf : ∀ c, q.find? (fun x => x.lane == n && x.cls == c) = Option.none := by
    intro c
    rw [List.find?_eq_none]
    intro x hx
    simp [h x hx]
  simp [nextQueued, hf]

/-- No gap of a free transmitter starts a waiting frame. -/
theorem State.settle_free {s : State} {n : Nat} (h : s.Free n) (k : Nat) : s.settle n k = s := by
  cases k with
  | zero => rfl
  | succ k =>
    have hn : nextQueued (s.startable n) n = Option.none :=
      nextQueued_none (fun x hx => h.2.2.2 x (List.mem_filter.mp hx).1)
    simp [State.settle, hn]

/-- A frame for a free transmitter starts now. -/
theorem State.startAt_free {s : State} {n : Nat} (h : s.Free n) (own : Bool) : s.startAt n own s.now10 = s.now10 := by
  have hg : s.gapOf n own ≤ 2 := by unfold State.gapOf; split <;> omega
  have := h.2.2.1
  unfold State.startAt
  omega

/-- A frame handed to a free transmitter starts at once, as it is. -/
theorem State.offer_free {s : State} {n : Nat} (h : s.Free n) (src : Option Nat) (app own : Bool) (f : Frame)
    (hp : own = true → fType f = tyProbeReply → fieldBE f 14 4 ≤ 256000) :
    s.offer n src app own f = s.startTx n src app own s.now10 0 f := by
  have hd : (s.startAt n own s.now10 - s.now10) * 256 / 100 = 0 := by rw [State.startAt_free h]; simp
  have hl : (own && fType f == tyProbeReply && decide (256000 < fieldBE f 14 4)) = false := by
    by_cases ho : own = true
    · by_cases ht : fType f = tyProbeReply
      · have := hp ho ht
        simp [Nat.not_lt.mpr this]
      · simp [ht]
    · simp [ho]
  simp only [State.offer, State.gaps, State.settle_free h, h.2.1, State.entry, State.depart, hd, lateBy_zero, hl]
  simp

/-- A frame that starts is the newest that the module has put on its lanes. -/
@[simp] theorem State.startTx_out (s : State) (n : Nat) (src : Option Nat) (app own : Bool) (t0 whole : Nat) (f : Frame) :
    (s.startTx n src app own t0 whole f).out = ⟨n, f⟩ :: s.out := rfl

/-- A start changes the lane and what has been sent, and nothing else. -/
theorem State.startTx_frame (s : State) (n : Nat) (src : Option Nat) (app own : Bool) (t0 whole : Nat) (f : Frame) :
    { s.startTx n src app own t0 whole f with lanes := s.lanes, out := s.out } = s := rfl

/-- The other lanes stand. -/
theorem State.startTx_lane_ne (s : State) (n m : Nat) (src : Option Nat) (app own : Bool) (t0 whole : Nat) (f : Frame) (h : n ≠ m) :
    (s.startTx n src app own t0 whole f).lane m = s.lane m := State.lane_setLane_ne _ _ _ _ h

/-- A relay of a frame over a free transmitter in service sends it at once. -/
theorem State.passOn_free {s : State} {n m : Nat} (app : Bool) (f : Frame) (ha : s.azfOn = true) (hm : s.laneOk m = true)
    (h : s.Free m) : s.passOn n m app f = s.startTx m (some n) app false s.now10 0 f := by
  simp [State.passOn, ha, hm, State.offer_free h]

/-- A frame of the node's own over a free transmitter in service, at an instant that allows it, is sent at once; a cell
without a NodeID has used up an open source. -/
theorem State.launch_free {s : State} {n : Nat} (f : Frame) (ha : s.azfOn = true) (hl : s.mayLaunch = true)
    (hn : s.laneOk n = true) (h : s.Free n) (hp : fType f = tyProbeReply → fieldBE f 14 4 ≤ 256000) :
    s.launch n f = (s.startTx n Option.none false true s.now10 0 f).when s.unassigned
      { s.startTx n Option.none false true s.now10 0 f with freeCtr := s.freeCtr + 1 } := by
  simp only [State.launch, ha, hl, hn, Bool.and_self, State.offer_free h _ _ _ _ (fun _ => hp)]
  rfl

end Sys2Proof.Machine
end

