-- ==== Sys2Proof/Laws/Memory.lean ====
section
/-! SUPPORT. Memory: every operation keeps the canonical form; a read after a write; frames. -/

namespace Sys2Proof.Machine

/-- What lies above a higher address lies above a lower one. -/
theorem Memory.above_mono {a b : Nat} {m : List Host.Cell} (h : a ≤ b) (hm : Memory.above b m = true) :
    Memory.above a m = true := by
  simp only [Memory.above, List.all_eq_true, decide_eq_true_eq] at *
  intro c hc; have := hm c hc; omega

/-- A write above an address leaves everything above it. -/
theorem Memory.above_write {d : Byte} {a x : Nat} {b : Byte} {m : List Host.Cell} (hm : Memory.above a m = true)
    (hx : a < x) : Memory.above a (Memory.write d m x b) = true := by
  induction m with
  | nil =>
    simp only [Memory.write]
    split <;> simp [Memory.above, hx]
  | cons c t ih =>
    simp only [Memory.above, List.all_cons, Bool.and_eq_true, decide_eq_true_eq] at hm ih
    simp only [Memory.write]
    split
    · split <;> simp [Memory.above, hx, hm.1] <;> simpa [Memory.above] using hm.2
    · split
      · split <;> simp [Memory.above, hx] <;> simpa [Memory.above] using hm.2
      · simp only [Memory.above, List.all_cons, Bool.and_eq_true, decide_eq_true_eq]
        exact ⟨hm.1, ih hm.2⟩

/-- A write keeps the canonical form. -/
theorem Memory.wf_write {d : Byte} {m : List Host.Cell} (a : Nat) (b : Byte) (h : Memory.wf d m = true) :
    Memory.wf d (Memory.write d m a b) = true := by
  induction m with
  | nil =>
    simp only [Memory.write]
    split
    · rfl
    · rename_i hb; simp [Memory.wf, Memory.above, hb]
  | cons c t ih =>
    simp only [Memory.wf, Bool.and_eq_true, decide_eq_true_eq] at h
    obtain ⟨⟨h1, h2⟩, h3⟩ := h
    simp only [Memory.write]
    split
    · rename_i hlt
      split
      · simp [Memory.wf, h1, h2, h3]
      · rename_i hb
        simp only [Memory.wf, Bool.and_eq_true, decide_eq_true_eq]
        refine ⟨⟨hb, ?_⟩, ⟨h1, h2⟩, h3⟩
        simp only [Memory.above, List.all_cons, Bool.and_eq_true, decide_eq_true_eq]
        exact ⟨hlt, Memory.above_mono (Nat.le_of_lt hlt) h2⟩
    · split
      · rename_i heq
        split
        · exact h3
        · rename_i hb
          simp [Memory.wf, hb, heq, h2, h3]
      · rename_i h4 h5
        simp only [Memory.wf, Bool.and_eq_true, decide_eq_true_eq]
        exact ⟨⟨h1, Memory.above_write h2 (by omega)⟩, ih h3⟩

/-- Writing bytes keeps the canonical form. -/
theorem Memory.wf_writeBytes {d : Byte} {m : List Host.Cell} (a : Nat) (l : List Byte) (h : Memory.wf d m = true) :
    Memory.wf d (Memory.writeBytes d m a l) = true := by
  induction l generalizing m a with
  | nil => exact h
  | cons b t ih => exact ih _ (Memory.wf_write a b h)

/-- Writing a word keeps the canonical form. -/
theorem Memory.wf_write32 {d : Byte} {m : List Host.Cell} (a v : Nat) (h : Memory.wf d m = true) :
    Memory.wf d (Memory.write32 d m a v) = true := Memory.wf_writeBytes a _ h

/-- Unlisting addresses keeps the canonical form. -/
theorem Memory.wf_clear {d : Byte} {m : List Host.Cell} (lo hi : Nat) (h : Memory.wf d m = true) :
    Memory.wf d (Memory.clear m lo hi) = true := by
  induction m with
  | nil => rfl
  | cons c t ih =>
    simp only [Memory.wf, Bool.and_eq_true, decide_eq_true_eq] at h
    have ih' := ih h.2
    simp only [Memory.clear, List.filter_cons] at ih' ⊢
    split
    · simp only [Memory.wf, Bool.and_eq_true, decide_eq_true_eq]
      refine ⟨⟨h.1.1, ?_⟩, ih'⟩
      have h2 := h.1.2
      simp only [Memory.above, List.all_eq_true, decide_eq_true_eq] at h2 ⊢
      exact fun x hx => h2 x (List.mem_filter.mp hx).1
    · exact ih'

/-- Below everything listed, a memory reads as an unlisted address does. -/
theorem Memory.read_above {d : Byte} {m : List Host.Cell} {a x : Nat} (h : Memory.above a m = true) (hx : x ≤ a) :
    Memory.read d m x = d := by
  cases m with
  | nil => rfl
  | cons c t =>
    simp only [Memory.above, List.all_cons, Bool.and_eq_true, decide_eq_true_eq] at h
    simp only [Memory.read]
    split
    · omega
    · split
      · rfl
      · omega

/-- A read after a write to the same address gives the byte written. -/
theorem Memory.read_write_self {d : Byte} {m : List Host.Cell} (a : Nat) (b : Byte) (h : Memory.wf d m = true) :
    Memory.read d (Memory.write d m a b) a = b := by
  induction m with
  | nil =>
    simp only [Memory.write]
    split
    · rename_i hb; simp [Memory.read, hb]
    · simp [Memory.read]
  | cons c t ih =>
    simp only [Memory.wf, Bool.and_eq_true, decide_eq_true_eq] at h
    simp only [Memory.write]
    split
    · rename_i hlt
      split
      · rename_i hb
        have hne : c.1 ≠ a := by omega
        simp [Memory.read, hne, hlt, hb]
      · simp [Memory.read]
    · split
      · rename_i heq
        split
        · rename_i hb
          rw [Memory.read_above h.1.2 (by omega), hb]
        · simp [Memory.read]
      · rename_i h4 h5
        have hne : c.1 ≠ a := fun e => h5 e.symm
        simp only [Memory.read, if_neg hne, if_neg h4]
        exact ih h.2

/-- A write leaves every other address alone. -/
theorem Memory.read_write_ne {d : Byte} {m : List Host.Cell} (a x : Nat) (b : Byte) (h : Memory.wf d m = true)
    (hx : x ≠ a) : Memory.read d (Memory.write d m a b) x = Memory.read d m x := by
  induction m with
  | nil =>
    simp only [Memory.write]
    split
    · rfl
    · simp only [Memory.read, if_neg (fun e => hx (Eq.symm e))]
      split <;> rfl
  | cons c t ih =>
    simp only [Memory.wf, Bool.and_eq_true, decide_eq_true_eq] at h
    simp only [Memory.write]
    split
    · rename_i hlt
      split
      · rfl
      · show Memory.read d ((a, b) :: c :: t) x = _
        rw [Memory.read]
        simp only [if_neg (fun e => hx (Eq.symm e))]
        split
        · rename_i hxa
          rw [Memory.read, if_neg (by omega), if_pos (by omega)]
        · rfl
    · split
      · rename_i heq
        subst heq
        split
        · show _ = Memory.read d (c :: t) x
          rw [Memory.read, if_neg (fun e => hx (Eq.symm e))]
          split
          · rename_i hlt; exact Memory.read_above h.1.2 (Nat.le_of_lt hlt)
          · rfl
        · show Memory.read d ((c.1, b) :: t) x = Memory.read d (c :: t) x
          rw [Memory.read, Memory.read, if_neg (fun e => hx (Eq.symm e)), if_neg (fun e => hx (Eq.symm e))]
      · simp only [Memory.read]
        split
        · rfl
        · split
          · rfl
          · exact ih h.2

/-- Writing bytes leaves every address outside them alone. -/
theorem Memory.read_writeBytes_ne {d : Byte} {m : List Host.Cell} (a x : Nat) (l : List Byte)
    (h : Memory.wf d m = true) (hx : x < a ∨ a + l.length ≤ x) :
    Memory.read d (Memory.writeBytes d m a l) x = Memory.read d m x := by
  induction l generalizing m a with
  | nil => rfl
  | cons b t ih =>
    simp only [List.length_cons] at hx
    simp only [Memory.writeBytes]
    rw [ih (a + 1) (Memory.wf_write a b h) (by omega), Memory.read_write_ne a x b h (by omega)]

/-- Bytes read back where they were written. -/
theorem Memory.readBytes_writeBytes {d : Byte} {m : List Host.Cell} (a : Nat) (l : List Byte)
    (h : Memory.wf d m = true) : Memory.readBytes d (Memory.writeBytes d m a l) a l.length = l := by
  induction l generalizing m a with
  | nil => rfl
  | cons b t ih =>
    simp only [Memory.writeBytes, List.length_cons, Memory.readBytes]
    rw [ih (a + 1) (Memory.wf_write a b h),
      Memory.read_writeBytes_ne (a + 1) a t (Memory.wf_write a b h) (by omega), Memory.read_write_self a b h]

/-- A word's value, cut to 32 bits, reads back where it was written. -/
theorem natLE_bytesLE (n v : Nat) : natLE (bytesLE n v) = v % 256 ^ n := by
  induction n generalizing v with
  | zero => simp [bytesLE, natLE, Nat.mod_one]
  | succ n ih =>
    simp only [bytesLE, natLE, List.foldr_cons]
    have := ih (v / 256)
    simp only [natLE] at this
    rw [this, Nat.pow_succ', Nat.mod_mul]
    simp only [BitVec.toNat_ofNat]
    omega

/-- A word reads back, cut to 32 bits, where it was written. -/
theorem Memory.read32_write32 {d : Byte} {m : List Host.Cell} (a v : Nat) (h : Memory.wf d m = true) :
    Memory.read32 d (Memory.write32 d m a v) a = v % 2 ^ 32 := by
  have hl : (bytesLE 4 v).length = 4 := rfl
  have := Memory.readBytes_writeBytes a (bytesLE 4 v) h
  rw [hl] at this
  simp only [Memory.read32, Memory.write32, this, natLE_bytesLE]
  rfl

/-- Two memories in canonical form that read the same everywhere are the same list. -/
theorem Memory.ext {d : Byte} {m n : List Host.Cell} (hm : Memory.wf d m = true) (hn : Memory.wf d n = true)
    (h : ∀ a, Memory.read d m a = Memory.read d n a) : m = n := by
  induction m generalizing n with
  | nil =>
    cases n with
    | nil => rfl
    | cons c t =>
      simp only [Memory.wf, Bool.and_eq_true, decide_eq_true_eq] at hn
      exact absurd (by simpa [Memory.read] using (h c.1).symm) hn.1.1
  | cons c t ih =>
    simp only [Memory.wf, Bool.and_eq_true, decide_eq_true_eq] at hm
    cases n with
    | nil => exact absurd (by simpa [Memory.read] using h c.1) hm.1.1
    | cons e u =>
      simp only [Memory.wf, Bool.and_eq_true, decide_eq_true_eq] at hn
      have hk : c.1 = e.1 := by
        rcases Nat.lt_trichotomy c.1 e.1 with l | l | l
        · have := h c.1
          rw [Memory.read, if_pos rfl, Memory.read, if_neg (by omega), if_pos l] at this
          exact absurd this hm.1.1
        · exact l
        · have := h e.1
          rw [Memory.read, if_neg (by omega), if_pos l, Memory.read, if_pos rfl] at this
          exact absurd this.symm hn.1.1
      have hv : c.2 = e.2 := by
        have := h c.1
        rwa [Memory.read, if_pos rfl, Memory.read, if_pos hk.symm] at this
      have ht : t = u := by
        apply ih hm.2 hn.2
        intro a
        have := h a
        simp only [Memory.read] at this
        by_cases hc : c.1 = a
        · rw [Memory.read_above hm.1.2 (by omega), Memory.read_above hn.1.2 (by omega)]
        · have hc' : ¬ e.1 = a := by omega
          by_cases hl : a < c.1
          · rw [Memory.read_above hm.1.2 (by omega), Memory.read_above hn.1.2 (by omega)]
          · have hl' : ¬ a < e.1 := by omega
            simpa only [if_neg hc, if_neg hc', if_neg hl, if_neg hl'] using this
      rw [ht, Prod.ext hk hv]

end Sys2Proof.Machine
end

