-- ==== Sys2Proof/WellFormed.lean ====
section
/-! DEFINITION. Which commands can come from outside: the sizes an initiator has, addresses of 64 bits, frames that hold
a byte, quantities that fit the registers that show them. No meaning depends on it. -/

namespace Sys2Proof

/-- An access size a load or store can have. -/
def sizeOk (n : Nat) : Bool := [1, 2, 4, 8].contains n

/-- An address of 64 bits. -/
def addrOk (a : Nat) : Bool := decide (a < 2 ^ 64)

/-- A frame that a lane or MAC can deliver: at least one byte. -/
def frameOk (f : Frame) : Bool := !f.isEmpty

/-- A supply voltage code fits PWR.VIN (R424). -/
def vinOk (v : Nat) : Bool := decide (v < 2 ^ 16)

/-- The commands that can come from outside. -/
def Instr.wf : Instr → Bool
  | .registerWrite _ a _ how _ => addrOk a && sizeOk how.size
  | .cleWindowWrite _ a n _ => addrOk a && sizeOk n
  | .seMemoryAccess _ a n _ _ => addrOk a && sizeOk n
  | .readLowWord _ a how => addrOk a && sizeOk how.size
  | .writeHighWord _ a _ => addrOk a
  | .writeLowWord _ a _ => addrOk a
  | .powerOnReset v => vinOk v
  | .overvoltageShutdown v => vinOk v
  | .vinExcursion v => vinOk v
  | .dieTemperatureLimit t => decide (-2 ^ 15 ≤ t ∧ t < 2 ^ 15)
  | .frameRelay n m f => n != m && frameOk f
  | .unknownFrame n m f => n != m && frameOk f
  | .timingFrameRelay n m f _ => n != m && frameOk f
  | .harvestFrameRelay _ f => frameOk f
  | .harvestFrameReceive _ f => frameOk f
  | .keyExtractReceive _ f => frameOk f
  | .slotCopyReceive _ f => frameOk f
  | .downFrameReceive _ f => frameOk f
  | .repeatFrameReceive _ f => frameOk f
  | .trajectoryReceive _ f => frameOk f
  | .reportReceive _ f => frameOk f
  | .mailboxFrameReceive _ f => frameOk f
  | .timingFrameReceive _ f _ => frameOk f
  | .probeReceive _ f _ => frameOk f
  | .probeReplyReceive _ f _ => frameOk f
  | .enumReceive _ f => frameOk f
  | .enumReplyReceive _ f => frameOk f
  | .assignReceive _ f => frameOk f
  | .mirrorReceive _ f => frameOk f
  | .ethFrameReceive _ f _ => frameOk f
  | .sequencerConversionDone _ _ l => [1, 2, 4, 8, 16, 32, 64, 128].contains l.length
  | .dramScrub a _ _ => decide (a < 2 ^ 36)
  | .stuckHighClassification n p => p != some n
  | .imageSegment _ _ l => decide (1 ≤ l.length ∧ l.length ≤ 250)
  | _ => true

end Sys2Proof
end

