-- ==== Sys2Proof/Tests/Slice0.lean ====
section
/-! SUPPORT. The model's own tests: ill-formed commands that the checks refuse, words of the signal engine written out
from the encoding tables, and for each statement with hypotheses states and operands that meet them. -/

namespace Sys2Proof.Tests

open Sys2Proof Sys2Proof.Machine

/-- A running module of a role (1 Conductor, 2 Section, 3 Cell) with these register fields. -/
def run (role : Nat) (l : List (Fld × Nat)) : State :=
  l.foldl (fun s p => s.put p.1 p.2) (({ State.reset with phase := .run, pwr := { State.reset.pwr with up := true } } : State).put R.SYS_STRAP_ROLE role)

/-- What a command answers on a state, tested. -/
def ask (c : Instr) (s : State) (p : State → Bool) : Bool :=
  match exec c s with
  | .next t => p t
  | _ => false

/-- A Section with confirmed NodeID 0x100, LOCK, its frame unit on, and lanes 0, 1, 16 and 17 in UP and in service. -/
def sectFields : List (Fld × Nat) :=
  [(R.SYS_NODEID_ID, 0x100), (R.SYS_NODEID_VALID, 1), (R.TCK_STAT_LOCK, 1), (R.EN 7, 1), (R.EN 0x34, 1), (R.EN 0x0B, 1)] ++
  [0, 1, 16, 17].flatMap (fun n => [(R.EN (0x20 + n), 1), (R.AZL_LSTAT_STATE n, 5), (R.AZL_LSTAT_INSVC n, 1)])

/-- The same as a Cell at position 1 of ring 1 of pair 0. -/
def cellFields : List (Fld × Nat) := sectFields ++ [(R.SYS_NODEID_ID, 0x441), (R.PWM_SCFG_MODE, 0)]

/-- A running Conductor whose pages take command words. -/
def conductor : State := run 1 [(R.EN 7, 1), (R.TCK_STAT_LOCK, 1), (R.SYS_NODEID_ID, 1), (R.SYS_NODEID_VALID, 1)]

/-- A running Section out of its enumeration, LOCK 0: it powers every page. -/
def sect : State := run 2 []

/-- A running Cell out of its enumeration, LOCK 0. -/
def cell : State := run 3 []

/-! ### Well-formedness -/

/-- A plain access of `n` bytes in machine mode. -/
def acc (n : Nat) : Access := ⟨n, .plain, false, 0, .none⟩

theorem test_wf_size : (Instr.registerWrite .debug 0x40007040 0 (acc 3) 0).wf = false ∧
    (Instr.readLowWord .debug 0x40007040 (acc 3)).wf = false ∧ (Instr.registerWrite .debug 0x40007040 0 (acc 4) 0).wf = true := by
  decide
theorem test_wf_address : (Instr.registerWrite .debug (2 ^ 64) 0 (acc 4) 0).wf = false ∧
    (Instr.readLowWord .debug (2 ^ 64) (acc 4)).wf = false ∧
    (Instr.writeHighWord .debug (2 ^ 64) 0).wf = false ∧ (Instr.writeLowWord .debug (2 ^ 64) 0).wf = false ∧
    (Instr.readLowWord .debug (2 ^ 64 - 1) (acc 8)).wf = true := by decide
theorem test_wf_windows : (Instr.cleWindowWrite .debug (2 ^ 64) 4 0).wf = false ∧ (Instr.cleWindowWrite .debug 0 5 0).wf = false ∧
    (Instr.seMemoryAccess 0 (2 ^ 64) 4 Option.none .none).wf = false ∧ (Instr.seMemoryAccess 0 0 0 Option.none .none).wf = false := by
  decide
theorem test_wf_supply : (Instr.powerOnReset 65536).wf = false ∧ (Instr.overvoltageShutdown 65536).wf = false ∧
    (Instr.vinExcursion 65536).wf = false ∧ (Instr.powerOnReset 65535).wf = true ∧
    (Instr.dieTemperatureLimit 32768).wf = false ∧ (Instr.dieTemperatureLimit (-32769)).wf = false ∧
    (Instr.dieTemperatureLimit (-32768)).wf = true := by decide
theorem test_wf_relays : (Instr.frameRelay 3 3 [0]).wf = false ∧ (Instr.unknownFrame 3 3 [0]).wf = false ∧
    (Instr.timingFrameRelay 3 3 [0] 0).wf = false ∧ (Instr.frameRelay 3 4 [0]).wf = true := by decide
theorem test_wf_frames : ∀ c ∈ [Instr.frameRelay 0 1 [], .unknownFrame 0 1 [], .timingFrameRelay 0 1 [] 0,
    .harvestFrameRelay 0 [], .harvestFrameReceive 0 [], .keyExtractReceive 0 [], .slotCopyReceive 0 [], .downFrameReceive 0 [],
    .repeatFrameReceive 0 [], .trajectoryReceive 0 [], .reportReceive 0 [], .mailboxFrameReceive 0 [],
    .timingFrameReceive 0 [] 0, .probeReceive 0 [] 0, .probeReplyReceive 0 [] 0, .enumReceive 0 [], .enumReplyReceive 0 [],
    .assignReceive 0 [], .mirrorReceive 0 [], .ethFrameReceive 0 [] true], c.wf = false := by decide
theorem test_wf_rest : (Instr.sequencerConversionDone 0 0 [0, 0, 0]).wf = false ∧ (Instr.sequencerConversionDone 0 0 [0, 0]).wf = true ∧
    (Instr.dramScrub (2 ^ 36) .none true).wf = false ∧ (Instr.stuckHighClassification 3 (some 3)).wf = false ∧
    (Instr.imageSegment 0 0 []).wf = false := by decide
theorem test_wf_segment (l : List Byte) (h : 250 < l.length) : (Instr.imageSegment 0 0 l).wf = false := by
  simp [Instr.wf]; omega

/-! ### Witnesses: the queue, reset, the register region -/

theorem witness_StepRunsFrontCommandOrIdles :
    ({ run 1 [] with pending := [.lostClear] } : State).pending = .lostClear :: [] ∧ (run 1 []).pending = [] ∧
    (run 1 []).phase = .run ∧ State.reset.pending = [] ∧ State.reset.phase ≠ .run := by decide

theorem witness_HeldModuleIgnoresCommands : State.reset.phase ≠ .run := by decide

theorem witness_CounterClearsZeroOrLoad :
    (conductor.Takes 7 ∧ conductor.Takes 6 ∧ conductor.Takes 8 ∧ conductor.Takes 0x0B ∧ conductor.role = .conductor) ∧
    (sect.Takes 0x14 ∧ sect.Takes 0x15 ∧ sect.Takes 0x0C ∧ sect.Takes 0x16 ∧ sect.Takes (lanePage 19) ∧
      sect.Takes 0x0F ∧ sect.Takes 0x0E ∧ sect.Takes (sePage 3) ∧ sect.Takes 0x18 ∧ sect.Takes 0x34) := by
  unfold State.Takes; decide

theorem test_drain_count_clear :
    ask .drainCountClear (conductor.put R.TCK_DRNC_TLM 5) (fun t => t.get R.TCK_DRNC_TLM == 0) = true := by decide


theorem witness_RegisterWriteByAccessCode :
    (conductor.Takes 4 ∧ conductor.Takes 6 ∧ conductor.Takes 7 ∧ conductor.Takes 2) ∧
    (∀ a ∈ [0x4000406C, 0x40006048, 0x40007044, 0x40007070, 0x40002040, 0x4000706C],
      conductor.Reaches (.core 0) (acc 4) .store a) ∧
    conductor.en 7 = true ∧ (run 1 []).en 7 = false ∧ (run 1 []).Takes 7 ∧ (run 1 []).Reaches (.core 0) (acc 4) .store 0x40007044 ∧
    (7 % 2 ^ 14 ≠ conductor.get R.TCK_MINP_MINP) ∧ (2 : W32).toNat / 2 % 2 = 1 ∧ conductor.get R.TCK_STAT_PERR < 2 := by
  unfold State.Takes State.Reaches; decide

/-- A plain word, the two fault words, the pulse unit's fault configuration, a word of the field I/O page, a 64-bit register
and a lane's taps, each with an access that reaches it. -/
theorem witness_RegisterAccessesByAccessCodeAndWidth :
    (∀ x ∈ [(7, 0x44), (7, 0x14), (7, 0x10), (0x14, 0x50), (0x16, 0x40), (0x34, 0x44), (lanePage 19, 0x44)],
      sect.Takes x.1 ∧ sect.Reaches (.core 0) (acc 4) .store (0x40000000 + 0x1000 * x.1 + x.2) ∧ pageDefined x.1 = true ∧
      x.2 < 0x1000 ∧ x.2 % 4 = 0 ∧ sect.writeIgnored x.1 x.2 = false ∧ x.1 ≠ 9) ∧
    (plainWord 7 0x44 = true ∧ (∀ f ∈ wordFields 0x16 0x40, f.acc = .rw) ∧ tapsOf 0 = true ∧ tapsOf 0x1F1F1F = false) ∧
    (isWideLow 7 0x60 = true ∧ sect.writeIgnored 7 0x60 = false ∧ sect.writeIgnored 7 0x64 = false ∧
      sect.Reaches (.core 0) (acc 4) .store 0x40007064 ∧ sect.Reaches (.core 0) (acc 4) .load 0x40007064 ∧
      (acc 4).user = (sect.core 0).user) := by
  unfold State.Takes State.Reaches; decide

/-- Engine 1 of a Section executes on level 1; the debug port of a Section is open with register scope. -/
theorem witness_reaches :
    let e : State := sect.setEng 1 { sect.eng 1 with prog1 := some { entry := 0, pc := 0, done := false, timed := false } }
    ((e.put (R.EN (sePage 1)) 1).Reaches (.engine 1) (acc 4) .store 0x40007044) ∧
    (run 2 [(R.SEC_STA_DBGOPEN, 1), (R.SEC_DBG_SCOPE, 2)]).Reaches .debug (acc 4) .load 0x40007060 := by
  unfold State.Reaches; decide

theorem test_register_write_do_field :
    ask (.registerWrite (.core 0) 0x40007044 7 (acc 4) 0) conductor (fun t => t.get (R.WERR 7) == 1) = true ∧
    ask (.registerWrite (.core 0) 0x40007044 7 (acc 4) 0) (run 1 []) (fun t => t.get R.TCK_MINP_MINP == 7) = true := by
  decide +kernel

/-- A write of 1 to a W1C bit in the cycle of its event leaves the bit set. -/
theorem test_register_write_event :
    ask (.registerWrite (.core 0) 0x40007070 2 (acc 4) 2) conductor (fun t => t.get R.TCK_STAT_PERR == 1) = true := by
  decide +kernel

/-- A core whose PMP entry 0 permits no access to the first 4 KB of its local SRAM. -/
def fenced : State :=
  conductor.setCore 0 { conductor.core 0 with pmpcfg := setNth (conductor.core 0).pmpcfg 0 0x98 0,
                                              pmpaddr := setNth (conductor.core 0).pmpaddr 0 0x020001FF 0 }

/-- Past its end a list reads its default. -/
theorem nth_over {α : Type} (l : List α) (i : Nat) (d : α) (h : l.length ≤ i) : nth l i d = d := by
  induction l generalizing i with
  | nil => rfl
  | cons a t ih =>
    cases i with
    | zero => simp at h
    | succ i => exact ih i (by simpa using h)

/-- No interrupt is due at any core. -/
theorem no_irq (d : Nat) : conductor.irq d = Option.none := by
  by_cases h : d < 8
  · revert d; decide
  · have hm : (conductor.core d).meie = false ∧ (conductor.core d).povie = false := by
      have hc : conductor.core d = CoreState.init := by
        have hl : conductor.cores.length = 8 := by decide
        exact nth_over _ _ _ (by omega)
      rw [hc]; exact ⟨rfl, rfl⟩
    simp [State.irq, hm]

/-- Refused by PMP, misaligned outside and inside a block, nowhere, ROM, the windows, and the corners of the register region: a
page not defined, one gated, another width; and an open and a closed debug port. -/
theorem witness_CoreAccessesAndTheirFaults :
    (0x08000002 % 4 ≠ 0 ∧ ((conductor.region 0 0x08000002).map Region.block).getD false = false ∧
      ((conductor.region 0 0x40007042).map Region.block).getD false = true ∧ 0x40007042 % 4 ≠ 0 ∧
      conductor.region 0 0 = some .rom ∧ (sect.region 0 0x41000002 = some .cle ∧ sect.cleBad 0x41000002 4 = true) ∧
      (cell.region 0 0x44000000 = some .pool ∧ cell.gated 0x34 = false)) ∧
    (let s := run 2 [(R.SEC_STA_DBGOPEN, 1), (R.SEC_DBG_SCOPE, 2)];
      s.region 8 0x60000000 = Option.none ∧ s.debugMem = true ∧ s.region 8 0x44000000 = some .pool ∧ s.gated 0x34 = false ∧
      sect.debugMem = false ∧ sect.region 8 0x44000000 ≠ some .pages ∧
      (s.region 8 0x40007042 = some .pages ∧ s.busOk .debug true 0x40007042 4 = false)) ∧
    (conductor.phase = .run ∧ conductor.coreOn 0 = true ∧ conductor.coreHalted 0 = false) ∧
    (0x40007042 % 4 ≠ 0 ∧ conductor.region 0 0x60000000 = Option.none ∧ conductor.region 0 0x40028040 = some .pages ∧
      conductor.busOk (.core 0) true 0x40028040 4 = false ∧ conductor.busOk (.core 0) false 0x40007040 2 = false ∧
      conductor.busOk .debug true 0x40036000 4 = false ∧ conductor.busOk .debug false 0x40040000 4 = false ∧
      conductor.gated 0x28 = true) ∧
    ((conductor.core 0).pmpRefuses .store ((conductor.core 0).accessUser .store) 0x40028040 4 = false ∧
      (fenced.core 0).pmpRefuses .store ((fenced.core 0).accessUser .store) 0x08000000 4 = true ∧
      (fenced.core 0).pmpRefuses .load ((fenced.core 0).accessUser .load) 0x08000FFC 4 = true ∧
      (fenced.core 0).pmpRefuses .load ((fenced.core 0).accessUser .load) 0x08001000 4 = false) ∧
    (conductor.CleanRow 0x0900FFFC ∧ (conductor.core 0).pmpRefuses .load false 0x0800FFFC 4 = false ∧
      ({ conductor.core 0 with resv := some (0x0900FFFC, 4) } : CoreState).resv = some (0x0900FFFC, 4)) := by
  unfold State.CleanRow; decide

/-- A Conductor whose core 0 stands at this word, the first of its local SRAM. -/
def coder (w : Nat) : State :=
  { conductor.setCore 0 { conductor.core 0 with pc := 0x08000000 } with mem := Memory.write32 0 [] 0x09000000 w }

theorem coder_irq (w d : Nat) : (coder w).irq d = Option.none := by
  have hm : ((coder w).core d).meie = false ∧ ((coder w).core d).povie = false := by
    have hc : ∀ d, (conductor.setCore 0 { conductor.core 0 with pc := 0x08000000 }).core d =
        if d = 0 then { conductor.core 0 with pc := 0x08000000 } else CoreState.init := by
      intro d
      by_cases h : d < 8
      · revert d; decide
      · rw [if_neg (by omega)]; exact nth_over _ _ _ ((by decide : (conductor.setCore 0 { conductor.core 0 with pc := 0x08000000 }).cores.length = 8) ▸ Nat.le_of_not_lt h)
    rw [show (coder w).core d = (conductor.setCore 0 { conductor.core 0 with pc := 0x08000000 }).core d from rfl, hc]
    split <;> exact ⟨rfl, rfl⟩
  simp [State.irq, hm]

/-- addi x1,x0,10; lui x5,1; auipc x5,1; jal x1,8; beq x0,x0,8; ecall; the half-word 0; and c.mv x10,x11 (the base encodings
and the compressed ones of the RISC-V specifications). -/
theorem test_rv_words :
    Spells 0x00A00093 4 (some (.alu .add false 1 0 (.imm 10))) ∧ Spells 0x000012B7 4 (some (.lui 5 4096)) ∧
    Spells 0x00001297 4 (some (.auipc 5 4096)) ∧ Spells 0x008000EF 4 (some (.jal 1 8)) ∧
    Spells 0x00000463 4 (some (.branch .eq 0 0 8)) ∧ Spells 0x00000073 4 (some .ecall) ∧ Spells 0 2 Option.none ∧
    Spells 0x0001852E 2 (some (.alu .add false 10 0 (.reg 11))) := by unfold Spells; decide

theorem witness_CoreExecutesTheInstructionAtItsPc :
    ∀ w ∈ [0x00A00093, 0x000012B7, 0x00001297, 0x008000EF, 0x00000463, 0x00000073, 0, 0x0001852E],
      (coder w).RunsAt 0 0 w ∧ ((coder w).core 0).x.length = 32 := by
  intro w hw
  have h : (coder w).phase = .run ∧ (coder w).coreOn 0 = true ∧ (coder w).coreHalted 0 = false ∧
      (let k := (coder w).core 0; k.pcOpen = false ∧ k.user = false ∧ k.mie = false ∧ k.stale = [] ∧
        k.pc = BitVec.ofNat 64 (0x08000000 + 0) ∧ natLE ((coder w).memBytes (0x09000000 + 0x10000 * 0 + 0) 4) = w ∧
        (∀ d ∈ [0, 2], ((coder w).badRow (0x09000000 + 0x10000 * 0 + 0 + d) = false ∧
          (coder w).softRow (0x09000000 + 0x10000 * 0 + 0 + d) = false) ∧
          k.pmpRefuses .fetch (k.accessUser .fetch) (0x08000000 + 0 + d) 2 = false) ∧ k.x.length = 32) := by
    revert w; decide +kernel
  exact ⟨⟨h.1, by decide, h.2.1, h.2.2.1, coder_irq w, h.2.2.2.1, h.2.2.2.2.1, h.2.2.2.2.2.1, h.2.2.2.2.2.2.1, h.2.2.2.2.2.2.2.1,
    by decide, by decide, h.2.2.2.2.2.2.2.2.1, h.2.2.2.2.2.2.2.2.2.1⟩, h.2.2.2.2.2.2.2.2.2.2⟩

theorem test_core_run :
    ask (.readLowWord (.core 0) 0 ⟨4, .run, false, 0, .none⟩) (coder 0x00A00093)
      (fun t => (t.core 0).xr 1 == 10 && (t.core 0).pc == 0x08000004) = true := by decide +kernel

theorem test_core_faults :
    ask (.registerWrite (.core 0) 0x40028040 0 (acc 4) 0) conductor (fun t => (t.core 0).mcause == 7 && t.resp.err) = true ∧
    ask (.readLowWord (.core 0) 0x08000FFC (acc 4)) fenced (fun t => (t.core 0).mcause == 5) = true := by
  decide +kernel

/-- A store to local SRAM and what a load of its third byte then returns. -/
theorem test_core_memory :
    ask (.registerWrite (.core 0) 0x08000004 0x11223344 (acc 4) 0) conductor (fun t =>
      ask (.readLowWord (.core 0) 0x09000006 (acc 1)) t (fun u => (u.core 0).rd == 0x22)) = true := by
  decide +kernel

theorem witness_LowAndHighWordAccesses : conductor.Takes 7 ∧ conductor.Takes 5 ∧
    (∀ a ∈ [0x40007060, 0x40007064], conductor.Reaches (.core 0) (acc 4) .load a) ∧
    (∀ a ∈ [0x40005050, 0x40005054], conductor.Reaches (.core 0) (acc 4) .store a) ∧
    (acc 4).user = (conductor.core 0).user := by
  unfold State.Takes State.Reaches; decide

theorem witness_EnableAndDisableOfBlocks :
    (∀ p ∈ ([9, 0x0D, 0x0E, 0x0F, 0x10, 0x11, 0x12, 0x13, 0x15, 0x18, 0x19] : List (Fin 64)),
      (sect.put (R.EN p) 0).pageLive p = true ∧ pageFixed p = false ∧ (sect.put (R.EN p) 0).en p = false) ∧
    (conductor.pageLive 0x1A = true ∧ pageFixed 0x1A = false ∧ conductor.en 0x1A = false) ∧
    (sect.pageLive 0 = true ∧ pageFixed 0 = true) ∧
    (∀ p ∈ ([9, 0x0D, 0x0F, 0x18, 0x19, 0x0E, 0x15] : List (Fin 64)),
      (sect.put (R.EN p) 1).pageLive p = true ∧ (sect.put (R.EN p) 1).en p = true) ∧
    (sect.pageLive (lanePage 19) = true ∧ sect.en (lanePage 19) = false ∧
      (sect.put (R.EN (lanePage 19)) 1).en (lanePage 19) = true) ∧
    ((run 1 []).pageLive 7 = true ∧ (run 1 []).en 7 = false ∧ (run 1 []).role = .conductor ∧
      conductor.pageLive 7 = true ∧ conductor.en 7 = true ∧ conductor.role = .conductor) := by decide

theorem test_conductor_enable_locks :
    ask (.blockEnable 7) (run 1 []) (fun t => t.lock) = true ∧
    ask (.blockDisable 7) conductor (fun t => !t.lock) = true := by decide

/-- The invariant of a small state is read off its three lists. -/
theorem inv_conductor : conductor.Inv := by
  exact ⟨rfl, rfl, by simp only [conductor, Rising]; exact List.Pairwise.nil⟩
theorem inv_sect : sect.Inv := ⟨rfl, rfl, by simp only [sect, Rising]; exact List.Pairwise.nil⟩

theorem witness_SoftResetAndFaultCountClear :
    (sect.phase = .run ∧ sect.Inv) ∧ (∀ p ∈ ([8, 9, 0x0C, 0x0D, 0x0E, 0x0F, 0x10, 0x11, 0x12, 0x13, 0x15, 0x18, 0x19, 0x34,
      0x0A] : List (Fin 64)), sect.pageLive p = true) ∧ conductor.pageLive 0x1A = true ∧
    (sect.pageLive 0 = true ∧ pageFixed 0 = true) ∧ sect.pageLive (sePage 0) = true ∧ sect.pageLive (sePage 3) = true ∧
    (∀ m : Fin 4, (sect.eng m).waits = []) ∧ (∀ m : Fin 4, (conductor.eng m).waits = []) :=
  ⟨⟨rfl, inv_sect⟩, by decide⟩

theorem witness_CommitsRegisterAndApply :
    (sect.phase = .run ∧ sect.Inv ∧ sect.lock = false ∧ sect.pageLive 63 = false ∧ sect.pageLive 0x0E = true) ∧
    (conductor.lock = true ∧ conductor.pageLive 7 = true ∧ conductor.tickNs < conductor.eveNs) ∧
    ({ conductor with tickNs := conductor.eveNs }.lock = true ∧
      { conductor with tickNs := conductor.eveNs }.pageLive 7 = true ∧
      conductor.eveNs ≤ { conductor with tickNs := conductor.eveNs }.tickNs) ∧
    ({ (run 1 []) with tck := { (run 1 []).tck with due := [0x0B] } }.lock = false ∧
      0x0B ∈ { (run 1 []) with tck := { (run 1 []).tck with due := [0x0B] } }.tck.due) :=
  ⟨⟨rfl, inv_sect, by decide⟩, by decide⟩

theorem test_commit_late :
    ask (.commit 7) { conductor with tickNs := conductor.eveNs } (fun t => t.on (R.LATE 7) && t.tck.later == [7]) = true ∧
    ask (.commit 7) { conductor with tickNs := conductor.eveNs - 1 } (fun t => t.tck.due == [7]) = true := by decide

theorem witness_PowerResetsHoldTheModule :
    (2047 < 2048) ∧ (5120 < 5121) ∧ cell.powerHeld = false ∧ cell.pwr.ckHold = false ∧ (2000 ≤ 2000) ∧ (999 < 1000) ∧ (1000 ≤ 1999 ∧ 1999 < 2000) := by
  decide

theorem test_power_resets :
    ask (.powerOnReset 2047) cell (fun t => t.phase == .held && t.get R.PWR_RSTC_CAUSE == 1) = true ∧
    ask (.nreset 2000) cell (fun t => t.phase == .held && t.get R.PWR_RSTC_CAUSE == 2) = true ∧
    ask (.nreset 999) cell (fun t => t == cell) = true := by decide

/-- A Conductor whose software reset is armed. -/
def armed : State := { conductor with pwr := { conductor.pwr with armed := true } }
/-- A Cell, LOCK 0, whose FCU has commanded a Restart at 5 ns. -/
def restarting : State := { cell with fcu := { cell.fcu with restartAt := some 5 } }

theorem witness_SoftwareAndRestartResets :
    (armed.phase = .run ∧ armed.pwr.armed = true ∧ 100 ≤ 100 ∧ armed.lock = true) ∧
    ({ cell with pwr := armed.pwr }.lock = false ∧ cell.pwr.armed = false) ∧
    (restarting.fcu.restartAt = some 5 ∧ 5 + 1000000 ≤ restarting.fcu.timeNs + 1000005 ∧ restarting.lock = false ∧
      restarting.fcu.timeNs + 1000004 < 5 + 1000000 ∧ cell.fcu.restartAt = Option.none) ∧
    (let s := { restarting.put R.TCK_STAT_LOCK 1 with fcu := { restarting.fcu with timeNs := 1000005 }, tickNs := 0 };
      s.lock = true ∧ 5 + 1000000 ≤ s.fcu.timeNs + s.drainNs ∧ s.drainNs ≤ s.tickNs + s.drainNs ∧ s.tickNs + 0 < s.drainNs) := by
  decide

theorem test_software_reset :
    ask (.softwareReset 100) armed (fun t => t.pwr.swPend && t.phase == .run) = true ∧
    ask (.softwareReset 101) { cell with pwr := armed.pwr } (fun t => t.phase == .run) = true ∧
    ask (.softwareReset 100) { cell with pwr := armed.pwr } (fun t => t.phase == .wiping) = true := by decide

/-- After reset, with VIN risen above 8.5 V. -/
def powered : State := { State.reset with pwr := { State.reset.pwr with up := true } }

theorem witness_ReleaseLatchesStrapsAndWipeRuns :
    (powered.phase = .held ∧ powered.powerHeld = false) ∧ (State.reset.powerHeld = true) ∧ (cell.phase ≠ .held ∧ cell.phase ≠ .wiping) ∧
    { State.reset with phase := .wiping }.phase = .wiping ∧
    (∃ p : Straps, strapsOk p = true ∧ p.role.val = 1) ∧ (∃ p : Straps, strapsOk p = true ∧ p.role.val = 2) ∧
    (∃ p : Straps, strapsOk p = true ∧ p.role.val = 3) ∧ (∃ p : Straps, strapsOk p = false) :=
  ⟨by decide, by decide, by decide, by decide, ⟨⟨1, 1, 0⟩, by decide⟩, ⟨⟨2, 1, 0⟩, by decide⟩, ⟨⟨3, 0, 0⟩, by decide⟩,
    ⟨⟨0, 0, 0⟩, by decide⟩⟩

theorem test_release_conductor :
    ask (.resetRelease ⟨1, 1, 0⟩) powered (fun t => t.phase == .wiping && t.nodeId == 2 && t.idValid) = true := by
  decide

theorem witness_SupplyClockAndTemperatureEvents :
    (2048 ≤ 2303 ∧ 2303 < 2304 ∧ 4608 < 4609 ∧ 5120 ≤ 5120) ∧ (2304 ≤ 4608) ∧ (cell.phase = .run) ∧
    (cell.railGated 3 = true ∧ cell.railGated 0 = false ∧ sect.railGated 3 = false) ∧
    (cell.getS R.ALM_TDIE_TLIM < cell.getS R.ALM_TDIE_TLIM + 1) ∧ cell.laneOn 0 = false ∧
    (run 3 [(R.EN 0x20, 1), (R.AZL_LSTAT_STATE 0, 5)]).laneOn 0 = true := by decide

/-! ### Witnesses: security -/

/-- A running Section with these fields, some of which carry symbolic values. -/
def withFields (l : List (Fld × Nat)) : State := { sect with regs := sect.regs ++ l.map (fun p => (p.1.key, p.2)) }

theorem witness_SecurityCommandsStartAndRefuse :
    sect.phase = .run ∧ sect.on R.SEC_STA_BUSY = false ∧ (run 2 [(R.SEC_STA_BUSY, 1)]).on R.SEC_STA_BUSY = true := by decide

theorem test_security_busy :
    ask .nonce sect (fun t => t.on R.SEC_STA_BUSY && t.sec.cmd == some .nonce) = true ∧
    ask .verify (run 2 [(R.SEC_STA_BUSY, 1)]) (fun t => t.get R.SEC_STA_OERR == 8) = true := by decide

/-- A running Section with this command of the security engine under way. -/
def running (c : SecCmd) : State := { sect with sec := { sect.sec with cmd := some c } }

theorem witness_SecurityCommandsComplete :
    ((running .nonce).sec.trans = false ∧ (running .nonce).sec.cmd = some .nonce ∧ (running .nonce).sec.trng = false) ∧
    ({ run 2 [(R.SEC_OPARG_MIDX, 3)] with sec := (running .extend).sec }.get R.SEC_OPARG_MIDX = 3) ∧
    ((running .extend).get R.SEC_OPARG_MIDX = 0 ∧ (running .extend).sec.cmd = some .extend ∧
      { (running .extend).sec with lock0 := true }.lock0 = true) ∧
    (sect.on R.SEC_STA_BUSY = false ∧ (run 2 [(R.SEC_OPARG_SVNK, 1)]).on R.SEC_OPARG_SVNK = true ∧
      sect.on R.SEC_OPARG_SVNK = false ∧ sect.store.ownerSvn < 1 ∧ sect.store.vendorSvn < 64 ∧ sect.store.rises < 64 ∧
      sect.sec.oSvn ≤ sect.store.ownerSvn) := by decide

/-- A running Section that may sign at index 0, with this command and this reservation. -/
def signing (c : SecCmd) (resv : Nat) : State :=
  { run 2 [(R.SEC_STA_SIGRDY, 1), (R.SEC_RESV_VAL, resv)] with
    sec := (running c).sec, store := { sect.store with ident := true, trees := 1 } }

theorem witness_signatures :
    (signing .sign 64).Inv ∧ (∀ c ∈ [SecCmd.sign, .attest], (signing c 64).sec.cmd = some c ∧ (signing c 64).maySign = true ∧
      (signing c 64).store.next ≠ (signing c 64).get R.SEC_RESV_VAL ∧ (signing c 0).store.next = (signing c 0).get R.SEC_RESV_VAL ∧
      (running c).maySign = false) :=
  ⟨⟨rfl, rfl, by simp only [signing, Rising]; exact List.Pairwise.nil⟩, by decide⟩

theorem test_svn_commit :
    ask .svnCommit { sect with sec := { sect.sec with vSvn := 65 } } (fun t => t.store.vendorSvn == 65) = true ∧
    ask .mlock sect (fun t => t.sec.lock12) = true := by decide

/-- A running Section with an owner root key, before whose ORDER of this KIND by the owner lies a current nonce of zeros. -/
def ordered (kind lcs : Nat) : State :=
  { withFields [(R.SEC_BUF_WORD 0, 0x01000C01 + kind * 65536), (R.SEC_BUF_WORD 1, Config.serial.toNat % 2 ^ 32),
      (R.SEC_BUF_WORD 2, Config.serial.toNat / 2 ^ 32), (R.SEC_BUF_WORD 11, lcs)] with
    sec := { sect.sec with cmd := some .order, nonceOk := true }, store := { sect.store with lcs := lcs, ownerKey := some [] } }

/-- What lies in the first 12 words of SEC.BUF. -/
theorem secBuf_slice (s : State) (i n : Nat) (h : i + n ≤ 48) :
    slice (s.secBuf 2940) i n = slice (s.wordBytes R.SEC_BUF_WORD 12) i n := by
  have hl : (s.wordBytes R.SEC_BUF_WORD 12).length = 48 := by
    simp [State.wordBytes, List.length_flatMap]
  have hr : List.range 735 = List.range 12 ++ (List.range 723).map (12 + ·) := List.range_add (n := 12) (m := 723)
  have hb : s.secBuf 2940 = s.wordBytes R.SEC_BUF_WORD 12 ++
      (((List.range 723).map (12 + ·)).flatMap (fun w => bytesLE 4 (s.get (R.SEC_BUF_WORD w)))).take 2892 := by
    simp only [State.secBuf, State.wordBytes, show (2940 + 3) / 4 = 735 from rfl, hr, List.flatMap_append] at *
    rw [List.take_append, List.take_of_length_le (by omega), hl]
  rw [hb]
  simp only [slice]
  rw [List.drop_append_of_le_length (by omega), List.take_append_of_le_length (by simp; omega)]

theorem ordered_serial (kind lcs : Nat) :
    natLE (slice ((ordered kind lcs).secBuf 2940) 4 8) = Config.serial.toNat := by
  have h : slice ((ordered kind lcs).wordBytes R.SEC_BUF_WORD 12) 4 8 =
      bytesLE 4 (Config.serial.toNat % 2 ^ 32 % 2 ^ 32) ++ bytesLE 4 (Config.serial.toNat / 2 ^ 32 % 2 ^ 32) := rfl
  have hs : Config.serial.toNat < 2 ^ 64 := Config.serial.isLt
  rw [secBuf_slice _ _ _ (by decide), h]
  clear h
  generalize Config.serial.toNat = v at hs
  simp [natLE, bytesLE]
  omega

/-- Where the configured verification accepts the owner's signature, an order of the owner for a state of R396 fails no
condition: transitions 2, 3 and 4, the debug unlock and the key. -/
theorem witness_OrdersAndTransitions (accept : ∀ k m g, Config.xmssVerify k m g = true) :
    ∀ p ∈ [(2, 1), (3, 1), (4, 2), (6, 1), (7, 1)], (ordered p.1 p.2).orderFails ((ordered p.1 p.2).secBuf 2940) = [] ∧
      byteAt ((ordered p.1 p.2).secBuf 2940) 2 = p.1 ∧ (ordered p.1 p.2).phase = .run ∧ (ordered p.1 p.2).sec.trans = false ∧
      (ordered p.1 p.2).sec.cmd = some .order := by
  intro p hp
  have h2 := ordered_serial p.1 p.2
  have hb : ∀ i < 48, byteAt ((ordered p.1 p.2).secBuf 2940) i = byteAt ((ordered p.1 p.2).wordBytes R.SEC_BUF_WORD 12) i :=
    fun i hi => by unfold byteAt fieldBE; rw [secBuf_slice _ i 1 (by omega)]
  have h3 : (ordered p.1 p.2).orderSig ((ordered p.1 p.2).secBuf 2940) = true := by
    have h : byteAt ((ordered p.1 p.2).secBuf 2940) 3 = 1 := by rw [hb 3 (by decide)]; clear hb h2; revert p; decide +kernel
    unfold State.orderSig
    rw [h]
    simp [State.imgKeys, ordered, accept]
  simp only [State.orderFails, h2, h3, beq_self_eq_true, if_true, hb 2 (by decide), hb 3 (by decide), hb 44 (by decide),
    secBuf_slice _ 0 2 (by decide), secBuf_slice _ 12 32 (by decide)]
  clear h2 h3 hb
  revert p
  decide +kernel

/-- One condition fails, with an accepted signature: the order names another state than the module's. -/
theorem witness_order_refused (accept : ∀ k m g, Config.xmssVerify k m g = true) :
    (ordered 3 0).orderFails ((ordered 3 0).secBuf 2940) = [5] := by
  have h2 := ordered_serial 3 0
  have hb : ∀ i < 48, byteAt ((ordered 3 0).secBuf 2940) i = byteAt ((ordered 3 0).wordBytes R.SEC_BUF_WORD 12) i :=
    fun i hi => by unfold byteAt fieldBE; rw [secBuf_slice _ i 1 (by omega)]
  have h3 : (ordered 3 0).orderSig ((ordered 3 0).secBuf 2940) = true := by
    have h : byteAt ((ordered 3 0).secBuf 2940) 3 = 1 := by rw [hb 3 (by decide)]; decide +kernel
    unfold State.orderSig
    rw [h]
    simp [State.imgKeys, ordered, accept]
  simp only [State.orderFails, h2, h3, beq_self_eq_true, if_true, hb 2 (by decide), hb 3 (by decide), hb 44 (by decide),
    secBuf_slice _ 0 2 (by decide), secBuf_slice _ 12 32 (by decide)]
  decide +kernel

/-- A running Section whose life-cycle transition erases: its image bytes in MEAS0's flash are still to go. -/
def erasing : State := { sect with sec := { sect.sec with trans := true }, store := { sect.store with wipe := 3, lcs := 3 } }

theorem witness_TransitionWipeResetsTheModule :
    (erasing.phase = .run ∧ erasing.sec.trans = true ∧ erasing.store.wipe ≠ 0 ∧ erasing.alm.prog = Option.none ∧
      Memory.wf 0xFF erasing.flash = true) ∧ sect.sec.trans = false ∧
    ({ sect.store with lcs := 1 }.lcs = 1 ∧ sect.store.ident = false ∧ { sect.store with lcs := 2 }.lcs = 2) ∧
    ({ sect.store with lcs := 1, making := true }.making = true ∧ sect.store.ident = false) ∧
    ({ sect.store with ident := true }.trees = 0 ∧
      { sect.store with ident := true, trees := 1 }.next / 2 ^ 20 < { sect.store with ident := true, trees := 1 }.trees) := by
  decide

theorem test_entropy_failure : ask .entropyFailure sect (fun t => t.sec.trng && t.bit (R.FLT 5) Flt.SEC_TRNG) = true := by decide

/-- A Cell in recovery: its vendor image booted, no owner image. -/
def recovering : State := { run 3 [(R.SEC_STA_BSTAGE, 0xF)] with sec := { cell.sec with vendorOk := true, booted := true } }

theorem witness_BootAndImageUpdate :
    (sect.phase = .run ∧ sect.sec.booted = false ∧ sect.store.wipe = 0 ∧ { sect.store with lcs := 4 }.lcs = 4 ∧
      sect.store.lcs = 0) ∧ recovering.sec.booted = true ∧
    (recovering.recovers = true ∧ [0].length ≤ 250 ∧ 0x7FFFFF + [(0 : Byte)].length ≤ 0x800000 ∧
      Memory.wf 0xFF recovering.flash = true) ∧ sect.recovers = false ∧ recovering.slotValid 2 0 = false := by decide

/-- The fields of an image header before HASH: for every role, SVN 1, an empty body. -/
def headerFields (kind : Nat) : List Byte :=
  bytesLE 4 0x96400001 ++ bytesLE 1 kind ++ bytesLE 3 0xFF ++ bytesLE 4 1 ++ bytesLE 4 0 ++ bytesLE 4 0 ++ bytesLE 8 0 ++
    bytesLE 8 0

/-- The header of such an image. -/
def header (kind : Nat) : List Byte := headerFields kind ++ (digest [] ++ List.replicate 60 0)

/-- A state with that image in a slot of its kind. -/
def withFlash (s : State) (a : Nat) (l : List Byte) : State :=
  { s with flash := Memory.writeBytes 0xFF [] a l, store := { s.store with ownerKey := some [] } }
theorem withFlash_flash (s : State) (a : Nat) (l : List Byte) : (withFlash s a l).flash = Memory.writeBytes 0xFF [] a l := rfl
theorem withFlash_bytes (s : State) (a : Nat) (l : List Byte) : (withFlash s a l).flashBytes a l.length = l :=
  Memory.readBytes_writeBytes (m := []) a l rfl
theorem withFlash_keys (s : State) (a : Nat) (l : List Byte) : (withFlash s a l).imgKeys 2 = [[]] := rfl
theorem withFlash_vendor (s : State) (a : Nat) (l : List Byte) : (withFlash s a l).imgKeys 1 = s.imgKeys 1 := rfl
theorem withFlash_minSvn (s : State) (a : Nat) (l : List Byte) (kind : Nat) : (withFlash s a l).minSvn kind = s.minSvn kind := rfl
theorem withFlash_role (s : State) (a : Nat) (l : List Byte) : (withFlash s a l).roleBit = s.roleBit := rfl
theorem withFlash_recovers (s : State) (a : Nat) (l : List Byte) : (withFlash s a l).recovers = s.recovers := rfl

/-- A state with that image in a slot. -/
def withImage (s : State) (kind n : Nat) : State := withFlash s (slotBase kind n) (header kind)

theorem headerFields_length (kind : Nat) : (headerFields kind).length = 36 := rfl

theorem header_length (kind : Nat) : (header kind).length = 128 := by
  simp only [header, List.length_append, headerFields_length, digest, bytesBE_length, List.length_replicate]

theorem slice_header (kind i n : Nat) (h : i + n ≤ 36) : slice (header kind) i n = slice (headerFields kind) i n := by
  simp only [slice, header]
  rw [List.drop_append_of_le_length (by rw [headerFields_length]; omega),
    List.take_append_of_le_length (by rw [List.length_drop, headerFields_length]; omega)]

theorem header_fields (kind : Nat) (h : kind ∈ [1, 2]) :
    imgHdr (header kind) = ⟨0x96400001, kind, 0xFF, 1, 0, 0, 0, 0, digest []⟩ := by
  have hb : slice (header kind) 36 32 = digest [] := by
    simp only [slice, header]
    rw [List.drop_append, headerFields_length, List.drop_of_length_le (by rw [headerFields_length])]
    simp [digest]
  have hf : natLE (slice (headerFields kind) 0 4) = 0x96400001 ∧ natLE (slice (headerFields kind) 4 1) = kind ∧
      natLE (slice (headerFields kind) 5 1) = 0xFF ∧ natLE (slice (headerFields kind) 8 4) = 1 ∧
      natLE (slice (headerFields kind) 12 4) = 0 ∧ natLE (slice (headerFields kind) 16 4) = 0 ∧
      natLE (slice (headerFields kind) 20 8) = 0 ∧ natLE (slice (headerFields kind) 28 8) = 0 := by
    clear hb; revert kind; decide +kernel
  simp only [imgHdr, hb, slice_header kind _ _ (by decide : (0 + 4 ≤ 36)), slice_header kind _ _ (by decide : (4 + 1 ≤ 36)),
    slice_header kind _ _ (by decide : (5 + 1 ≤ 36)), slice_header kind _ _ (by decide : (8 + 4 ≤ 36)),
    slice_header kind _ _ (by decide : (12 + 4 ≤ 36)), slice_header kind _ _ (by decide : (16 + 4 ≤ 36)),
    slice_header kind _ _ (by decide : (20 + 8 ≤ 36)), slice_header kind _ _ (by decide : (28 + 8 ≤ 36)), hf]

theorem withImage_slotHdr (s : State) (kind n : Nat) : (withImage s kind n).slotHdr kind n = header kind := by
  have h := withFlash_bytes s (slotBase kind n) (header kind)
  rw [header_length] at h
  rw [State.slotHdr, withImage, h]

theorem imageOk_of_header (s : State) (kind size : Nat) (rd : Nat → Nat → List Byte)
    (h : imgHdr (rd 0 128) = ⟨0x96400001, kind, 0xFF, 1, 0, 0, 0, 0, digest []⟩) (he : rd 128 0 = [])
    (hr : bitOf 0xFF s.roleBit = true) (hs : s.minSvn kind ≤ 1) (hz : 2948 ≤ size)
    (hk : (s.imgKeys kind).any (fun k => Config.xmssVerify k (rd 0 128) (rd 128 2820)) = true) :
    s.imageOk kind size rd = true := by
  simp only [State.imageOk, h]
  simp only [he, hr, hs, hk, beq_self_eq_true, decide_true, Bool.and_self, Bool.and_true, Bool.true_and, decide_eq_true_eq]
  omega

/-- Where the configured verification accepts, such an image is valid in its slot. -/
theorem slotValid_withImage (s : State) (kind n : Nat) (hk : kind ∈ [1, 2]) (hr : bitOf 0xFF s.roleBit = true)
    (hs : s.minSvn kind ≤ 1) (accept : ∀ k m g, Config.xmssVerify k m g = true)
    (key : Config.vendorRevoked 0 = false) : (withImage s kind n).slotValid kind n = true := by
  rw [State.slotValid]
  apply imageOk_of_header
  · rw [Nat.add_zero, ← State.slotHdr, withImage_slotHdr, header_fields kind hk]
  · rw [State.flashBytes, Memory.readBytes]
  · rw [withImage, withFlash_role]; exact hr
  · rw [withImage, withFlash_minSvn]; exact hs
  · rw [slotSize]; split <;> decide
  · simp only [accept, List.any_eq_true, and_true]
    simp only [List.mem_cons, List.not_mem_nil, or_false] at hk
    obtain rfl | rfl := hk
    · refine ⟨Config.vendorKey 0, ?_⟩
      rw [withImage, withFlash_vendor]
      simp only [State.imgKeys, if_true, List.mem_map, List.mem_filter, List.mem_range]
      exact ⟨0, ⟨by decide, by simp [key]⟩, rfl⟩
    · exact ⟨[], by rw [withImage, withFlash_keys]; simp⟩

theorem witness_boot_valid_slot (accept : ∀ k m g, Config.xmssVerify k m g = true) (key : Config.vendorRevoked 0 = false) :
    (withImage sect 1 0).bootSlot 1 = some 0 := by
  have h0 := slotValid_withImage sect 1 0 (by decide) (by decide) (by decide) accept key
  have hr : ∀ a, 0x400000 ≤ a → Memory.read 0xFF (withImage sect 1 0).flash a = 0xFF := fun a ha => by
    rw [withImage, withFlash_flash]
    exact Memory.read_writeBytes_ne (m := []) _ a _ rfl (.inr (by rw [header_length, show slotBase 1 0 = 0 from rfl]; omega))
  have hm : (imgHdr ((withImage sect 1 0).flashBytes (slotBase 1 1) 128)).magic ≠ 0x96400001 := by
    have h4 : ∀ m : List Host.Cell, (∀ a, 0x400000 ≤ a → Memory.read 0xFF m a = 0xFF) →
        natLE (slice (Memory.readBytes 0xFF m 0x400000 128) 0 4) = 0xFFFFFFFF := by
      intro m hm
      have h5 : ∀ k, slice (Memory.readBytes 0xFF m 0x400000 (k + 4)) 0 4 = [0xFF, 0xFF, 0xFF, 0xFF] := by
        intro k
        simp only [slice, Memory.readBytes, List.drop_zero, List.take_succ_cons, List.take_zero, hm 0x400000 (by decide),
          hm (0x400000 + 1) (by decide), hm (0x400000 + 1 + 1) (by decide), hm (0x400000 + 1 + 1 + 1) (by decide)]
      rw [show 128 = 124 + 4 from rfl, h5]; decide
    rw [State.flashBytes, imgHdr, show slotBase 1 1 = 0x400000 from rfl, h4 _ hr]
    decide
  have h1 : (withImage sect 1 0).slotValid 1 1 = false := by
    unfold State.slotValid State.imageOk
    simp [hm]
  simp [State.bootSlot, h0, h1]

theorem witness_image_end (accept : ∀ k m g, Config.xmssVerify k m g = true) (key : Config.vendorRevoked 0 = false) :
    (withImage recovering 2 1).slotValid 2 1 = true ∧ (withImage recovering 2 1).recovers = true ∧
    (imgHdr ((withImage recovering 2 1).slotHdr 2 1)).len + 2948 ≤ 2948 ∧
    (recovering.put R.TCK_STAT_LOCK 1).lock = true := by
  refine ⟨slotValid_withImage recovering 2 1 (by decide) (by decide) (by decide) accept key,
    by rw [withImage, withFlash_recovers]; decide, ?_, by decide⟩
  rw [withImage_slotHdr, header_fields 2 (by decide)]

/-- A state with these bytes in memory from address 0 on, and an owner root key. -/
def withMem (s : State) (l : List Byte) : State :=
  { s with mem := Memory.writeBytes 0 [] 0 l, store := { s.store with ownerKey := some [] } }
theorem withMem_bytes (s : State) (l : List Byte) : (withMem s l).memBytes 0 l.length = l :=
  Memory.readBytes_writeBytes (m := []) 0 l rfl
theorem withMem_keys (s : State) (l : List Byte) : (withMem s l).imgKeys 2 = [[]] := rfl
theorem withMem_minSvn (s : State) (l : List Byte) : (withMem s l).minSvn 2 = s.minSvn 2 := rfl
theorem withMem_role (s : State) (l : List Byte) : (withMem s l).roleBit = s.roleBit := rfl
theorem withMem_get (s : State) (l : List Byte) (f : Fld) : (withMem s l).get f = s.get f := rfl

theorem witness_verify (accept : ∀ k m g, Config.xmssVerify k m g = true) :
    let s := withMem { run 2 [(R.SEC_MLEN_LEN, 2948)] with sec := (running .verify).sec } (header 2)
    s.sec.cmd = some .verify ∧ (imgHdr (s.memBytes s.maddr 128)).kind = 2 ∧
      s.imageOk 2 (min 0x800000 (s.get R.SEC_MLEN_LEN)) (fun o n => s.memBytes (s.maddr + o) n) = true := by
  intro s
  have hm : s.maddr = 0 := rfl
  have hb : s.memBytes 0 128 = header 2 := by
    have h := withMem_bytes { run 2 [(R.SEC_MLEN_LEN, 2948)] with sec := (running .verify).sec } (header 2)
    rw [header_length] at h
    exact h
  refine ⟨rfl, by rw [hm, hb, header_fields 2 (by decide)], ?_⟩
  rw [hm]
  apply imageOk_of_header
  · rw [Nat.add_zero, hb, header_fields 2 (by decide)]
  · rw [State.memBytes, Memory.readBytes]
  · rw [withMem_role]; decide
  · rw [withMem_minSvn]; decide
  · rw [withMem_get]; decide
  · rw [withMem_keys]; simp [accept]

/-! ### Witnesses: field die, safety, pulse unit, converters -/

/-- A Section whose field die is up. -/
def fieldUp : State :=
  { sect with field := { sect.field with
      up := true, volt := 6144, lossMain := false, lossField := false, vwarn := false, vlow := false } }

/-- With a channel of the safety unit changed. -/
def withChan (ch : Nat) (f : SafChan → SafChan) : State := fieldUp.setSaf ch (f (fieldUp.safCh ch))

theorem witness_SafetyOutputsFollowTheirFunctions :
    ((1 : Fin 2) ≠ 0) ∧ sect.field.up = false ∧ fieldUp.field.up = true ∧
    (fieldUp.safCh 0).st = .start ∧ (fieldUp.safCh 1).st = .start ∧ OutputsFollow (fieldUp.safCh 0) ∧
    (let h := (withChan 0 (fun h => { h with st := .run, dip := 4, trav := -17 })).safCh 0;
      h.sf3 = true ∧ h.st = .run ∧ h.violates 0 10 = true) ∧
    ((fieldUp.safCh 0).sf3 = false ∧ (fieldUp.safCh 0).counts = false) ∧
    ((withChan 0 (fun h => { h with st := .run, dip := 4, trav := -16 })).safCh 0).violates 0 10 = false ∧
    (lasted 1000000005 1000000000 (some 5) = true ∧ lasted 1000000005 1000000000 (some 6) = false ∧
      lasted 1000000005 1000000000 Option.none = false) ∧
    (let h := (withChan 0 (fun h => { h with openSince := some 0 })).safCh 0;
      lasted (h.dischargeS * 1000000000) (h.dischargeS * 1000000000) h.openSince = true) := by
  unfold OutputsFollow; decide

/-- At this time of the field die, with channels that run and disagree in the first SI level, seen since `since`. -/
def unequal (ns : Nat) (since : Option Nat) : State :=
  let s := withChan 0 (fun h => { h with si := 1, differ := [some 0, Option.none, Option.none, Option.none],
                                         high := [Option.none, Option.none, Option.none, some 0] })
  { s with field := { s.field with ns := ns, xdisAt := since :: List.replicate 10 Option.none } }

theorem test_saf_self_test :
    ask (.safSelfTestDone 0 true) (withChan 0 (fun h => { h with dip := 1 })) (fun t => (t.safCh 0).st == .run) = true ∧
    ask (.safSelfTestDone 0 true) fieldUp (fun t => (t.safCh 0).st == .idle) = true ∧
    ask (.safSelfTestDone 0 false) fieldUp (fun t => (t.safCh 0).st == .fault) = true := by decide

theorem witness_SafetyFaultsDeEnergise :
    ((0 : Fin 2) ≠ 1) ∧ sect.field.up = false ∧ fieldUp.field.up = true ∧ (5 : BitVec 8) ≠ 4 ∧
    ((fieldUp.safCh 0).st = .start ∧ (fieldUp.safCh 1).st = .start) ∧
    (let s := unequal 20000006 (some 5); nth ((s.safCh 0).disagrees (s.safCh 1)) 0 false = true ∧
      nth s.field.xdisAt 0 Option.none = some 5 ∧ 5 + 20000000 < s.field.ns) ∧
    (let s := unequal 20000005 (some 5); s.field.ns ≤ 5 + 20000000 ∧ s.field.xdisAt.length = 11 ∧
      (∀ k < 11, k ≠ 0 → nth s.field.xdisAt k Option.none = Option.none) ∧
      (∀ k < 11, nth ((fieldUp.safCh 0).disagrees (fieldUp.safCh 1)) k false = false)) ∧
    (let h := (withChan 1 (fun h => { h with st := .run, dipRead := true, dip := 4 })).safCh 1;
      h.dipRead = true ∧ h.st ≠ .start ∧ h.st ≠ .idle ∧ h.dip ≠ (5 : BitVec 8).toNat) ∧
    ((withChan 0 (fun h => { h with st := .idle })).safCh 0).st = .idle ∧ (fieldUp.safCh 0).st ≠ .idle ∧
    (let h := (unequal 100000001 Option.none).safCh 0; lasted 100000001 100000001 (nth h.differ 0 Option.none) = true ∧
      lasted 100000000 100000001 (nth h.differ 0 Option.none) = false ∧ h.isDisc 0 = false ∧
      lasted 1000000000 1000000000 (nth h.high 3 Option.none) = true ∧
      lasted 999999999 1000000000 (nth h.high 3 Option.none) = false) := by decide

theorem test_saf_disagreement :
    ask .crossChannelExchange (unequal 20000006 (some 5)) (fun t => t.field.xdisP && (t.safCh 0).st == .fault && !(t.safCh 0).so0) = true ∧
    ask .crossChannelExchange (unequal 20000005 (some 5)) (fun t => !t.field.xdisP && (t.safCh 0).st == .start) = true := by
  decide

/-- A Cell whose field die is up. -/
def fieldCell : State := { cell with field := fieldUp.field }

theorem witness_SafetyMirrorShowsTheChannels :
    (fieldUp.phase = .run ∧ fieldUp.field.up = true ∧ fieldUp.field.lossMain = false ∧ fieldUp.isK = false ∧
      fieldUp.gated 0x17 = false) ∧
    (fieldCell.isK = true ∧ fieldCell.field.up = true ∧ fieldCell.field.lossMain = false) ∧ sect.field.up = false := by decide

theorem test_saf_mirror :
    ask .safMirrorUpdate (withChan 1 (fun h => { h with dip := 9 })) (fun t => t.get R.SAF_DIP_DIPB == 9) = true := by decide

/-- With the field unit on, output channel 15 in output mode. -/
def fioOn : State :=
  { run 2 [(R.EN 0x16, 1), (R.FIO_CFG_MODE 15, 2), (R.FIO_CFG_AUTO 15, 1), (R.FIO_OUT_OUT, 0x8000), (R.FIO_CFG_DTEN 15, 1),
      (R.FIO_DTCFG_DTINT, 1),
      (R.FIO_CFG_FILT 15, 3)] with field := { fieldUp.field with off := false } }

/-- With the link lost at both sides. -/
def linkLost (s : State) : State := { s with field := { s.field with lossMain := true, lossFlag := true, lossField := true } }

theorem witness_FieldOutputsAndInputs :
    (fioOn.Takes 0x16 ∧ fioOn.field.lossField = false ∧ fioOn.en 0x16 = true ∧ fioOn.heldOff = false ∧
      fioOn.field.up = true) ∧
    ((linkLost fioOn).field.lossField = true ∧ (linkLost fioOn).fioLinked = false ∧ fioOn.fioLinked = true ∧ sect.Takes 0x16 ∧
      sect.field.up = false) ∧ (0 : Fin 16) ≠ 15 ∧
    (bitOf fioOn.fioRx.outMode 15 = true ∧ bitOf fioOn.fioRx.auto 15 = true ∧ bitOf fioOn.fioRx.auto 0 = false ∧
      (linkLost fioOn).field.lossMain = true ∧ fioOn.field.lossMain = false) ∧
    (fioOn.field.test = Option.none ∧ fioOn.bypWrong = false ∧ fioOn.driven = fioOn.field.drive) ∧
    (nth fioOn.fioRx.filt 15 10 * 10 ≤ 30 ∧ 29 < nth fioOn.fioRx.filt 15 10 * 10) ∧
    (11000 < 11001 ∧ 4999 < 5000 ∧ 5000 ≤ 5000 ∧ 11000 ≤ 11000) := by
  unfold State.Takes; decide

theorem test_field_outputs :
    ask (.outputSet 1) fioOn (fun t => t.get R.FIO_OUT_OUT == 0x8001) = true ∧
    ask (.inputChange 15 11001 30) fioOn (fun t => bitOf t.field.pins 15) = true ∧
    ask (.outputThermalShutdown 15) fioOn (fun t => !t.fioSwitch 15) = true ∧
    ask (.groupShutdown 1) fioOn (fun t => !t.fioSwitch 15 && t.bit (R.FLT 0x16) Flt.FIO_GRP) = true := by decide

/-- With these runs of bad and good link frames on both sides, at this supply of the field die. -/
def linkRuns (bad good volt : Nat) : State :=
  { fioOn with field := { fioOn.field with badMain := bad, goodMain := good, badField := bad, goodField := good, volt := volt } }

theorem witness_IsolationLinkAndFieldDie :
    (fioOn.field.told = FieldTold.init ∧ (linkLost fioOn).field.lossFlag = true ∧ bitOf fioOn.fioRx.failst 15 = false) ∧
    ((linkRuns 8 16 0).phase = .run ∧ (linkRuns 8 16 0).field.lossFlag = false ∧ 8 ≤ (linkRuns 8 16 0).field.badMain ∧
      (linkRuns 7 0 0).field.badMain < 8 ∧ (linkRuns 8 0 0).field.lossField = false ∧ 8 ≤ (linkRuns 8 0 0).field.badField) ∧
    ((linkRuns 0 16 0).field.up = true ∧ 16 ≤ (linkRuns 0 16 0).field.goodMain ∧ 16 ≤ (linkRuns 0 16 0).field.goodField ∧
      (linkRuns 0 15 0).field.goodField < 16 ∧ (linkRuns 0 15 0).field.goodMain < 16) ∧
    ((4607 : BitVec 16).toNat < 4608 ∧ 3968 ≤ (3968 : BitVec 16).toNat ∧ fioOn.field.vwarn = false) ∧
    ((linkRuns 0 0 3071).field.up = true ∧ (linkRuns 0 0 3071).field.volt < 3072 ∧ 3072 ≤ (linkRuns 0 0 3072).field.volt) ∧
    ({ sect with field := { sect.field with volt := 4097 } }.field.up = false ∧
      4096 < { sect with field := { sect.field with volt := 4097 } }.field.volt ∧ (linkRuns 0 0 4096).field.volt ≤ 4096) ∧
    (crc8 [0] + 1 ≠ crc8 [0]) := by
  decide

theorem test_field_die :
    ask .fieldDieReset { fioOn with field := { fioOn.field with volt := 3071 } } (fun t => !t.field.up && !t.fioSwitch 15) = true ∧
    ask .fieldDieReset { fioOn with field := { fioOn.field with volt := 3072 } } (fun t => t.field.up) = true ∧
    ask (.linkLoss .main) { fioOn with field := { fioOn.field with badMain := 8 } } (fun t => t.field.lossMain) = true ∧
    ask (.outputWrite 0) (linkLost fioOn) (fun t => t.get R.FIO_OUT_OUT == 0 && t.fioRx.out == (linkLost fioOn).field.rx.out) = true := by
  decide

theorem witness_DarkTestsAndClassification :
    (fioOn.driven = fioOn.field.drive ∧ fioOn.bypWrong = false ∧ fioOn.field.told = FieldTold.init ∧
      fioOn.field.lossMain = false ∧ (linkLost fioOn).field.lossMain = true) ∧
    (fioOn.phase = .run ∧ fioOn.fioRx.tests = true ∧ fioOn.fioTests = true ∧ fioOn.field.cls = Option.none ∧ fioOn.field.test = Option.none ∧ fioOn.darkChannels = [15]) ∧
    (fieldUp.put R.FIO_DTCFG_DTINT 0).fioRx.tests = false ∧
    ({ fioOn with field := { fioOn.field with test := some 15 } }.fioWanted 15 = true ∧
      { fioOn.field with test := some 15 }.test = some 15 ∧ fioOn.field.round = []) ∧
    ({ fieldUp with field := { fieldUp.field with test := some 15 } }.fioDeliver.fioWanted 15 = false) ∧
    ({ fioOn with field := { fioOn.field with cls := some 3 } }.stuckHigh 3 = true ∧ (15 : Fin 16) ≠ 3 ∧
      { fioOn with field := { fioOn.field with cls := some 3 } }.fioSwitch 15 = true) := by decide

theorem test_dark_test :
    ask .darkTestRound fioOn (fun t => t.field.test == some 15 && !t.fioSwitch 15) = true ∧
    ask (.darkTestEnd false) { fioOn with field := { fioOn.field with test := some 15 } }
      (fun t => t.get R.FIO_DTCNT_PASS == 1) = true ∧
    ask (.stuckHighClassification 3 (some 15)) { fioOn with field := { fioOn.field with cls := some 3 } }
      (fun t => t.get (R.FIO_CSTA_PARTNER 3) == 15 && t.on (R.FIO_CSTA_TIE 15)) = true := by decide

/-- With encoder channel 3 on, in quadrature. -/
def encOn : State := { run 2 [(R.EN 0x18, 1), (R.ENC_CFG_EN 3, 1)] with field := fieldUp.field }

theorem witness_EncodersCountEdges :
    encOn.phase = .run ∧ encOn.encOn 3 = true ∧ encOn.encOn 0 = false ∧ encOn.Takes 0x18 ∧ EncInput.a ≠ .z ∧
    (encOn.get (R.ENC_WSTA_WIRE 3) = (encOn.encChan 3).wire ∧ bitOf (encOn.encChan 3).wire (pairBit .a) = false) := by
  unfold State.Takes; decide

theorem test_encoder_edge :
    ask (.encoderEdge 3 .a true) encOn (fun t => t.getS (R.ENC_POS_VAL 3) == 1) = true ∧
    ask (.encoderEdge 3 .b true) encOn (fun t => t.getS (R.ENC_POS_VAL 3) == -1) = true := by decide

/-- With the pulse unit on in strike mode, gate fault input 3 enabled. -/
def pwmOn : State := run 3 [(R.EN 0x14, 1), (R.PWM_FCFG_EN, 8), (R.EN 0x15, 1), (R.TCK_STAT_LOCK, 1)]

theorem witness_GateFaultsForceHighImpedance :
    (pwmOn.phase = .run ∧ pwmOn.en 0x14 = true ∧ pwmOn.bit R.PWM_FCFG_EN 3 = true ∧ pwmOn.bit R.PWM_FCFG_EN 0 = false ∧
      cell.en 0x14 = false ∧ cell.phase = .run ∧ (true = pwmOn.bit R.PWM_FCFG_POL 3 ∨ false = pwmOn.bit R.PWM_FCFG_POL 3)) ∧
    pwmOn.Takes 0x14 ∧
    (let s := pwmOn.put R.PWM_FCFG_FILT 3;
      pwmOn.get R.PWM_FCFG_FILT * 2 ≤ pwmOn.get R.PWM_FCFG_FILT * 2 ∧ 5 < s.get R.PWM_FCFG_FILT * 2 ∧
      (pwmOn.put R.PWM_SCFG_BYPGF 1).on R.PWM_SCFG_BYPGF = true ∧ bitOf pwmOn.gf 3 = false ∧
      (pwmOn.put R.PWM_GSTA_HIZ 0).hiz = false) ∧
    (let s := pwmOn.put (R.FLT 0x14) 8; s.Takes 0x14 ∧ s.en 0x14 = true ∧ s.frozen = false ∧ s.heldOff = false ∧ s.gf ≠ 0 ∧
      s.get (R.FLT 0x14) < 2 ^ 32) ∧
    (bitOf (8 : BitVec 4).toNat 3 = true ∧ bitOf (7 : BitVec 4).toNat 3 = false ∧ pwmOn.get (R.FLT 0x14) < 2 ^ 32) ∧
    ((run 3 [(R.FLT 0x14, 8)]).bit (R.FLT 0x14) 3 = true ∧
      Nat.land (Nat.land (8 : BitVec 4).toNat (8 : BitVec 4).toNat) (run 3 [(R.FLT 0x14, 8)]).gf ≠ 0) := by
  unfold State.Takes; decide

theorem test_gate_fault :
    ask (.gateFault 3 (pwmOn.bit R.PWM_FCFG_POL 3) 1000) pwmOn (fun t => t.hiz && t.bit (R.FLT 0x14) (Flt.PWM_GF + 3)) = true ∧
    ask (.gateFaultClear 8 8) (run 3 [(R.FLT 0x14, 8)]) (fun t => t.bit (R.FLT 0x14) 3 && t.on R.PWM_GSTA_CLRREF) = true := by decide

/-- A Section in carrier mode, outputs in high impedance, output 1 to compare at 100. -/
def carrier : State :=
  { run 2 [(R.EN 0x14, 1), (R.PWM_SCFG_MODE, 1), (R.PWM_GSTA_HIZ, 1), (R.SEC_STA_DBGOPEN, 1), (R.SEC_DBG_SCOPE, 1)] with
    pwm := { sect.pwm with cper := 1000, ccmp := [0, 100, 1000, 1001] } }

/-- A Cell in strike mode, outputs driven, with a trim pulse due at this quarter of a nanosecond. -/
def trimming (toff : Nat) : State :=
  { pwmOn with cell := { cell.cell with trimDue := true } }.put R.PWM_GSTA_HIZ 0 |>.put R.PWM_ITOFF_TOFF toff |>.put R.PWM_SCFG_MODE 0

theorem witness_PulseUnitEdgesAndModes :
    ({ sect with pwm := { sect.pwm with pendOn := 8 } }.pwm.pendOn ≠ 0 ∧ sect.frozen = false ∧ sect.pwm.pendOn = 0) ∧
    ((trimming 10000).isK = true ∧ (trimming 10000).cell.trimDue = true ∧ (trimming 10000).canSwitch = true ∧
      (trimming 10000).on R.PWM_SCFG_DTC = false ∧
      (trimming 10000).pwm.lastOffA + (trimming 10000).minpq ≤ (trimming 10000).get R.PWM_ITOFF_TOFF ∧
      (trimming 10000).get R.PWM_ITOFF_TOFF + (trimming 10000).minpq ≤ (trimming 10000).tpq) ∧
    (cell.isK = true ∧ { cell.cell with trimDue := true }.trimDue = true ∧ cell.canSwitch = false ∧
      cell.cell.trimDue = false) ∧
    (carrier.phase = .run ∧ carrier.carrierRuns = true ∧ carrier.hiz = true ∧ sect.carrierRuns = false) ∧
    (nth carrier.pwm.ccmp 1 0 ≠ 0 ∧ nth carrier.pwm.ccmp 1 0 < max 1 carrier.pwm.cper ∧ bitOf carrier.pwm.met 1 = false ∧
      carrier.pwm.phase < carrier.pwm.period ∧ carrier.pwm.phase ≤ nth carrier.pwm.ccmp 1 0 ∧
      (nth carrier.pwm.ccmp 1 0 - carrier.pwm.phase) % 4 = 0) ∧
    (let s := carrier.put R.PWM_GSTA_HIZ 0; s.carrierRuns = true ∧ s.hiz = false ∧ s.cell.reversed = false ∧
      s.pwm.compA = false ∧ s.pwm.compB = false ∧ s.pwm.wait = false ∧ { s.pwm with wait := true }.wait = true) ∧
    ({ carrier.pwm with begun := true }.begun = true ∧ carrier.pwm.phase = 0 ∧ carrier.on R.PWM_GSTA_FRZ = false) ∧
    (let s := { carrier with pwm := { carrier.pwm with halt0 := true } }; s.frozen = true ∧ s.pwm.halt1 = false) ∧
    (carrier.debugRuns = true ∧ sect.debugRuns = false ∧ sect.pwm.halt0 = false ∧ sect.pwm.halt1 = false) ∧
    sect.Takes 0x14 ∧
    ({ run 2 [(R.ADC_LIMCFG_EN 3, 1), (R.ADC_LIMCFG_ACT 3, 2), (R.PWM_BYP_SRC, 4)] with
        adc := { sect.adc with beyond := [false, false, false, true] } }.limActive = true ∧
      (run 2 [(R.PWM_BYP_SRC, 4)]).bit R.PWM_BYP_SRC 2 = true) := by
  unfold State.Takes; decide

theorem test_pulse_unit :
    ask (.carrierCompare 1) carrier (fun t => t.pwm.phase == 100) = true ∧
    ask (.debugHalt 1) carrier (fun t => t.frozen && t.on R.PWM_GSTA_FRZ) = true ∧
    ask .bypassSet sect (fun t => t.bypReq) = true := by decide

/-- A Cell whose converters are on and aligned, with this configuration. -/
def adcOn (l : List (Fld × Nat)) : State :=
  { run 3 ([(R.EN 0x15, 1), (R.TCK_STAT_LOCK, 1)] ++ l) with adc := { cell.adc with since := [1, 1] } }

theorem witness_ConverterResults :
    ((adcOn [(R.ADC_CFG_STREN, 1)]).phase = .run ∧ (adcOn [(R.ADC_CFG_STREN, 1)]).en 0x15 = true ∧
      (adcOn [(R.ADC_CFG_STREN, 1)]).lock = true ∧ (adcOn [(R.ADC_CFG_STREN, 1)]).strikeValid = true ∧
      (adcOn []).strikeValid = false ∧ (adcOn []).on R.ADC_CFG_STREN = false ∧ sect.lock = false ∧ cell.en 0x15 = false ∧ (adcOn [(R.ADC_CFG_STREN, 1), (R.ADC_CSTA_CALBUSY, 1)]).strikeValid = false) ∧
    ((adcOn []).Takes 0x15 ∧ (adcOn []).on R.ADC_CFG_STREN = false ∧ (adcOn []).on R.ADC_CSTA_CALBUSY = false ∧
      (adcOn [(R.ADC_CSTA_CALBUSY, 1)]).on R.ADC_CSTA_CALBUSY = true ∧ (adcOn [(R.ADC_CFG_STREN, 1)]).on R.ADC_CFG_STREN = true) ∧
    (calInRange 0x7000 0x100 = true ∧ calInRange 0x9000 0x800 = true ∧ calInRange 0x9001 0x800 = false) ∧
    (let s := adcOn [(R.ADC_CFG_OTRK, 1), (R.ADC_CFG_OTINT, 1)];
      s.on R.ADC_CFG_OTRK = true ∧ max 1 (s.get R.ADC_CFG_OTINT) ≤ nth s.adc.since 1 0 ∧ nth s.adc.conv 1 Option.none = Option.none ∧
      s.strikeBusy = false ∧ s.seqDueWithin 1 s.convNs = false ∧ s.tickNs + s.convNs + 50 ≤ s.tp ∧ s.calo 1 < (s.calo 1).toNat + 1 ∧
      (adcOn []).on R.ADC_CFG_OTRK = false) ∧
    (let s := adcOn [(R.ADC_SEQ_EN 1 15, 1), (R.ADC_SEQ_OFS 1 15, 1)];
      s.on (R.ADC_SEQ_EN 1 15) = true ∧ s.on R.ADC_CFG_STREN = false ∧ s.on R.ADC_CSTA_CALBUSY = false ∧
      nth s.adc.conv 1 Option.none = Option.none ∧ max s.tickNs (s.get (R.ADC_SEQ_OFS 1 15) * 10) + s.seqNs 1 15 + 50 ≤ s.tp) ∧
    (let s := { adcOn [] with adc := { (adcOn []).adc with conv := [Option.none, some 15] } };
      s.on R.ADC_CSTA_CALBUSY = false ∧ nth s.adc.conv 1 Option.none = some 15 ∧ [(0 : BitVec 16)].length = 2 ^ s.seqAvg 1 15 ∧ nth s.adc.waiting 1 [] = [] ∧
      (∀ k : Fin 4, s.on (R.ADC_LIMCFG_EN k) = false) ∧ nth s.adc.conv 0 Option.none ≠ some 0) := by
  unfold State.Takes; decide

theorem test_converter_results :
    ask (.adcStrikeConversionDone 0x400 0x8400) (adcOn [(R.ADC_CFG_STREN, 1), (R.ADC_CALO_O0, 0x400), (R.ADC_CALO_O1, 0x400),
      (R.ADC_CALG_G0, 0x8000), (R.ADC_CALG_G1, 0x8000)]) (fun t => t.get R.ADC_STRK_CODE0 == 0 && t.get R.ADC_STRK_CODE1 == 0x8000) = true ∧
    ask (.sequencerEntryDue 1 15) (adcOn [(R.ADC_SEQ_EN 1 15, 1), (R.ADC_CSTA_CALBUSY, 1)])
      (fun t => t.on (R.ADC_RES_SKIP 1 15) && t.bit (R.FLT 0x15) Flt.ADC_SEQ) = true := by decide

/-! ### Words of the signal engine, bit by bit from the tables of R192 to R197 -/

/-- Format P is bit 31, OP 30 to 26, D 25 and 24, S 23 to 21, XM 20 to 11, YM 10 to 1, bit 0 zero; format C is bit 31
zero and OP 30 to 26. -/
theorem test_se_words : ∀ n : Fin 4,
    seDecode n 0b0_00011_00000000000000000000000000 = some (.seLda n false 0 0) ∧
    seDecode n 0b1_00111_00_000_1000001000_0000000000_0 = some (.seClr n ⟨0, 0, ⟨2, 0, 1, 0⟩, ⟨0, 0, 0, 0⟩⟩) ∧
    seDecode n 0b1_01001_00_000_0100001000_0110001001_0 = some (.seMac n ⟨0, 0, ⟨1, 0, 1, 0⟩, ⟨1, 4, 1, 1⟩⟩) ∧
    seDecode n 0b0_01010_00000000000000000000000000 = some (.seHalt n) ∧
    seDecode n 0b1_00000_00_000_0000000000_0000000000_1 = Option.none ∧ seDecode n 0 = Option.none := by
  decide

theorem test_se_encode : ∀ n : Fin 4,
    seEncode (.seMac n ⟨0, 0, ⟨1, 0, 1, 0⟩, ⟨1, 4, 1, 1⟩⟩) = some 0b1_01001_00_000_0100001000_0110001001_0 := by decide

/-- Engine 3 of a Section runs a program on level 0, whose word 5 is the instruction, its bank 0 with these registers. -/
def engine (b : SeBank) (i : Instr) : State :=
  { run 2 [(R.EN (sePage 3), 1)] with mem := Memory.write32 0 [] (seAddr 3 2 5) ((seEncode i).getD 0) }.setEng 3
    { SeState.init with prog0 := some ⟨0, 5, false, false⟩, bank0 := b }

/-- An instruction's word in 32 bits decodes to it. -/
def spelt (i : Instr) : Bool := seDecode 3 ((seEncode i).getD 0 % 2 ^ 32) == some i

theorem engine_executes (b : SeBank) {i : Instr} (h : spelt i = true) : (engine b i).Executes 3 0 ⟨0, 5, false, false⟩ i := by
  have hm : (engine b i).mem32 (seAddr 3 2 5) = (seEncode i).getD 0 % 2 ^ 32 :=
    Memory.read32_write32 (m := []) (seAddr 3 2 5) _ rfl
  refine ⟨rfl, rfl, rfl, rfl, ⟨rfl, rfl⟩, ?_, rfl, rfl⟩
  have hp : (5 : BitVec 13).toNat = 5 := rfl
  simp only [State.seInsn, hp, hm]
  exact of_decide_eq_true (by simpa [spelt] using h)

theorem inv_engine (b : SeBank) (i : Instr) : (engine b i).Inv :=
  ⟨Memory.wf_write32 _ _ rfl, rfl, List.Pairwise.nil⟩

/-- A bank with these D registers and W accumulators. -/
def bankOf (d : List (BitVec 32)) (w : List (BitVec 72)) : SeBank := { SeBank.init with d := d, w := w }

/-- What engine 3 answers to its instruction, tested. -/
def askSe (b : SeBank) (i : Instr) (p : State → Bool) : Bool := ask i (engine b i) p

/-- A format P instruction's fields without moves. -/
def plain (d : Fin 4) (s : Fin 8) : PFmt := ⟨d, s, ⟨0, 0, 0, 0⟩, ⟨0, 0, 0, 0⟩⟩

/-- The format P instructions with these fields. -/
def formatP (q : PFmt) : List Instr :=
  [.seNop 3 q, .seAdd 3 q, .seSub 3 q, .seCmp 3 q, .seMov 3 q, .seAbs 3 q, .seNeg 3 q, .seClr 3 q, .seMul 3 q, .seMac 3 q,
    .seMsb 3 q, .seMulr 3 q, .seMacr 3 q, .seMsbr 3 q, .seRnd 3 q, .seSat 3 q, .seShl 3 q, .seShr 3 q, .seExp 3 q, .seNorm 3 q,
    .seAnd 3 q, .seOr 3 q, .seXor 3 q, .seMax 3 q, .seMin 3 q]

theorem witness_EngineAluResultsAndFlags :
    (∀ i ∈ formatP (plain 3 3), (engine SeBank.init i).Executes 3 0 ⟨0, 5, false, false⟩ i) ∧
    (plain 3 3).xm.t = 0 ∧ (plain 3 3).ym.t = 0 ∧ (plain 3 3).s.val < 4 :=
  ⟨fun i hi => engine_executes _ (List.all_eq_true.mp (by decide : (formatP (plain 3 3)).all spelt = true) i hi), by decide⟩

/-- ADD wraps at 72 bits and sets OV and SOV; MAC multiplies signed. -/
theorem test_se_add_mac :
    askSe (bankOf [0, 0, 0, 0] [2 ^ 71 - 1, 1, 0, 0]) (.seAdd 3 (plain 0 5))
      (fun t => (t.bank 3 0).wr 0 == BitVec.ofNat 72 (2 ^ 71) && (t.bank 3 0).flg == 0b11110#8) = true ∧
    askSe (bankOf [-2, 3, 0, 0] [5, 0, 0, 0]) (.seMac 3 (plain 0 0)) (fun t => (t.bank 3 0).wr 0 == (-1 : BitVec 72)) = true := by
  decide +kernel

/-- A store of D2 at I1, which then steps by one; and, loading, the fields of a load at I1. -/
def storing : PFmt := ⟨0, 0, ⟨2, 1, 1, 2⟩, ⟨1, 1, 1, 2⟩⟩

theorem witness_EngineMovesLoadAndStore :
    (∀ i ∈ formatP storing, (engine SeBank.init i).Executes 3 0 ⟨0, 5, false, false⟩ i ∧ (engine SeBank.init i).Inv) ∧
    (∀ i ∈ formatP storing, SeBank.init.moveWord storing.xm = some 0 ∧ SeBank.init.moveWord storing.ym = some 0 ∧
      (engine SeBank.init i).CleanRow (seAddr 3 0 0) ∧ (engine SeBank.init i).CleanRow (seAddr 3 1 0)) ∧
    (∀ f ∈ [aluNop, aluAdd, aluMac, aluLogic (· &&& ·), aluMin], (f SeBank.init storing.d storing.s).isSome = true) :=
  ⟨fun i hi => ⟨engine_executes _ (List.all_eq_true.mp (by decide : (formatP storing).all spelt = true) i hi), inv_engine _ _⟩,
    fun i _ => ⟨rfl, rfl, ⟨rfl, rfl⟩, rfl, rfl⟩, by decide⟩

theorem test_se_store_and_step :
    askSe (bankOf [0, 0, 7, 0] [0, 0, 0, 0]) (.seNop 3 ⟨0, 0, ⟨2, 1, 1, 2⟩, ⟨0, 0, 0, 0⟩⟩) (fun t =>
      t.mem32 (seAddr 3 0 0) == 7 && (t.bank 3 0).ir 1 == 1#14 && ((t.eng 3).prog 0).map SeProg.pc == some 6#13) = true := by
  decide +kernel

/-- The instructions of format C that read, write, load or store. -/
def formatC : List Instr :=
  [.seLdi 3 42 true 0xFFFF, .seMovr 3 0 42, .seAddi 3 1 0xFFFF, .seAsh 3 3 (-64), .seLda 3 true 0 16383, .seLdo 3 true 0 7 (-2048),
    .seSta 3 true 42 16383, .seSto 3 false 42 0 2047, .seIold 3 1 0, .seIost 3 1 0]

theorem witness_EngineRegisterAndMemoryInstructions :
    (∀ i ∈ formatC, (engine SeBank.init i).Executes 3 0 ⟨0, 5, false, false⟩ i ∧ (engine SeBank.init i).Inv ∧
      (engine SeBank.init i).CleanRow (seAddr 3 1 16383)) ∧
    ((SeBank.init.read 0).isSome = true ∧ (SeBank.init.read 42).isSome = true ∧ (SeBank.init.write 42 0).isSome = true) ∧
    (let s := engine SeBank.init (.seIold 3 1 0)
      let u := ((s.ioCycles.2.setIow 3 true).busRead (.engine 3) 0x40000000 4).setIow 3 false
      u.resp.err = false ∧ u.eng 3 = s.eng 3 ∧ (SeBank.init.write 1 u.resp.data).isSome = true) ∧
    (let s := engine SeBank.init (.seIost 3 1 0)
      let u := ((s.ioCycles.2.setIow 3 true).busWrite (.engine 3) 0x40000000 4 0).setIow 3 false
      u.resp.err = false ∧ u.eng 3 = s.eng 3) :=
  ⟨fun i hi => ⟨engine_executes _ (List.all_eq_true.mp (by decide +kernel : formatC.all spelt = true) i hi), inv_engine _ _, rfl, rfl⟩,
    by decide +kernel⟩

theorem test_se_lda_sta :
    askSe (bankOf [9, 0, 0, 0] []) (.seSta 3 true 0 16383) (fun t => t.mem32 (seAddr 3 1 16383) == 9) = true ∧
    askSe (bankOf [9, 0, 0, 0] []) (.seAddi 3 1 0xFFFF) (fun t => (t.bank 3 0).dr 1 == -1) = true := by decide +kernel

/-- The control instructions. -/
def controls : List Instr :=
  (List.finRange 16).map (fun cc => .seJmpcc 3 cc 8191) ++ [.seCall 3 8191, .seRet 3, .seRepeat 3 false 4095 0,
    .seRepeat 3 true 0 42, .seDbnz 3 0 9, .seSig 3 0xA5, .seHalt 3, .seAddi 3 1 0xFFFF]

theorem executes_controls : ∀ b, ∀ i ∈ controls, (engine b i).Executes 3 0 ⟨0, 5, false, false⟩ i :=
  fun b i hi => engine_executes b (List.all_eq_true.mp (by decide +kernel : controls.all spelt = true) i hi)

theorem witness_EngineControlInstructions :
    SeBank.init.stack.length < 8 ∧ ({ SeBank.init with stack := [9] } : SeBank).stack = 9 :: [] ∧
    (bankOf [2, 0, 0, 0] []).read 0 = some 2 ∧ (bankOf [2, 0, 0, 0] []).read 1 = some 0 ∧ (2 : BitVec 32) ≠ 0 ∧
    ((bankOf [2, 0, 0, 0] []).write 0 1).isSome = true ∧ ((bankOf [1, 0, 0, 0] []).write 0 0).isSome = true ∧
    ((engine SeBank.init (.seAddi 3 1 1)).eng 3).waits = [] ∧ (engine SeBank.init (.seHalt 3)).get (R.SE_MAXC_MAXC 3) < 2 ^ 32 := by
  decide

/-- The dispatcher takes SIG where its source is enabled and a core of its mask runs. -/
theorem witness_sig :
    let s := ((engine SeBank.init (.seSig 3 0)).put (R.DSX_SRC_EN 0x3B) 1).put (R.DSX_SRC_CMASK 0x3B) 1
    s.en 8 = true ∧ s.on (R.DSX_SRC_EN (0x38 + 3)) = true ∧
      Nat.land (s.get (R.DSX_SRC_CMASK (0x38 + 3))) s.runMask ≠ 0 ∧ s.dsxFree ≠ 0 := by decide

theorem test_se_control :
    askSe SeBank.init (.seCall 3 8191)
      (fun t => (t.bank 3 0).stack == [6#13] && ((t.eng 3).prog 0).map SeProg.pc == some 8191#13) = true ∧
    askSe (bankOf [1, 0, 0, 0] []) (.seDbnz 3 0 9) (fun t => ((t.eng 3).prog 0).map SeProg.pc == some 6#13) = true := by
  decide +kernel

theorem witness_EngineTraps :
    (∀ i ∈ controls ++ formatC ++ formatP (plain 0 4), (engine SeBank.init i).Executes 3 0 ⟨0, 5, false, false⟩ i) ∧
    (∀ i ∈ [Instr.seLdi 3 63 true 0, .seMovr 3 0 43, .seIold 3 43 0, .seRepeat 3 true 0 63],
      (engine SeBank.init i).Executes 3 0 ⟨0, 5, false, false⟩ i) ∧
    (43 ≤ (63 : Fin 64).val ∧ (42 : Fin 64).val < 43 ∧ 11 ≤ (11 : Fin 16).val ∧ 4 ≤ (plain 0 4).s.val ∧
      8 ≤ ({ SeBank.init with stack := List.replicate 8 0 } : SeBank).stack.length ∧ SeBank.init.stack = []) ∧
    (let s := { engine SeBank.init (.seLda 3 false 0 16383) with bad := [seAddr 3 0 16382] };
      s.badRow (seAddr 3 0 16383) = true ∧ s.badRow (seAddr 3 2 5) = false) ∧
    (let s := (engine SeBank.init (.seIold 3 1 0x3FFF)).put (R.SE_IOB_WIN 3) 0x3F;
      s.busOk (.engine 3) false (s.ioAddr 3 0x3FFF) 4 = false ∧ s.busOk (.engine 3) true (s.ioAddr 3 0x3FFF) 4 = false) ∧
    (let s := { engine SeBank.init (.seHalt 3) with bad := [seAddr 3 2 4] };
      s.phase = .run ∧ s.runs (sePage 3) = true ∧ (s.eng 3).level = some 0 ∧ (s.eng 3).rpt = Option.none ∧
        s.badRow (seAddr 3 2 5) = true) ∧
    (let s := { engine SeBank.init (.seHalt 3) with mem := [] }; s.badRow (seAddr 3 2 5) = false ∧ s.seInsn 3 5 = Option.none) :=
  ⟨fun i hi => engine_executes _ (List.all_eq_true.mp
      (by decide +kernel : (controls ++ formatC ++ formatP (plain 0 4)).all spelt = true) i hi),
    fun i hi => engine_executes _ (List.all_eq_true.mp
      (by decide +kernel : [Instr.seLdi 3 63 true 0, .seMovr 3 0 43, .seIold 3 43 0, .seRepeat 3 true 0 63].all spelt = true) i hi),
    by decide, by decide, by decide +kernel, by decide, by decide⟩

theorem test_se_traps :
    askSe SeBank.init (.seRet 3) (fun t => t.get (R.SE_TRAP_CAUSE 3) == 4 && t.get (R.SE_TRAP_PC 3) == 5) = true ∧
    askSe SeBank.init (.seJmpcc 3 11 0) (fun t => t.get (R.SE_TRAP_CAUSE 3) == 1) = true ∧
    ask (.seNop 3 (plain 0 0)) { engine SeBank.init (.seHalt 3) with mem := [] } (fun t => t.get (R.SE_TRAP_CAUSE 3) == 1) = true := by
  decide +kernel

/-- An engine that idles, its entry 3 on level 1 enabled for timed triggers. -/
def idleEngine (pend : Nat) : State :=
  (run 2 [(R.EN (sePage 3), 1), (R.SE_ENT_EN 3 3, 1), (R.SE_ENT_LVL 3 3, 1), (R.SE_ENT_TRG 3 3, 1), (R.SE_ENT_OFS 3 3, 1),
    (R.TCK_STAT_LOCK, 1)]).setEng 3 { SeState.init with pend := pend }

theorem witness_EngineEntriesStartsAndStops :
    (idleEngine 0).Takes (sePage 3) ∧ (idleEngine 0).en (sePage 3) = true ∧
    ((idleEngine 0).bit (R.FLT (sePage 3)) Flt.SE_TRAP = false ∧ (idleEngine 0).on (R.SE_ENT_EN 3 3) = true ∧
      bitOf ((idleEngine 0).eng 3).pend 3 = false ∧ ((idleEngine 0).eng 3).runsEntry 3 = false) ∧
    ((idleEngine 0).lock = true ∧ (idleEngine 0).get (R.SE_ENT_TRG 3 3) = 1 ∧
      (idleEngine 0).get (R.SE_ENT_OFS 3 3) * 10 < (idleEngine 0).eveNs ∧ (idleEngine 0).tickNs ≤ (idleEngine 0).get (R.SE_ENT_OFS 3 3) * 10) ∧
    (bitOf ((idleEngine 8).eng 3).pend 3 = true ∧ (idleEngine 8).on (R.SE_ENT_EN 3 0) = false ∧ (idleEngine 8).seReady 3 = some 3 ∧
      (idleEngine 8).badRow (seAddr 3 2 ((idleEngine 8).get (R.SE_ENT_ADDR 3 3) % 8192)) = false ∧
      (idleEngine 8).seInsn 3 (BitVec.ofNat 13 ((idleEngine 8).get (R.SE_ENT_ADDR 3 3))) = Option.none) ∧
    ({ idleEngine 8 with mem := Memory.write32 0 [] (seAddr 3 2 0) 0x28000000 }.seInsn 3 0 = some (.seHalt 3)) ∧
    (((idleEngine 8).eng 3).prog1 = Option.none ∧ ((idleEngine 8).eng 3).prog0 = Option.none ∧ ((idleEngine 8).eng 3).rpt = Option.none ∧
      ((idleEngine 8).eng 3).stop = false ∧ (idleEngine 8).get (R.SE_ENT_LVL 3 3) = 1 ∧
      (∀ j : Fin 4, j < 3 → bitOf ((idleEngine 8).eng 3).pend j = false)) ∧
    (((idleEngine 0).setEng 3 { SeState.init with prog1 := some ⟨3, 0, false, false⟩ }).eng 3).prog1.isSome = true ∧
    ((idleEngine 0).CleanRow (seAddr 3 1 16383) ∧ (idleEngine 0).canAct (.core 0) = true ∧
      ((idleEngine 0).core 0).pmpRefuses .store (((idleEngine 0).core 0).accessUser .store) (seAddr 3 1 16383) 2 = false ∧
      (idleEngine 0).Reaches (.core 0) ((idleEngine 0).plainAccess 0 4 .none) .store (seAddr 3 1 16383) ∧
      (idleEngine 0).Reaches (.core 0) ((idleEngine 0).plainAccess 0 4 .none) .load (seAddr 3 1 16383)) ∧
    ((idleEngine 0).setEng 3 { SeState.init with rpt := some 2 }).Reaches (.core 0) ((idleEngine 0).plainAccess 0 4 .none) .store
      (seAddr 3 1 16383) := by
  unfold State.Takes State.CleanRow State.Reaches; decide +kernel

theorem test_se_entry :
    ask (.seStart 3 8) (idleEngine 0) (fun t => (t.eng 3).pend == 8) = true ∧
    ask (.seStart 3 8) (idleEngine 8) (fun t => t.get (R.SE_SKIPC_BUSY 3) == 1) = true ∧
    ask (.seMemoryAccess 0 0x42300000 4 (some 5) .none) (idleEngine 0) (fun t => t.mem32 0x42300000 == 5) = true := by decide

/-! ### Witnesses: the tick, the Section, Harvest and the cell -/

/-- A microsecond after its release: the gap after a first frame is over. -/
def later (s : State) : State := { s with fcu := { s.fcu with timeNs := 1000 } }

/-- An aligned active Section, its frame unit and lanes on. -/
def sectOn : State := later (run 2 (sectFields ++ [(R.RED_STA_STATE, 1)]))

/-- An aligned Cell of ring 1, confirmed as origin of its segment on lane 0, with a valid sample. -/
def cellOn : State :=
  { later (run 3 cellFields) with cell := { cell.cell with vcapOk := true }, azf := { cell.azf with ringN := 4 } }

/-- A frame of a header in the current tick passes the checks on arrival if its bytes outside the CRC do. -/
theorem delivers (s : State) (n ty : Nat) (h : Hdr) (body : List Byte)
    (hs : s.phase = .run ∧ s.azfOn = true ∧ s.laneOk n = true ∧ s.lock = true ∧ (mkFrame h s.tick16 body).length ≤ 4096 ∧
      fKnown (mkFrame h s.tick16 body) = true ∧ fTick (mkFrame h s.tick16 body) = s.tick16 ∧
      fType (mkFrame h s.tick16 body) = ty) : s.Delivers n ty (mkFrame h s.tick16 body) :=
  ⟨hs.1, hs.2.1, hs.2.2.1, hs.2.2.2.1, hs.2.2.2.2.1, hs.2.2.2.2.2.1, fCrcOk_mkFrame h s.tick16 body, hs.2.2.2.2.2.2.1,
    hs.2.2.2.2.2.2.2⟩

/-- 46 bytes with their SCRC are a slot whose CRC is right. -/
theorem slotCrcOk_seal (b : List Byte) (h : b.length = 46) : slotCrcOk (b ++ bytesBE 2 (crc16 b).toNat) = true := by
  have hl : (b ++ bytesBE 2 (crc16 b).toNat).length = 48 := by simp [h]
  have ht : (b ++ bytesBE 2 (crc16 b).toNat).take 46 = b := by simp [← h]
  have hf : fieldBE (b ++ bytesBE 2 (crc16 b).toNat) 46 2 = (crc16 b).toNat := by
    have hd : slice (b ++ bytesBE 2 (crc16 b).toNat) 46 2 = bytesBE 2 (crc16 b).toNat := by simp [slice, ← h]
    rw [fieldBE, hd, natBE_bytesBE]
    exact Nat.mod_eq_of_lt (crc16 b).isLt
  unfold slotCrcOk
  rw [ht, hf, hl]
  simp

theorem witness_BoundaryInstantsOfTheTick :
    (let u (s : State) : State := (s.when (!s.isK) s.nodeOffset).alignTick.acqTick
      let s : State := { sectOn with tck := { sectOn.tck with struck := true } }
      (s.phase = .run ∧ s.lock = true ∧ (u s).lock = true ∧ s.tck.due = [] ∧ s.tck.struck = true ∧
        (u s).azf.tnum = Option.none ∧ (u { s with azf := { s.azf with tnum := some 5 } }).azf.tnum = some 5) ∧
      sect.lock = false ∧ (u sect).lock = false) ∧
    (sectOn.pwr.swPend = false ∧ sectOn.fcu.restartAt = Option.none ∧ { sectOn.pwr with swPend := true }.swPend = true) := by
  decide

/-- The clauses about the Strike on a state that holds them, told by their hypotheses. -/
def atStrike (s : State) : Bool :=
  let u := (s.when (!s.isK) s.nodeOffset).alignTick.acqTick
  s.phase == .run && s.lock && u.lock && decide (2 ≤ u.dsxFree) && s.azf.enums == []

/-- A cell whose commands have come, waited for or held. -/
def striking (cmd : CellCmd) (cs hcnt : Nat) : State :=
  { (cellOn.put R.TCK_STAT_CSTATE cs).put R.TCK_HOLD_HCNT hcnt with cell := { cellOn.cell with cmd := cmd, decNext := 1, decRow := 10 } }

theorem inv_cellOn : cellOn.Inv := ⟨rfl, rfl, by simp only [cellOn, later, Rising]; exact List.Pairwise.nil⟩
theorem inv_striking (cmd : CellCmd) (cs hcnt : Nat) : (striking cmd cs hcnt).Inv :=
  ⟨rfl, rfl, by simp only [striking, cellOn, later, Rising]; exact List.Pairwise.nil⟩

theorem witness_StrikeCarriesTheTickOver_cell :
    (∀ s ∈ [striking .none 1 0, striking .none 2 3, striking .repeat 1 0, striking .down 1 0,
        { striking .none 1 0 with cell := { cellOn.cell with leavePend := true } },
        { striking .none 3 0 with cell := { cellOn.cell with rejoinPend := true } }], atStrike s = true ∧ s.isK = true ∧ s.tck.due = [] ∧
      s.idValid = true ∧ s.cell.trimDue = false ∧ s.cell.reversed = false ∧ s.bypReq = false ∧ s.bypAux = false) ∧
    (∀ p ∈ [(striking .none 1 0, 1), (striking .none 2 3, 2), (striking .none 3 0, 3)], p.1.cstate = p.2) ∧
    ((striking .none 1 0).get R.TCK_HOLD_HCNT + 1 ≤ (striking .none 1 0).get R.TCK_HOLD_HOLDLIM ∧
      (striking .none 2 3).get R.TCK_HOLD_HOLDLIM < (striking .none 2 3).get R.TCK_HOLD_HCNT + 1) ∧
    ((striking .down 1 0).cell.decNext ≤ 4 ∧ (striking .down 1 0).cell.decRow = 10) ∧
    (let s := ((striking .down 1 0).put (R.EN 0x14) 1).put R.PWM_GSTA_HIZ 0;
      s.en 0x14 = true ∧ s.strikeMode = true ∧ s.hiz = false ∧ s.frozen = false) := by decide +kernel

/-- A Section with a commit of page 0x0B due and an announced TP `k` Strikes away. -/
def announced (k : Nat) : State := { sectOn with tck := { sectOn.tck with due := [0x0B], tpLeft := k } }

theorem witness_StrikeCarriesTheTickOver_pages :
    (∀ k ∈ [0, 1, 3], atStrike (announced k) = true ∧ (announced k).tck.due.Nodup ∧ 0x0B ∈ (announced k).tck.due ∧
      7 ∉ (announced k).tck.due ∧ (announced k).tck.tpLeft = k) ∧ keyOnPage 0x0B R.RED_CFG_RVH.key = true := by decide +kernel

/-- A member of the pair, aligned, with a Mirror frame of its partner that carries one record of type 3, or of type 1. -/
def mirrored (st h : Nat) : State :=
  let f := mkFrame ⟨tyMirror, 0, true, 2, 1, 0, 0, 0⟩ 0 (zeros 8 ++ bytesBE 2 1 ++ zeros 2 ++ bytesBE 4 h ++ bytesBE 4 0)
  let s := later (run 2 (sectFields ++ [(R.RED_STA_STATE, st)]))
  { s with red := { s.red with segs := [(0, f)] } }

theorem witness_StrikeCarriesTheTickOver_members :
    (∀ s ∈ [sectOn, mirrored 2 0x03000001, mirrored 2 0x01000001, later (run 2 (sectFields ++ [(R.RED_STA_STATE, 2)])),
        later (run 2 (sectFields ++ [(R.RED_STA_STATE, 3)]))], atStrike s = true ∧ s.isS = true ∧ s.tck.due = [] ∧ s.redOn = true) ∧
    ((mirrored 2 0x03000001).mirComplete.map (fun l => l.flatMap mirRecsOf) = some [⟨3, 0, [0]⟩] ∧
      (mirrored 2 0x01000001).mirComplete.map (fun l => l.flatMap mirRecsOf) = some [⟨1, 0, [0]⟩] ∧
      (mirrored 2 0x01000001).recBad ⟨1, 0, [0]⟩ = true ∧ sectOn.mirComplete = Option.none) ∧
    (let s := (sectOn.put (R.EN 0x0D) 1).put (R.PGN_PCFG_EN 3) 1; s.runs 0x0D = true ∧ s.on (R.PGN_PCFG_EN 3) = true ∧
      (s.tick + 1 + 16 - s.get (R.PGN_PCFG_PHASE 3)) % (s.get (R.PGN_PCFG_DM1 3) + 1) = 16 % (s.get (R.PGN_PCFG_DM1 3) + 1)) ∧
    (let s := ((later (run 2 (sectFields ++ [(R.RED_STA_STATE, 3)]))).put (R.FEN 0x0B) 0);
      s.redSt = 3 ∧ s.refused = false ∧ s.bit (R.FEN 0x0B) Flt.RED_MLOST = false ∧ s.bit (R.FEN 0x0B) Flt.RED_MMIS = false) := by
  decide +kernel

theorem test_strike_hold :
    (let t := (striking .none 1 0).cellStrike; t.cstate = 2 ∧ t.get R.TCK_HOLD_HCNT = 1) ∧
    (let t := (striking .none 2 3).cellStrike; t.cstate = 3 ∧ t.bit R.PWM_BYP_SRC 0 = true) := by decide +kernel

theorem test_eve_drops_queue :
    ask .eveClose { sectOn with cle := { sectOn.cle with queue := [⟨31, false, 0⟩] } } (fun t => t.cle.queue == [] && t.on (R.CLE_CFLG_LATE 31)) =
      true := by decide

theorem test_drain_software_reset :
    ask .drainInstant { sectOn with pwr := { sectOn.pwr with swPend := true } } (fun t => t.phase == .wiping) = true := by decide

/-- A command of an arm that orders nothing. -/
def noCmd : ArmCmd := ⟨0, false, 0, 0, 0, 0, 0, 0, 0, [], [], [], 0, ⟨0, 0, 0, 0, 0, 0, 0, 0, 0⟩, [], []⟩

/-- The Section's arm 0 may decide, has counted, and commands. -/
def commanding : State :=
  { sectOn with rse := { sectOn.rse with cells := [(65, { CellEnt.init with pres := true })], allowed := 1, begun := 1, counted := 1, inst := [{ nth sectOn.rse.inst 0 RseInst.init with cmd := some noCmd }] } }

theorem witness_SectionDecidesAndBroadcasts :
    (let s := { sectOn with rse := { sectOn.rse with allowed := 1 } }; s.phase = .run ∧ s.actS = true ∧ s.lock = true ∧
      bitOf s.rse.allowed 0 = true ∧ bitOf s.rse.begun 0 = false ∧ bitOf s.rse.counted 0 = false ∧ s.decideChannels 0 = [] ∧
      s.decideWaits 0 = false) ∧ sect.lock = false ∧ bitOf sectOn.rse.allowed 0 = false ∧
    (bitOf commanding.rse.counted 0 = true ∧ bitOf commanding.rse.downs 0 = false ∧ bitOf commanding.rse.reps 0 = false ∧
      commanding.tickNs < commanding.cdlNs ∧ (commanding.inst 0).cmd = some noCmd ∧ commanding.tickNs < commanding.eveNs ∧
      bitOf { commanding.rse with downs := 1 }.downs 0 = true ∧ (∀ b < 2, bitOf { commanding.rse with downs := 3 }.downs b = true)) ∧
    (commanding.laneOk 1 = true ∧ commanding.Free 1 ∧ commanding.ringLen 1 ≠ 0) ∧ sectOn.isS = true ∧
    (let j : Traj := ⟨0, 1, [], false⟩; let s := { sectOn.put R.TCK_NUM_NUM 2 with azf := { sectOn.azf with trajs := [(0, j)] } }
      s.traj 0 = some j ∧ s.trajHeld j = true ∧ s.isS = true ∧ s.lock = true) := by
  unfold State.Free; decide

/-- Ring 1 stands on arm 0, whatever the arm mode. -/
theorem witness_arm_rings : commanding.armRings 0 ≠ [] := by
  have h : 1 ∈ commanding.armRings 0 := by
    simp only [State.armRings, List.mem_filter, List.mem_range]
    refine ⟨by decide, ?_⟩
    rw [show armOf 1 = 0 by simp [armOf]]
    decide
  exact List.ne_nil_of_mem h

/-- The first 46 bytes of a slot of Cell 0x441 in tick 0, and the slot. -/
def slotBody : List Byte := bytesBE 2 (16384 + 0x441) ++ List.replicate 44 0
def slot441 : List Byte := slotBody ++ bytesBE 2 (crc16 slotBody).toNat

theorem slot441_ok : slotOk slot441 0 = true := by
  have h := slotCrcOk_seal slotBody rfl
  unfold slotOk slot441
  rw [h]
  decide

/-- A frame of a type on ring 1 from a node, in tick 0. -/
def frameOf (ty src : Nat) (act : Bool) (body : List Byte) : Frame := mkFrame ⟨ty, 0, act, src, 0, 1, 0, 1⟩ 0 body

theorem mkFrame_length (h : Hdr) (t : Nat) (body : List Byte) : (mkFrame h t body).length = body.length + 16 := by
  simp only [mkFrame, sealCrc, List.length_append, bytesBE_length]; omega

/-- The body of a frame stands from byte 12 on. -/
theorem slice_mkFrame (h : Hdr) (t : Nat) (body : List Byte) : slice (mkFrame h t body) 12 body.length = body := by
  have hh : ∀ (a c : List Byte), a.length = 12 → slice (a ++ body ++ c) 12 body.length = body := by
    intro a c ha; simp [slice, ← ha]
  exact hh _ _ (by simp only [List.length_append, bytesBE_length])

theorem frameSlots_441 (ty src : Nat) (act : Bool) : frameSlots (frameOf ty src act slot441) = [slot441] := by
  have hl : slot441.length = 48 := rfl
  have h := slice_mkFrame ⟨ty, 0, act, src, 0, 1, 0, 1⟩ 0 slot441
  rw [hl] at h
  rw [frameSlots, frameOf, mkFrame_length, hl]
  simpa [List.range_succ] using h

/-- An active Section that knows Cell 0x441, and a standby one that has its slot. -/
def knows : State := { sectOn with azf := { sectOn.azf with conf := [65] } }
def standby : State :=
  { later (run 2 sectFields) with azf := knows.azf, rse := { sect.rse with acc := [(65, { slotIn slot441 with full := true })] } }

theorem slotPass_441 : knows.slotPass 1 slot441 = some 65 := by
  have hi : knows.cellIdx (slotNode slot441) = some 65 := by decide
  have ht : knows.tick16 = 0 := by decide
  simp [State.slotPass, hi, ht, slot441_ok]
  decide

theorem witness_HarvestCollectsSlots_cell :
    (cellOn.phase = .run ∧ cellOn.hasSlot = true ∧ cellOn.laneOk cellOn.harvLane = true ∧ cellOn.Free cellOn.harvLane ∧ cellOn.nodeId < 16384 ∧
      cellOn.isOrigin = true ∧ max cellOn.tickNs 400 < cellOn.eveNs) ∧
    (let s := { cellOn with azf := { cellOn.azf with ringN := 8 } }; s.hasSlot = true ∧ s.isOrigin = false ∧
      s.azf.harvSeen = false ∧ s.lock = true ∧ max s.tickNs (440 + 34 * s.originDist) < s.eveNs) ∧
    cell.hasSlot = false ∧
    (let f := frameOf tyHarvest 0x442 true slot441;
      cellOn.isK = true ∧ cellOn.azfOn = true ∧ (1 : Fin 20).val ≤ 1 ∧ cellOn.laneOk (1 : Fin 20) = true ∧
      cellOn.laneOk ((1 - 1 : Fin 20)) = true ∧ cellOn.Free 0 ∧ 16 ≤ f.length ∧ f.length ≤ 4096 ∧ fKnown f = true ∧ fType f = tyHarvest ∧
      fTick f = cellOn.tick16 ∧ cellOn.harvLane = 1 - 1 ∧ { cellOn.azf with slotSent := true }.slotSent = true) := by
  unfold State.Free; decide

theorem witness_HarvestCollectsSlots_section :
    let f := frameOf tyHarvest 0x441 true slot441
    knows.Delivers 1 tyHarvest f ∧ knows.isS = true ∧ frameSlots f = [slot441] ∧ knows.slotPass (fRing f) slot441 = some 65 ∧
      ({ cellOn.cell with aux := some (List.replicate 7 0) } : CellState).aux = some (List.replicate 7 0) ∧
      knows.active = true ∧ knows.tickNs < knows.cutNs ∧ 65 ∉ knows.rse.dup ∧
      knows.poolUsed.length + 16 ≤ 16384 ∧ alHas knows.rse.acc 65 = false ∧
      alHas standby.rse.acc 65 = true := by
  exact ⟨delivers knows 1 tyHarvest ⟨tyHarvest, 0, true, 0x441, 0, 1, 0, 1⟩ slot441 (by decide), by decide, frameSlots_441 _ _ _, slotPass_441, by decide⟩

theorem witness_HarvestCollectsSlots_stale :
    let f := frameOf tyHarvest 0x441 true slot441; let s := knows.put R.TCK_NUM_NUM 1
    s.isS = true ∧ s.azfOn = true ∧ s.lock = true ∧ s.laneOk 1 = true ∧ f.length ≤ 4096 ∧ fKnown f = true ∧ fType f = tyHarvest ∧
      fCrcOk f = true ∧ fTick f ≠ s.tick16 :=
  ⟨by decide, by decide, by decide, by decide, by decide, by decide, by decide, fCrcOk_mkFrame _ _ _, by decide⟩

/-- A key extract of Cell 0x441. -/
def extract441 : List Byte := bytesBE 2 (16384 + 0x441) ++ List.replicate 6 0

theorem witness_HarvestCollectsSlots_partner :
    (let f := frameOf tyExtract 0x101 false extract441; knows.Delivers 17 tyExtract f ∧ knows.actS = true ∧
      fSrc f = knows.partnerId ∧ fAct f = false ∧
      knows.tickNs < knows.cutNs ∧ 65 ∉ knows.rse.dup ∧ frameExtracts f = [extract441] ∧ knows.cellIdx (slotNode extract441) = some 65 ∧
      65 / 64 = fRing f ∧ 65 ∈ knows.azf.conf ∧ alHas knows.rse.acc 65 = false) ∧
    (let f := frameOf tySlotCopy 0x101 false slot441; knows.Delivers 16 tySlotCopy f ∧ fSrc f = knows.partnerId ∧ fAct f = false ∧
      frameSlots f = [slot441] ∧ knows.slotPass (fRing f) slot441 = some 65 ∧ alHas knows.rse.copies 65 = false) ∧
    (standby.forwards = true ∧ standby.lock = true ∧ standby.azfOn = true ∧ standby.tickNs < standby.eveNs ∧
      standby.partnerLane 1 = some 16 ∧ standby.Free 16 ∧ (∃ e ∈ standby.rse.acc, e.1 / 64 = 1 ∧ e.2.full = true) ∧
      (∀ e ∈ standby.rse.acc, e.1 / 64 ≠ 0) ∧ knows.forwards = false) := by
  refine ⟨⟨delivers knows 17 tyExtract ⟨tyExtract, 0, false, 0x101, 0, 1, 0, 1⟩ extract441 (by decide), by decide⟩,
    ⟨delivers knows 16 tySlotCopy ⟨tySlotCopy, 0, false, 0x101, 0, 1, 0, 1⟩ slot441 (by decide), by decide, by decide, frameSlots_441 _ _ _,
      slotPass_441, by decide⟩, ?_⟩
  refine ⟨by decide, by decide, by decide, by decide, by decide, by unfold State.Free; decide, ⟨_, List.mem_cons_self, by decide, rfl⟩,
    by simp [standby], by decide⟩

/-- A Down frame of Section A that orders nothing, and a Repeat frame. -/
def down : Frame := frameOf tyDown 0x100 true (List.replicate 80 0)
def repeat' : Frame := frameOf tyRepeat 0x101 true (repeatBody 3)

theorem witness_CellTakesItsCommands :
    (cellOn.Delivers 0 tyDown down ∧ cellOn.Delivers 1 tyRepeat repeat') ∧
    (cellOn.phase = .run ∧ cellOn.isK = true ∧ cellOn.cmdOk down = true ∧ downOk down = true ∧ cellOn.cmdOk repeat' = true ∧
      cellOn.idValid = true ∧ cellOn.imgFail = false ∧ dMdst down ≠ cellOn.ringId) ∧
    (let s := cellOn.put R.TCK_STAT_CSTATE 1; s.cstate ≠ 3 ∧ s.cell.leavePend = false ∧ s.bypReq = false ∧ s.bypAux = false ∧
      (cellOn.put R.TCK_STAT_CSTATE 3).cstate = 3) ∧
    { cellOn.azf with cmdSeen := true }.cmdSeen = true ∧ { cellOn.cell with leavePend := true }.leavePend = true ∧ cellOn.Takes 0x14 ∧
    (cellOn.gated 0x14 = false ∧ cellOn.on (R.SRB 0x14) = false ∧ cellOn.frozenPage 0x14 = false ∧ cellOn.tickNs < cellOn.eveNs) := by
  refine ⟨⟨delivers cellOn 0 tyDown ⟨tyDown, 0, true, 0x100, 0, 1, 0, 1⟩ (List.replicate 80 0) (by decide),
    delivers cellOn 1 tyRepeat ⟨tyRepeat, 0, true, 0x101, 0, 1, 0, 1⟩ (repeatBody 3) (by decide)⟩, ?_⟩
  unfold State.Takes
  decide

theorem test_leave_and_rejoin :
    ask .leaveMessage cellOn (fun t => t.cell.leavePend) = true ∧
    ask .rejoinMessage { cellOn with cell := { cellOn.cell with leavePend := true } } (fun t => !t.cell.leavePend && !t.cell.rejoinPend) =
      true := by decide

/-! ### Witnesses: frames, timing, enumeration -/

theorem inv_sectOn : sectOn.Inv := ⟨rfl, rfl, by simp only [sectOn, Rising]; exact List.Pairwise.nil⟩

/-- A message of one byte to Section A from a Conductor, a trajectory of one value, an Almanac Report. -/
def message : Frame := mkFrame ⟨tyMailbox, 0, true, 1, 0x100, 0, 0, 0⟩ 0 (mailboxBody 1 Option.none [7])
def trajectory : Frame :=
  mkFrame ⟨tyTraj, 0, true, 1, 0x100, 0, 0, 0⟩ 0 (bytesBE 2 0 ++ bytesBE 1 16 ++ bytesBE 1 1 ++ bytesBE 1 0 ++ zeros 1 ++ zeros 8)
def report : Frame := mkFrame ⟨tyReport, 0, true, 0x100, 1, 0, 0, 0⟩ 0 (zeros 24)

/-- A Conductor whose frame unit and lanes are on. -/
def conductorOn : State := later (run 1 (sectFields ++ [(R.SYS_NODEID_ID, 1)]))

/-- What is in progress with Cell 0x441: a segment message that stalls, a Mailbox message, and its lost count at its limit. -/
def talking : State :=
  { knows.put (R.RSE_LOST_LOSTLIM 0) 3 with
    azf := { knows.azf with
      segTx := [⟨0x441, 1, [1], 1, 0, 3, 7⟩]
      outbox := [⟨0x441, 1, 1, [1], 4, 7⟩, ⟨0x442, 1, 1, [1], 4, 8⟩] }
    rse := { knows.rse with cells := [(65, { CellEnt.init with pres := true, lost := 3 })] } }

theorem arms_zero : arms.contains 0 = true := by unfold arms; split <;> rfl
theorem armOf_one : armOf 1 = 0 := by simp [armOf]

/-- The transmitter of lane `n` sends a frame until 10 us. -/
def sending (s : State) (n : Nat) : State :=
  s.setLane n { s.lane n with tx := some ⟨[0], 0, 0, 1000000, Option.none, false, 0, 0, false, 0, 0⟩ }

theorem witness_FramesAreRelayedAndKept_relay :
    (sectOn.phase = .run ∧ sectOn.Inv ∧ sectOn.azfOn = true ∧ (0 : Fin 20) ≠ 17 ∧ sectOn.laneOk 0 = true ∧
      sectOn.laneOk 17 = true ∧ sectOn.isK = false ∧ sectOn.forwards = false) ∧
    (let f := frameOf tyReport 0x100 false (zeros 24);
      f.length ≤ 256 ∧ fKnown f = true ∧ fAct f = false ∧ ownRelay f = false ∧ f ≠ [] ∧
      (sending sectOn 17).poolMay (fClass f) 0 = true) ∧ (sectOn.Free 17 ∧ (sending sectOn 17).busy 17 = true) ∧
    (∀ ty ∈ [tyHarvest, tyTiming, tyProbe, tyProbeReply, tyEnum, tyAssign], ownRelay (frameOf ty 0x100 false (zeros 4)) = true) ∧
    fKnown (frameOf 0x3F 0x100 false []) = false := by
  refine ⟨⟨rfl, inv_sectOn, by decide⟩, ?_⟩
  unfold State.Free; decide

theorem witness_FramesAreRelayedAndKept_trajectory :
    sectOn.Delivers 17 tyTraj trajectory ∧ sectOn.trajMine trajectory = true ∧ fSrc trajectory ≠ sectOn.partnerId ∧
    sectOn.tickNs < sectOn.cutNs ∧
    (let j : Traj := ⟨fieldBE trajectory 12 2, byteAt trajectory 14 % 32, trajQ trajectory, false⟩; 0 ≤ sectOn.trajAge j) ∧
    sectOn.trajAge ⟨1, 16, [], false⟩ < 0 ∧
    alGet (sectOn.azf.fresh.map (fun p => (p.1, some p.2))) (fArm trajectory) Option.none = Option.none := by
  refine ⟨delivers sectOn 17 tyTraj ⟨tyTraj, 0, true, 1, 0x100, 0, 0, 0⟩ _ (by decide), ?_, by decide⟩
  have ha : arms.contains (fArm trajectory) = true := by rw [show fArm trajectory = 0 by decide]; exact arms_zero
  unfold State.trajMine
  simp only [ha]
  decide

theorem witness_FramesAreRelayedAndKept_kept :
    (conductorOn.Delivers 0 tyReport report ∧ conductorOn.isC = true ∧ fAct report = true ∧ report.length = 40 ∧
      fSrc report ≠ conductorOn.partnerId ∧
      alGet (conductorOn.azf.fresh.map (fun p => (p.1, some p.2))) (16 + 2 * fSrc report + fArm report) Option.none = Option.none ∧
      conductorOn.poolMay 0 0 = true ∧ conductorOn.phase = .run) ∧
    (sectOn.Delivers 17 tyMailbox message ∧ sectOn.isS = true ∧ message.length = 22 + mLen message ∧ 1 ≤ mLen message ∧
      mLen message ≤ 200 ∧ fDst message = sectOn.nodeId ∧ fSrc message ≠ sectOn.partnerId ∧
      bitOf (byteAt message 14) 7 = false ∧ sectOn.poolMay 2 0 = true ∧ sectOn.tickNs < sectOn.eveNs ∧
      isCellId (fSrc message) = false ∧ sectOn.Free 17 ∧ isCellId 0x441 = true) :=
  ⟨⟨delivers conductorOn 0 tyReport ⟨tyReport, 0, true, 0x100, 1, 0, 0, 0⟩ (zeros 24) (by decide), by decide⟩,
    ⟨delivers sectOn 17 tyMailbox ⟨tyMailbox, 0, true, 1, 0x100, 0, 0, 0⟩ _ (by decide), by unfold State.Free; decide⟩⟩

/-- The same message from Cell 0x441. -/
def message441 : Frame := mkFrame ⟨tyMailbox, 0, false, 0x441, 0x100, 1, 0, 0⟩ 0 (mailboxBody 1 Option.none [7])

theorem witness_message_of_a_cell :
    sectOn.Delivers 1 tyMailbox message441 ∧ message441.length = 22 + mLen message441 ∧ fDst message441 = sectOn.nodeId ∧
    fSrc message441 ≠ sectOn.partnerId ∧ bitOf (byteAt message441 14) 7 = false ∧ isCellId (fSrc message441) = true :=
  ⟨delivers sectOn 1 tyMailbox ⟨tyMailbox, 0, false, 0x441, 0x100, 1, 0, 0⟩ _ (by decide), by decide⟩

theorem witness_FramesAreRelayedAndKept_talking :
    (talking.phase = .run ∧ talking.actS = true ∧ talking.segOf 1 = some ⟨0x441, 1, [1], 1, 0, 3, 7⟩ ∧ 3 ≤ 3 ∧ 7 < 8) ∧
    (talking.azfOn = true ∧ talking.isK = false ∧ talking.laneOk 1 = true ∧ talking.Free 1 ∧ talking.mayLaunch = true ∧
      talking.azf.outbox.find? (fun x => x.dst == (0x441 : Fin 16384).val && decide (4 ≤ x.age)) = some ⟨0x441, 1, 1, [1], 4, 7⟩ ∧
      talking.azf.outbox.find? (fun x => x.dst == (0x442 : Fin 16384).val && decide (4 ≤ x.age)) = some ⟨0x442, 1, 1, [1], 4, 8⟩) ∧
    (talking.cellIdx (0x441 : Fin 16384) = some 65 ∧ talking.azf.conf.contains 65 = true ∧ talking.reachable 65 = true ∧
      talking.get (R.RSE_LOST_LOSTLIM (armOf (65 / 64))) ≠ 0 ∧
      talking.get (R.RSE_LOST_LOSTLIM (armOf (65 / 64))) ≤ (talking.ent 65).lost ∧ (talking.ent 65).leaveSent = false) := by
  rw [show 65 / 64 = 1 from rfl, armOf_one]
  unfold State.Free
  decide

theorem test_mailbox_resend :
    ask (.mailboxFrameResend 0x442) talking (fun t => t.azf.outbox.length == 1 && t.get R.AZF_MBX_MFAIL == 1) = true := by decide

/-- A Timing frame of tick 5, and a Cell that measures its link of lane 1. -/
def timing : Frame := mkFrame ⟨tyTiming, 0, true, 1, 0, 1, 0, 0⟩ 0 (bytesBE 6 5 ++ zeros 10 ++ bytesBE 2 1000 ++ zeros 18)
def cellLinked : State :=
  { cellOn with azf := { cellOn.azf with links := [LinkMeas.init, { LinkMeas.init with acc := [0], svc := 8, pseq := 6, asked := some (6, 100) }] } }

/-- A Timing frame chosen from lane 1. -/
def chosen (e : Int) : TimingPick := { cellLinked.timingPick 1 timing 0 with e := e }

theorem witness_TimingFramesAlignTheNode :
    (sectOn.phase = .run ∧ sectOn.azfOn = true ∧ 0 ∈ sectOn.timingLanes ∧ sectOn.laneOk 0 = true ∧ max sectOn.tickNs 100 < sectOn.eveNs ∧ (∀ k ∈ sectOn.timingLanes, sectOn.laneOk k = true → sectOn.Free k) ∧
      cellOn.timingLanes = []) ∧
    (cellOn.laneOk 1 = true ∧ cellOn.laneOk 0 = true ∧ cellOn.timingPath 1 0 = true ∧ fKnown timing = true ∧ fType timing = tyTiming ∧
      timing.length = 52 ∧ cellOn.endsCopy timing = false ∧ cellOn.Free 0 ∧ cellOn.Free 1) ∧
    (cellLinked.isK = true ∧ cellLinked.aligned = true ∧ cell.aligned = false ∧ cellOn.pwr.swPend = false ∧ conductorOn.pwr.swPend = false ∧
      { cellLinked.azf with pick := some (chosen 0) }.pick.isSome = true) ∧
    (cellOn.follows = true ∧ cellOn.aligned = true ∧ cellOn.azf.pick = Option.none ∧ 15 ≤ { cellOn.azf.align with noBand := 15 }.noBand ∧
      2 ≤ { cellOn.azf.align with outl := 2 }.outl ∧ (chosen 0).inBand = true ∧ (chosen (2 ^ 40)).inBand = false ∧
      cellOn.isC = false ∧ (cellOn.put (R.EN 0x14) 1).canDrive = true ∧ (cellOn.put R.PWM_GSTA_HIZ 0).hiz = false) ∧
    (conductorOn.follows = true ∧ (conductorOn.put R.TCK_STAT_ALGN 1).aligned = true ∧ conductorOn.isC = true) ∧
    ((cellOn.put R.TCK_NUM_NUM 1).tick % 64 = 1 ∧ max cellOn.tickNs 200 < cellOn.eveNs ∧ cell.lock = false ∧
      cellLinked.tick % 64 ≠ 1 ∧ 8 ≤ (cellLinked.link 1).svc) := by
  unfold State.Free; decide

theorem witness_timing_frame_chosen (rx : Int) : cellLinked.timingOk 1 timing = true ∧ cellLinked.picks (cellLinked.timingPick 1 timing rx) = true ∧
    (cellLinked.put R.TCK_NUM_NUM 1).timingOk 1 timing = true ∧ (cellLinked.put R.TCK_NUM_NUM 1).aligned = true ∧
    fTick timing ≠ (cellLinked.put R.TCK_NUM_NUM 1).tick16 ∧ fTick timing = cellLinked.tick16 := by
  have hc : fCrcOk timing = true := fCrcOk_mkFrame _ _ _
  unfold State.timingOk
  rw [hc]
  exact ⟨by decide, rfl, by decide⟩

theorem witness_probes :
    (let f := mkFrame ⟨tyProbe, 0, true, 0x442, 0, 1, 0, 0⟩ 0 (bytesBE 2 6 ++ zeros 2);
      cellLinked.laneOk 1 = true ∧ fKnown f = true ∧ fType f = tyProbe ∧ f.length = 20 ∧ fCrcOk f = true ∧
      fTick f = cellLinked.tick16 ∧ cellLinked.tickNs < cellLinked.eveNs ∧ 256000 ≤ 256000 ∧ 256000 < 256001) ∧
    (let f := mkFrame ⟨tyProbeReply, 0, true, 0x442, 0, 1, 0, 0⟩ 0 (bytesBE 2 6 ++ bytesBE 4 0 ++ zeros 2);
      fKnown f = true ∧ fType f = tyProbeReply ∧ f.length = 24 ∧ fCrcOk f = true ∧ fTick f = cellLinked.tick16 ∧
      (cellLinked.link 1).asked = some (fieldBE f 12 2, 100) ∧ (cellLinked.link 1).count = 0 ∧
      ({ LinkMeas.init with asked := some (6, 100) } : LinkMeas).acc = [] ∧ (cellOn.link 1).asked = Option.none) :=
  ⟨⟨by decide, by decide, by decide, by decide, fCrcOk_mkFrame _ _ _, by decide⟩,
    ⟨by decide, by decide, by decide, fCrcOk_mkFrame _ _ _, by decide⟩⟩

theorem test_probe_turn_late :
    ask (.probeReceive 1 [] 256001) cellLinked (fun t => t.out == []) = true := by decide

/-- A round of enumeration on ring 1 at a Section, without a finding of its partner. -/
def round : EnumRun := ⟨9, 16, [], Option.none, Option.none, false, false⟩
def enumerating : State :=
  { talking.put R.AZF_ENUM_RMASK 2 with azf := { talking.azf with enums := [(1, round)] } }

/-- Enum of END A and round 9 on a ring of 4, a reply to it, and its Assign, as they arrive after one hop. -/
def enum (src : Nat) (act : Bool) : Frame := mkFrame ⟨tyEnum, 0, act, src, 0, 1, 1, 0⟩ 0 (zeros 1 ++ bytesBE 1 4 ++ bytesBE 2 9)
def reply : Frame := mkFrame ⟨tyEnumReply, 0, false, 0, 0, 1, 0, 0⟩ 0 (bytesBE 2 9 ++ zeros 10)
def assign : Frame := mkFrame ⟨tyAssign, 0, true, 0x100, 0, 1, 1, 0⟩ 0 (zeros 1 ++ bytesBE 1 4 ++ bytesBE 2 9 ++ zeros 8)

/-- A Cell that has seen that Enum: without a NodeID, with the one this Assign gives, and with another. -/
def seenCell (id : List (Fld × Nat)) : State :=
  { later (run 3 (cellFields ++ id)) with azf := { cell.azf with seenA := some ⟨1, 4, 0, 1, 9, false, Option.none⟩ } }

theorem witness_EnumerationNumbersTheRing :
    (enumerating.phase = .run ∧ enumerating.azfOn = true ∧ enumerating.isS = true ∧ enumerating.enumOn 1 = true ∧
      enumerating.laneOk 1 = true ∧ enumerating.mayLaunch = true ∧ cellOn.isK = true ∧ (∀ k ∈ List.range 16, enumerating.enumOn k = true → enumerating.laneOk k = true → enumerating.Free k)) ∧
    ((enum 0x100 true).length = 20 ∧ (1 : Fin 20).val ≤ 1 ∧ cellOn.laneOk ((1 - 1 : Fin 20)) = true ∧ cellOn.mayLaunch = true ∧
      cellOn.takesPart = true) ∧
    ((enum 0x101 false).length = 20 ∧ fRing (enum 0x101 false) = (1 : Fin 20) ∧ fSrc (enum 0x101 false) ≠ enumerating.nodeId ∧
      fAct (enum 0x101 false) = false ∧
      alGet (enumerating.azf.enums.map (fun p => (p.1, some p.2))) (1 : Fin 20) Option.none = some round) ∧
    (reply.length = 28 ∧ fAct reply = false ∧ fRing reply = (1 : Fin 20) ∧ fieldBE reply 12 2 = round.round ∧
      eEndB reply 14 = enumerating.sideB ∧ fieldBE reply 12 2 ≠ ({ round with round := 8 } : EnumRun).round) ∧
    (round.decided = false ∧ round.finding = Option.none ∧ enumerating.get R.AZF_RINGSTA_RSr < 2 ^ 32 ∧ 16 ≤ round.age ∧
      ({ round with age := 15 } : EnumRun).age < 16) ∧
    (cellOn.Free 0 ∧ cellOn.Free 1 ∧ fTick (enum 0x100 true) ≠ (cellOn.put R.TCK_NUM_NUM 1).tick16 ∧
      (cellOn.put R.TCK_NUM_NUM 1).lock = true) := by
  unfold State.Free; decide

theorem witness_enum_arrives :
    cellOn.Delivers 1 tyEnum (enum 0x100 true) ∧ enumerating.Delivers 1 tyEnum (enum 0x101 false) ∧
    enumerating.Delivers 1 tyEnumReply reply ∧ enumerating.Takes 0x34 := by
  refine ⟨delivers cellOn 1 tyEnum ⟨tyEnum, 0, true, 0x100, 0, 1, 1, 0⟩ _ (by decide),
    delivers enumerating 1 tyEnum ⟨tyEnum, 0, false, 0x101, 0, 1, 1, 0⟩ _ (by decide),
    delivers enumerating 1 tyEnumReply ⟨tyEnumReply, 0, false, 0, 0, 1, 0, 0⟩ _ (by decide), ?_⟩
  unfold State.Takes; decide

theorem witness_assign :
    (seenCell [(R.SYS_NODEID_VALID, 0)]).Delivers 0 tyAssign assign ∧ (seenCell []).Delivers 0 tyAssign assign ∧
    (∀ s ∈ [seenCell [(R.SYS_NODEID_VALID, 0)], seenCell [], seenCell [(R.SYS_NODEID_ID, 0x442)]], s.isK = true ∧
      s.laneOk ((1 - 0 : Fin 20)) = true ∧ s.assignPos 0 assign = some 1 ∧ s.imgFail = false ∧ s.otherPos assign = Option.none ∧
      s.Free 1 ∧ s.bit R.PWM_BYP_SRC 4 = false ∧ s.bypWrong = false ∧ s.field.test = Option.none) ∧
    assign.length = 28 ∧ (seenCell [(R.SYS_NODEID_VALID, 0)]).idValid = false ∧
    ((seenCell []).idValid = true ∧ (seenCell []).nodeId = cellId (ePair assign) (64 * fRing assign + 1)) ∧
    (seenCell [(R.SYS_NODEID_ID, 0x442)]).nodeId ≠ cellId (ePair assign) (64 * fRing assign + 1) :=
  ⟨delivers (seenCell [(R.SYS_NODEID_VALID, 0)]) 0 tyAssign ⟨tyAssign, 0, true, 0x100, 0, 1, 1, 0⟩ _ (by decide),
    delivers (seenCell []) 0 tyAssign ⟨tyAssign, 0, true, 0x100, 0, 1, 1, 0⟩ _ (by decide), by unfold State.Free; decide⟩

/-- An Assign and an Enum whose CRC is wrong. -/
theorem witness_bad_crc : fCrcOk (assign.take 27 ++ [0]) = false ∧ fCrcOk ((enum 0x100 true).take 19 ++ [0]) = false := by decide +kernel

theorem test_finding_timeout :
    ask (.enumFindingTimeout 1) enumerating (fun t => bitsOf (t.get R.AZF_RINGSTA_RSr) 2 2 == 2) = true := by decide

/-! ### Witnesses: dispatcher, cores, timebase, Ethernet -/

/-- A Section in which cores 0 and 7 run and sources 0x05 (coalescing), 0x3F.. and 0x80 to 0xBF of core 0 are enabled. -/
def dsxOn : State :=
  (run 2 [(R.DSX_SRC_EN 0xBF, 1), (R.DSX_SRC_CMASK 0xBF, 1), (R.DSX_SRC_EN 0x16, 1),
    (R.DSX_SRC_CMASK 0x16, 0x80), (R.DSX_SRC_COAL 0x16, 1), (R.DSX_SRC_EN 0x20, 1), (R.DSX_SRC_CMASK 0x20, 1)]).setCore 7
    { CoreState.init with on := true }

/-- A queued descriptor of source 0x16 for core 7. -/
def desc : Desc := ⟨0, 0, 0x16, 0, 0, false, 2 ^ 24 - 1, 0x80⟩
/-- With that descriptor queued, or held by core 7. -/
def queued : State := { dsxOn with dsx := { dsxOn.dsx with queue := [desc] } }
def held : State := { dsxOn.put R.DSX_WDG_LIMIT 1 with dsx := { dsxOn.dsx with held := List.replicate 7 Option.none ++ [some ⟨desc, 0, false⟩] } }

/-- Core 7 takes its interrupts. -/
def listening : State := queued.setCore 7 { queued.core 7 with mie := true, meie := true, povie := true }

theorem witness_DispatcherAndCores :
    (dsxOn.phase = .run ∧ dsxDefined 0x20 = true ∧ dsxOn.en 8 = true ∧ dsxOn.on (R.DSX_SRC_EN 0x20) = true ∧
      Nat.land (dsxOn.get (R.DSX_SRC_CMASK 0x20)) dsxOn.runMask ≠ 0 ∧ dsxOn.dsxFree ≠ 0 ∧
      dsxOn.on (R.DSX_SRC_COAL 0x20) = false) ∧
    (dsxOn.on (R.DSX_SRC_EN (0x80 + 63)) = true ∧
      Nat.land (dsxOn.get (R.DSX_SRC_CMASK (0x80 + 63))) dsxOn.runMask ≠ 0 ∧ dsxOn.Takes 8) ∧
    (0x16 ≤ 0x16 ∧ dsxOn.on (R.DSX_SRC_EN 0x16) = true ∧ dsxOn.on (R.DSX_SRC_COAL 0x16) = true ∧ queued.dsx.queue = [desc] ∧ desc.src = 0x16 ∧
      Nat.land (queued.get (R.DSX_SRC_CMASK 0x16)) queued.runMask ≠ 0) ∧
    (dsxDefined 0 = true ∧ dsxOn.on (R.DSX_SRC_EN 0) = false ∧ dsxDefined 0xFF = false ∧ dsxOn.dsx.queue = []) ∧
    ((∀ k, k < 8 → queued.slotOf k = Option.none ∧ queued.heldOf k = Option.none) ∧ bitOf desc.cmask 7 = true ∧
      (∀ k, k < 7 → bitOf desc.cmask k = false)) ∧
    (dsxOn.coreOn 7 = true ∧ dsxOn.coreOn 1 = false ∧ dsxOn.running 1 = false ∧ dsxOn.coreGated 1 = false) ∧
    (∀ k, k < 8 → dsxOn.irq k = Option.none) ∧
    (let s := listening; s.coreOn 7 = true ∧ s.coreHalted 7 = false ∧ (s.core 7).mie = true ∧ (s.core 7).meie = true ∧
      (s.core 7).povie = true ∧ s.dsx.queue = [desc] ∧ (∀ k, k < 8 → s.slotOf k = Option.none ∧ s.heldOf k = Option.none)) := by
  unfold State.Takes; decide

theorem test_slot_fill : (queued.fillSlot 7).slotOf 7 = some desc ∧ (queued.fillSlot 7).dsx.queue = [] ∧
    ((listening.fillSlot 7).irqs.core 7).mcause.toNat = 0x800000000000000B := by decide +kernel

/-- Counter 5 of core 7 counts an event in machine mode. -/
def counting : State := (dsxOn.put (R.PMU_EVSEL_EVT 7 5) 1).put (R.PMU_EVSEL_MMODE 7 5) 1

theorem witness_TimersCountersAndSampling :
    (dsxOn.Takes 8 ∧ (0x80000000 : W32).getLsbD 31 = true ∧ (0x3FFFFFFF : W32).getLsbD 31 = false ∧
      alGet (([(15, 10)] : List (Nat × Nat)).map (fun p => (p.1, some p.2))) 15 Option.none = some 10 ∧
      alGet (dsxOn.dsx.timers.map (fun p => (p.1, some p.2))) 15 Option.none = Option.none) ∧
    (held.phase = .run ∧ held.heldOf 7 = some ⟨desc, 0, false⟩ ∧ held.get R.DSX_WDG_LIMIT ≠ 0 ∧ dsxOn.heldOf 7 = Option.none ∧
      (dsxOn.put R.DSX_WDG_LIMIT 0).get R.DSX_WDG_LIMIT = 0) ∧
    (counting.counts 7 5 = true ∧ (dsxOn.put (R.PMU_EVSEL_EVT 7 5) 0).counts 7 5 = false ∧
      (counting.put (R.PMU_EVSEL_OVIE 7 5) 1).on (R.PMU_EVSEL_OVIE 7 5) = true ∧ counting.meip 7 = false ∧
      listening.meip 7 = false ∧
      (dsxOn.put (R.PMU_PCTL_FZOV 7) 1).on (R.PMU_PCTL_FZOV 7) = true) ∧
    (dsxOn.Takes 9 ∧ dsxOn.coreGated 7 = false ∧ dsxOn.coreOn 7 = true ∧ dsxOn.coreHalted 7 = false ∧ dsxOn.en 9 = true ∧
      (dsxOn.put (R.PMU_PSBCFG_EN 7) 1).on (R.PMU_PSBCFG_EN 7) = true ∧ dsxOn.get (R.PMU_PSBCFG_CLASS 7) ≤ 4 ∧
      (dsxOn.core 7).psb.length < 64 ∧ 64 ≤ ({ dsxOn.core 7 with psb := List.replicate 64 ⟨⟨0, 0, 0, 0⟩, 0⟩ } : CoreState).psb.length ∧
      dsxOn.on (R.PMU_PSBCFG_EN 7) = false) := by
  unfold State.Takes; decide +kernel

theorem test_counter_wrap :
    ask (.counterWrap 7 5) (counting.put (R.PMU_PCTL_FZOV 7) 1)
      (fun t => t.bit (R.PMU_OVF_OV 7) 5 && t.on (R.PMU_PCTL_FRZ 7)) = true ∧
    ask (.dispatchWatchdog 7) held (fun t => t.bit R.DSX_WFLG_WDG 7) = true := by decide

/-- A Conductor whose timebase is enabled on its servo, in a state. -/
def timebase (st : Nat) : State := run 1 [(R.EN 6, 1), (R.TBS_STA_STATE, st), (R.TBS_CFG_SRC, 0), (R.TBS_CFG_AUTOACC, 0), (R.TBS_CFG_JUMPLIM, 1)]

theorem witness_TimebaseServoAndCommands :
    ((timebase 0).phase = .run ∧ (timebase 0).Takes 6 ∧ (timebase 0).en 6 = true ∧ (timebase 0).tbsSrc = 0 ∧
      (timebase 0).get R.TBS_STA_STATE = 0) ∧
    (∀ st ∈ ([2, 3, 4] : List Nat), (timebase st).get R.TBS_STA_STATE = st ∧ (timebase st).Takes 6) ∧
    ((256000 : Int) ≤ (timebase 2).tbsJump ∧ (timebase 2).tbsJump < 256001 ∧ (timebase 2).on R.TBS_CFG_AUTOACC = false) ∧
    ((timebase 2).put R.TBS_CFG_SRC 1).tbsSrc ≠ 0 ∧
    ((timebase 2).tbsTimeout ≤ (timebase 2).tbs.sinceOfs + (timebase 2).tbsTimeout ∧ sect.en 6 = false ∧
      (timebase 2).tbs.sinceOfs + 0 < (timebase 2).tbsTimeout) := by
  unfold State.Takes; decide

theorem test_timebase :
    ask (.offsetDelivery 256001) (timebase 2) (fun t => t.get R.TBS_STA_STATE == 4 && t.get R.TBS_PEND_PEND == 256001) = true ∧
    ask (.offsetDelivery 256) (timebase 0) (fun t => t.tbs.units == tbsModulus - 2 ^ 40) = true ∧
    ask .accept (timebase 2) (fun t => t.on R.TBS_STA_CMDREF) = true := by decide

/-- A Section whose MAC 1 is up, with these bytes in memory from address 0 on and what the MAC keeps. -/
def ethWith (l : List Byte) (x : EthState) : State :=
  { run 2 [(R.EN 0x1A, 1), (R.ETH_LSTA_LINK 1, 1), (R.ETH_MCFG_PROM 1, 1), (R.ETH_TXTL_TAIL 1, 1), (R.ETH_RXTL_TAIL 1, 1),
      (R.ETH_TXRL_LEN 1, 2), (R.ETH_RXRL_LEN 1, 2), (R.ETH_RXRB_BASE 1, 1)] with
    eth := [EthState.init, x]
    mem := Memory.writeBytes 0 [] 0 l }

theorem inv_ethWith (l : List Byte) (x : EthState) : (ethWith l x).Inv :=
  ⟨Memory.wf_writeBytes 0 l rfl, rfl, List.Pairwise.nil⟩

/-- With one transmit descriptor of 20 bytes with this control word, and receive descriptor 0 for 64 bytes. -/
def ethOn (ctl : Nat) (x : EthState) : State :=
  ethWith (bytesLE 8 0x100 ++ bytesLE 2 20 ++ zeros 14 ++ bytesLE 4 ctl ++ zeros 4 ++ bytesLE 8 0x200 ++ bytesLE 2 64) x

/-- A full capture FIFO. -/
def fullFifo : EthState := { EthState.init with fifo := List.replicate 16 ⟨0, 0, 0, 0⟩ }

theorem witness_EthernetFramesStampsAndRings_transmit :
    ∀ p ∈ ([(0x80000000, EthState.init), (0, EthState.init), (0x20000000, EthState.init), (0x20000000, fullFifo), (0x400A0000, EthState.init),
        (0x400B0000, EthState.init)] : List (Nat × EthState)),
      let s := ethOn p.1 p.2
      s.phase = .run ∧ s.runs (0x19 + (1 : Fin 2)) = true ∧ (s.get (R.ETH_TXHD_HEAD 1) + (s.mac 1).taken) % s.txLen 1 = 0 ∧
        0 ≠ s.get (R.ETH_TXTL_TAIL 1) ∧ (s.mac 1).taken + 1 < s.txLen 1 ∧ s.memNat (s.txDesc 1 0 + 24) 4 = p.1 ∧
        (s.memBytes (s.memNat (s.txDesc 1 0) 8) (s.memNat (s.txDesc 1 0 + 8) 2)).length = 20 ∧
        s.on (R.ETH_LSTA_LINK 1) = true ∧ (s.mac 1).timed.head? = Option.none ∧ s.bad = [] ∧ s.soft = [] := by decide +kernel

/-- A state in whose rows no memory error stands. -/
theorem cleanBytes_of_nil {s : State} (hb : s.bad = []) (hs : s.soft = []) (a n : Nat) : s.CleanBytes a n := by
  intro r _
  simp [State.CleanRow, State.badRow, State.softRow, hb, hs]

/-- The same with the transmit ring in DRAM, whose first row of the descriptor holds a single-bit error. -/
def ethSoft : State :=
  { (ethOn 0x80000000 EthState.init).put (R.ETH_TXRB_BASE 1) 0x40000000 with
    mem := Memory.writeBytes 0 [] 0x800000000 (bytesLE 8 0x100 ++ bytesLE 2 20 ++ zeros 14 ++ bytesLE 4 0x80000000 ++ zeros 4),
    soft := [0x800000000] }

theorem witness_ethernet_soft_descriptor :
    ethSoft.runs (0x19 + (1 : Fin 2)) = true ∧ ethSoft.txDesc 1 0 = 0x800000000 ∧ isDram 0x800000000 = true ∧
    (ethSoft.get (R.ETH_TXHD_HEAD 1) + (ethSoft.mac 1).taken) % ethSoft.txLen 1 = 0 ∧ 0 ≠ ethSoft.get (R.ETH_TXTL_TAIL 1) ∧
    (ethSoft.memNat (0x800000000 + 24) 4).testBit 31 = true ∧ (∀ r ∈ rowsAt 0x800000000 32, ethSoft.badRow r = false) ∧
    (∃ r ∈ rowsAt 0x800000000 32, ethSoft.softRow r = true) ∧
    (∀ r ∈ rowsAt (ethSoft.memNat 0x800000000 8) (ethSoft.memNat (0x800000000 + 8) 2), ethSoft.softRow r = false ∧ ethSoft.badRow r = false) := by
  decide +kernel

theorem witness_ethernet_control_words :
    ((0x80000000 : Nat).testBit 31 = true ∧ (0 : Nat).testBit 31 = false ∧ 0 / 2 ^ 29 % 4 = 0 ∧ 0x20000000 / 2 ^ 29 % 4 = 1 ∧
      0x400A0000 / 2 ^ 29 % 4 = 2 ∧ (0x400A0000 : Nat).testBit 28 = false ∧ 0x400A0000 / 2 ^ 16 % 2 ^ 12 + 10 ≤ 20 ∧
      20 < 0x400B0000 / 2 ^ 16 % 2 ^ 12 + 10 ∧ EthState.init.fifo.length < 16 ∧ 16 ≤ fullFifo.fifo.length) := by decide

theorem witness_EthernetFramesStampsAndRings_receive :
    (let s := ethOn 0 EthState.init;
      s.runs (0x19 + (1 : Fin 2)) = true ∧ s.on (R.ETH_LSTA_LINK 1) = true ∧ s.ethMine 1 [0] = true ∧
      (s.get (R.ETH_RXHD_HEAD 1) + (s.mac 1).rxDone.length) % s.rxLen 1 ≠ s.get (R.ETH_RXTL_TAIL 1) ∧
      (s.mac 1).rxDone.length + 1 < s.rxLen 1 ∧ s.on (R.ETH_TSCFG_TSALL 1) = false ∧ fieldBE [0] 12 2 ≠ 0x88F7 ∧
      fieldBE (zeros 12 ++ [0x88, 0xF7]) 12 2 = 0x88F7 ∧ s.memNat (s.rxDesc 1 0) 8 + 14 ≤ 0x20E ∧
      s.rxDesc 1 0 + 32 ≤ s.memNat (s.rxDesc 1 0) 8) ∧
    (let s := (ethOn 0 EthState.init).put (R.ETH_RXTL_TAIL 1) 0;
      (s.get (R.ETH_RXHD_HEAD 1) + (s.mac 1).rxDone.length) % s.rxLen 1 = s.get (R.ETH_RXTL_TAIL 1)) ∧
    sect.runs (0x19 + (1 : Fin 2)) = false ∧ cell.gated (0x19 + (1 : Fin 2)) = true ∧ sect.gated (0x19 + (1 : Fin 2)) = false := by
  decide +kernel

theorem witness_EthernetFramesStampsAndRings_rings :
    (ethOn 0 fullFifo).Takes (0x19 + (1 : Fin 2)) ∧ EthState.init.fifo = [] ∧ fullFifo.fifo = ⟨0, 0, 0, 0⟩ :: List.replicate 15 ⟨0, 0, 0, 0⟩ ∧
    ((1 : W32).toNat % 65536 < (ethOn 0 fullFifo).txLen 1 ∧ (ethOn 0 fullFifo).txLen 1 ≤ (2 : W32).toNat % 65536 ∧
      (1 : W32).toNat % 65536 < (ethOn 0 fullFifo).rxLen 1 ∧ (ethOn 0 fullFifo).rxLen 1 ≤ (2 : W32).toNat % 65536) ∧
    ({ EthState.init with txDone := [⟨0, 1⟩], rxDone := [⟨0, 1⟩] } : EthState).txDone = ⟨0, 1⟩ :: [] := by
  unfold State.Takes; decide

/-- The completion of a transmit descriptor is an event of source 0x47 for MAC 1. -/
theorem witness_ethernet_event :
    let s := ((ethOn 0 { EthState.init with txDone := [⟨0, 1⟩] }).put (R.DSX_SRC_EN 0x47) 1).put (R.DSX_SRC_CMASK 0x47) 1
    s.en 8 = true ∧ s.on (R.DSX_SRC_EN 0x47) = true ∧ Nat.land (s.get (R.DSX_SRC_CMASK 0x47)) s.runMask ≠ 0 ∧
      s.dsxFree ≠ 0 := by decide

theorem test_ethernet_receive :
    ask (.ethFrameReceive 1 [1, 2] true) (ethOn 0 EthState.init) (fun t => t.memBytes 0x200 2 == [1, 2] && (t.mac 1).rxDone == [⟨0, 1⟩]) =
      true ∧
    ask (.txTailWrite 1 2) (ethOn 0 EthState.init) (fun t => t.on (R.WERR 0x1A)) = true := by decide +kernel

/-- A timed frame to be launched at this second and ns, classified or not. -/
def timedHead (sec ns : Nat) (at_ : Bool) : TimedTx := ⟨3, [0], sec, ns, 0x80000000, at_⟩
def timedOn (sec ns : Nat) (at_ : Bool) : State := ethOn 0 { EthState.init with timed := [timedHead sec ns at_] }

/-- No room in front of a timed head whose launch time has come. -/
theorem witness_ethernet_not_free : (ethOn 0 EthState.init).on (R.ETH_LSTA_LINK 1) = true ∧
    (timedOn 0 0 true).launchD 0 0 < (8 * (20 + 4) + 160 : Nat) ∧ (8 * (20 + 4) + 160 : Nat) ≤ (timedOn 1 0 true).launchD 1 0 := by
  decide +kernel

/-- With system time at this ns, the timebase enabled or not. -/
def timedAt (en sec ns : Nat) (now : Nat) : State :=
  let s := (timedOn sec ns true).put (R.EN 6) en
  { s with tbs := { s.tbs with units := now * 2 ^ 40 } }

theorem witness_TimedHeadIsClassifiedAndLaunched :
    (let s := timedOn 1 0 true; s.phase = .run ∧ s.runs (0x19 + (1 : Fin 2)) = true ∧ (s.mac 1).timed = timedHead 1 0 true :: [] ∧
      s.on (R.ETH_LSTA_LINK 1) = true ∧ ctlMode (timedHead 1 0 true).ctl = 0 ∧ (timedHead 1 0 true).atHead = true ∧
      (timedHead 1 0 false).atHead = false ∧ (s.put (R.ETH_LSTA_LINK 1) 0).on (R.ETH_LSTA_LINK 1) = false ∧
      ((ethOn 0 EthState.init).mac 1).timed = []) ∧
    (let s := timedAt 1 1 0 0; let late : Int := ((s.get (R.ETH_TSCFG_LATE 1) * 1000 : Nat) : Int)
      s.launchD 1 0 = 1000000000 ∧ s.launchD 1 1 = 1000000001 ∧ s.launchD 0 0 = 0 ∧ -late < 0 ∧
      (timedAt 1 1 0 (1000000001 + late.toNat)).launchD 1 0 < -late ∧ -late ≤ (timedAt 1 1 0 (1000000000 + late.toNat)).launchD 1 0) ∧
    (let s := timedAt 0 1 0 0; let e := s.elapse (s.launchWait 1 1 0); 0 < launchLeft 1 0 (e.txStamp 1)) ∧
    (let s := timedAt 1 1 0 0; let e := s.elapse (s.launchWait 1 1 0)
      launchLeft 1 0 (e.txStamp 1) ≤ 0 ∧ -(8 * 2 ^ 40) < launchLeft 1 0 (e.txStamp 1)) ∧
    (∀ p ∈ ([(1000010000, true), (1000010001, false)] : List (Nat × Bool)),
      let s := timedAt 1 1 0 p.1; let e := s.elapse (s.launchWait 1 1 0)
      let late : Int := ((s.get (R.ETH_TSCFG_LATE 1) * 1000 : Nat) : Int)
      launchLeft 1 0 (e.txStamp 1) ≤ -(8 * 2 ^ 40) ∧ e.launchD 1 0 ≤ 0 ∧ decide (-late ≤ e.launchD 1 0) = p.2) := by decide +kernel

theorem test_timed_head :
    ask (.timedHeadArrival 1) (timedOn 1 1 false) (fun t => (t.mac 1).timed == [] && (t.mac 1).txDone == [⟨3, 3⟩]) = true ∧
    ask (.timedHeadArrival 1) (timedOn 1 0 false) (fun t => (t.mac 1).timed == [timedHead 1 0 true]) = true ∧
    ask (.timedLaunch 1) (timedAt 1 0 4 0) (fun t => t.tickNs == 4 && (t.mac 1).wire == [withFcs [0]]) = true := by decide +kernel

/-! ### Witnesses: acquisition, redundancy, faults, the Almanac -/

/-- An aligned Section whose acquisition is on in a state, channel 63 sampling CLE output 3 and trigger source 5 watching it,
the rings at the start of DRAM. -/
def acqOn (st : Nat) : State :=
  run 2 [(R.TCK_STAT_LOCK, 1), (R.EN 0x0C, 1), (R.ACQ_STA_STATE, st), (R.ACQ_CHSRC_EN 63, 1), (R.ACQ_CHSRC_TYPE 63, 2), (R.ACQ_CHSRC_SEL 63, 3),
    (R.CLE_OUT_U 3, 10), (R.ACQ_LVL_LVL 5, 10), (R.ACQ_TCFG_CH 5, 63), (R.ACQ_TCFG_TYPE 5, 1), (R.ACQ_RBASE_BASE, 0x801000),
    (R.ACQ_RSIZE_SIZE, 1), (R.ACQ_HBASE_BASE, 0x800000), (R.ACQ_HSIZE_SIZE, 1)]

/-- With that source enabled and armed, the sample before at 0. -/
def crossing (st : Nat) : State :=
  { (acqOn st).put (R.ACQ_TCFG_EN 5) 1 with acq := { (acqOn st).acq with armed := 32, known := 32, prev := some (List.replicate 64 0) } }

/-- A record of one sample that is complete but for its end. -/
def record : AcqRec :=
  { t0 := 0, pre := 0, stop := 1, prim := 0x40, cb := 0, fired := 0, tick := 0, sec := 0, ns := 0, sub := 0, tper := 1000, flags := 0,
    missed := 0, dead := 0, trig := [(0x40, 0, 0)], xtrg := 0, viol := true, entries := [], next := 1, last := [], marks := [],
    win := [7] }

/-- CLOSE with that record in a phase. -/
def closing (p : AcqPhase) : State :=
  { (acqOn 4).put R.ACQ_MEAS_CH 63 with acq := { (acqOn 4).acq with record := some record, phase := p } }

theorem inv_acqOn (st : Nat) : (acqOn st).Inv := ⟨rfl, rfl, List.Pairwise.nil⟩

theorem witness_AcquisitionSamplesAndTriggers :
    ((acqOn 2).phase = .run ∧ (acqOn 2).sampleDue = true ∧ sect.sampleDue = false ∧
      (∀ j, j < 4 → (acqOn 2).on (R.ACQ_MCFG_EN j) = false) ∧ (acqOn 2).acq.record = Option.none ∧
      (∀ j, j < 64 → (acqOn 2).on (R.ACQ_TCFG_EN j) = false)) ∧
    (∀ st ∈ ([0, 1, 2, 3, 4] : List Nat), (acqOn st).get R.ACQ_STA_STATE = st) ∧ (acqOn 2).acq.armReq = false ∧
    (acqOn 2).acq.forceReq = false ∧ ({ (acqOn 2).acq with forceReq := true } : AcqState).forceReq = true ∧
    96 + 8 * (acqOn 2).acqChans.length + 16 + 128 ≤ (acqOn 2).ringFree ∧
    ¬ (96 + 8 * (acqOn 2).acqChans.length + 16 + 128 ≤ ((acqOn 2).put R.ACQ_WRPTR_PTR 250).ringFree) ∧
    (let s := { closing .encode with acq := { (closing .encode).acq with marked := true } };
      s.sampleDue = true ∧ s.get R.ACQ_STA_STATE = 4 ∧ s.acq.marked = true ∧ s.acq.record.isSome = true ∧ s.acq.forceReq = false ∧
        (acqOn 2).acq.marked = false) ∧
    (acqOn 2).Takes 0x0C ∧
    ((0xFF0 : W32).toNat % 16 = 0 ∧ (0xFF0 : W32).toNat < (acqOn 2).ringSize ∧ (0xFF1 : W32).toNat % 16 ≠ 0 ∧
      (acqOn 2).ringSize ≤ (0x1000 : W32).toNat) := by
  unfold State.Takes; decide +kernel

theorem witness_acquisition_crossing :
    (crossing 2).sampleDue = true ∧ (crossing 2).acq.record = Option.none ∧ 5 < (crossing 2).acqNum ∧
    (∀ j, j < 64 → ((crossing 2).on (R.ACQ_TCFG_EN j) = true ↔ j = 5)) ∧ (crossing 2).acq.armed.testBit 5 = true ∧
    (crossing 2).get (R.ACQ_TCFG_TYPE 5) = 1 ∧ (crossing 2).get (R.ACQ_TCFG_CH 5) = 63 ∧ (crossing 2).chanOn 63 = true ∧
    (crossing 2).get (R.ACQ_CHSRC_TYPE 63) = 2 ∧ (crossing 2).gated 0x0E = false ∧
    (crossing 2).acq.prev = some (List.replicate 64 0) ∧
    (crossing 2).chanInt 63 (nth (List.replicate 64 0) 63 0) < (crossing 2).chanInt 63 ((crossing 2).get (R.ACQ_LVL_LVL 5)) ∧
    (crossing 2).chanInt 63 ((crossing 2).get (R.ACQ_LVL_LVL 5)) ≤
      (crossing 2).chanInt 63 ((crossing 2).get (R.CLE_OUT_U ((crossing 2).get (R.ACQ_CHSRC_SEL 63) % 256))) := by decide +kernel

theorem test_acquisition_commands :
    ask .arm (acqOn 1) (fun t => t.acq.armReq) = true ∧ ask .arm (acqOn 2) (fun t => t.on R.ACQ_STA_CMDREF) = true ∧
    ask (.rdptrWrite 0xFF0) (acqOn 2) (fun t => t.get R.ACQ_RDPTR_PTR == 0xFF) = true := by decide

theorem witness_RecordsCloseAndAreMeasured :
    (([] : List Byte).length % 16 = 0 ∧ (zeros 64).length % 16 = 0) ∧
    ((closing .encode).phase = .run ∧ (closing .encode).acq.record = some record ∧ (closing .encode).get R.ACQ_STA_STATE = 4 ∧
      (closing .encode).acq.phase = .encode ∧ record.t0 + record.stop ≤ record.next ∧ record.marks = [] ∧
      (closing .encode).acqMeas = false ∧ ((closing .encode).put R.ACQ_MEAS_EN 1).acqMeas = true ∧ (closing .encode).acq.stop = Option.none ∧
      (closing .encode).on R.ACQ_CFG_STOPV = false ∧ ((closing .encode).put R.ACQ_CFG_STOPV 1).on R.ACQ_CFG_STOPV = true ∧
      record.viol = true ∧ (closing .encode).get R.ACQ_WRPTR_PTR * 16 + 4096 ≤ (closing .encode).ringSize) ∧
    ((closing .copy).acq.phase = .copy ∧ (closing .copy).chanOn ((closing .copy).get R.ACQ_MEAS_CH) = true ∧
      (closing .copy).get R.ACQ_MADR_XADDR + (closing .copy).mwin ≤ 16384) ∧
    ((closing .measure).acq.phase = .measure ∧ (closing .measure).measRuns = false ∧
      ({ (closing .measure).put (R.SE_ENT_TRG 0 0) 2 with se := [{ SeState.init with pend := 1 }] } : State).measRuns = true ∧
      (closing .measure).bit (R.FLT (0x10 + (closing .measure).get R.ACQ_MEAS_ENG)) Flt.SE_TRAP = false ∧
      ((closing .measure).put (R.FLT 0x10) 1).bit (R.FLT (0x10 + (closing .measure).get R.ACQ_MEAS_ENG)) Flt.SE_TRAP = true ∧
      (closing .measure).acq.trapped = false ∧ (closing .measure).fcu.timeNs ≤ (closing .measure).measDue ∧
      ({ (closing .measure).acq with trapped := true } : AcqState).trapped = true ∧
      (closing .measure).measDue < (closing .measure).measDue + 1) := by decide +kernel

theorem inv_closing (p : AcqPhase) : (closing p).Inv := ⟨rfl, rfl, List.Pairwise.nil⟩

theorem test_window_copy :
    ask .windowCopyDone (closing .copy) (fun t => t.acq.phase == .measure && t.mem32 0x42000000 == 7) = true := by decide +kernel

/-- A Conductor A of an aligned pair in a redundancy state. -/
def member (st : Nat) : State := later (run 1 (sectFields ++ [(R.SYS_NODEID_ID, 1), (R.RED_STA_STATE, st)]))

/-- Waiting as primary for its start, or long enough to take back. -/
def waiting : State := { member 0 with red := { (member 0).red with startTicks := 16 } }
def returning : State := (((member 2).put R.RED_CFG_RVH 1).put R.RED_RVCNT_CNT 1000000000).put R.RED_CFG_PRIM 0

/-- A full Mirror frame of the partner, its first segment, and a short one. -/
def mirror (act : Bool) : Frame := mkFrame ⟨tyMirror, 0, act, 2, 1, 0, 0, 0⟩ 0 (zeros 12)

theorem witness_MirrorYieldAndTakeover :
    ((member 1).phase = .run ∧ (member 1).isC = true ∧ (member 1).redOn = true ∧ (member 1).get R.RED_STA_STATE = 1 ∧
      (member 1).lock = true ∧ (member 1).azfOn = true ∧ (member 1).red.sent = false ∧
      max (member 1).tickNs (10 * (member 1).get R.RED_MOFS_OFS) < (member 1).eveNs ∧ (member 1).laneOk 16 = true ∧
      (member 1).Free 16 ∧ (member 1).Free 17 ∧ (member 1).mirFrames.length = 1) ∧
    ({ member 1 with tickNs := (member 1).eveNs }.eveNs ≤ { member 1 with tickNs := (member 1).eveNs }.tickNs) ∧
    ((member 2).redOn = true ∧ (member 2).azfOn = true ∧ (member 2).lock = true ∧ (member 2).red.sent = false ∧
      (member 2).get R.RED_STA_STATE = 2 ∧ (member 2).active = false ∧ (member 2).Free 16 ∧ (member 2).Free 17) ∧
    ((member 1).active = true ∧ (member 1).red.dual = false ∧ fAct (mirror true) = true ∧
      fAct (mirror false) = false ∧ fieldBE (mirror false) 20 2 = 0 ∧ fCnt (mirror false) = 0 ∧
      alHas (member 2).red.segs (fCnt (mirror true) / 256) = false) ∧
    ((member 1).Takes 0x0B ∧ (member 1).on R.RED_STA_PREADY = false ∧ ((member 1).put R.RED_STA_PREADY 1).on R.RED_STA_PREADY = true) ∧
    (waiting.redOn = true ∧ waiting.lock = true ∧ waiting.get R.RED_STA_STATE = 0 ∧ waiting.refused = false ∧
      (if waiting.primary = true then 16 else 64) ≤ waiting.red.startTicks ∧ (waiting.put (R.FEN 0x0B) 0).bit (R.FEN 0x0B) Flt.RED_TKO = false ∧
      (waiting.put (R.FCU_SCFG_EN 15) 0).on (R.FCU_SCFG_EN 15) = false ∧
      (∀ r ∈ waiting.red.held, r.rtype ≠ 4)) ∧
    (returning.redOn = true ∧ returning.get R.RED_STA_STATE = 2 ∧ returning.primary = true ∧ returning.get R.RED_CFG_RVH ≠ 0 ∧
      returning.get R.RED_CFG_RVH * 1000000000 ≤ returning.get R.RED_RVCNT_CNT * returning.tp) := by
  unfold State.Takes State.Free; decide +kernel

theorem witness_mirror_arrives :
    ((member 2).Delivers 17 tyMirror (mirror true) ∧ (member 1).Delivers 16 tyMirror (mirror true) ∧
      (member 2).Delivers 16 tyMirror (mirror false)) ∧
    fSrc (mirror true) = (member 2).partnerId ∧ fDst (mirror true) = (member 2).nodeId ∧ 28 ≤ (mirror true).length :=
  ⟨⟨delivers (member 2) 17 tyMirror ⟨tyMirror, 0, true, 2, 1, 0, 0, 0⟩ (zeros 12) (by decide),
    delivers (member 1) 16 tyMirror ⟨tyMirror, 0, true, 2, 1, 0, 0, 0⟩ (zeros 12) (by decide),
    delivers (member 2) 16 tyMirror ⟨tyMirror, 0, false, 2, 1, 0, 0, 0⟩ (zeros 12) (by decide)⟩, by decide⟩

/-- A Timing frame of the active partner. -/
def timingOf2 : Frame := mkFrame ⟨tyTiming, 0, true, 2, 0, 0, 0, 0⟩ 0 (zeros 36)

theorem witness_timing_of_active_partner :
    (member 1).azfOn = true ∧ (member 1).laneOk 16 = true ∧ fKnown timingOf2 = true ∧ fType timingOf2 = tyTiming ∧ fAct timingOf2 = true ∧
    fCrcOk timingOf2 = true ∧ fSrc timingOf2 = (member 1).partnerId ∧ (member 1).active = true ∧ (member 1).red.dual = false :=
  ⟨by decide, by decide, by decide, by decide, by decide, fCrcOk_mkFrame _ _ _, by decide⟩

theorem test_yield_and_start :
    ask .yield (member 1) (fun t => t.on R.RED_STA_CMDREF) = true ∧
    ask .startTimeout (waiting.put (R.FCU_SCFG_EN 15) 0) (fun t => t.get R.RED_STA_STATE == 1 && t.get R.RED_STA_REASON == 4) = true ∧
    ask .revertRequest returning (fun t => t.red.revReq) = true := by decide +kernel

/-- A Section with fault source 9 enabled in a state, two events or one to SEVERE, with this reaction and past events. -/
def faulty (st nm1 react : Nat) (x : FcuSrc) : State :=
  { run 2 [(R.FCU_SCFG_EN 9, 1), (R.FCU_SST_STATE 9, st), (R.FCU_SCFG_NM1 9, nm1), (R.FCU_SCFG_REACT 9, react)] with
    fcu := { sect.fcu with srcs := [(9, x)] } }

theorem witness_FaultSourcesClassifyAndAreLogged :
    (fcuIsDefined 0x7F = false ∧ fcuIsDefined 9 = true ∧ sect.phase = .run) ∧
    ((faulty 0 1 0 ⟨[], [], 0, 0⟩).on (R.FCU_SCFG_EN 9) = true ∧ (faulty 3 1 0 ⟨[], [], 0, 0⟩).get (R.FCU_SST_STATE 9) = 3 ∧
      (faulty 2 1 0 ⟨[], [], 0, 0⟩).get (R.FCU_SST_STATE 9) = 2 ∧ (faulty 1 1 0 ⟨[], [], 0, 0⟩).get (R.FCU_SST_STATE 9) ≤ 1) ∧
    (let s := faulty 0 1 0 ⟨[], [], 0, 0⟩; let cnt := s.get (R.FCU_SCFG_NM1 9) + 1; let x := s.fcuSrc 9
      ¬ (cnt = 1 ∨ (cnt ≤ x.times.length + 1 ∧ usSince 0 (nth x.times (cnt - 2) 0) ≤ max 1 (s.get (R.FCU_SCFG_W 9)) * 1000))) ∧
    (let s := faulty 0 1 0 ⟨[0], [], 0, 0⟩; let cnt := s.get (R.FCU_SCFG_NM1 9) + 1; let x := s.fcuSrc 9
      (cnt ≤ x.times.length + 1 ∧ usSince 0 (nth x.times (cnt - 2) 0) ≤ max 1 (s.get (R.FCU_SCFG_W 9)) * 1000) ∧ s.dsxFree ≠ 0) ∧
    ((faulty 2 0 0 ⟨[], [], 0, 0⟩).fcuSrc 9).quiet ≤ usSince 0 0 ∧ usSince 0 0 < ((faulty 2 0 0 ⟨[], [], 0, 1⟩).fcuSrc 9).quiet ∧
    ((faulty 0 0 3 ⟨[], [], 0, 0⟩).get (R.FCU_SCFG_REACT 9) = 3 ∧ cell.isK = true) ∧
    (sect.gated 0x0A = false ∧ 0x800000000 ≤ 0x9FFFFFFFF ∧ cell.gated 0x0A = true) ∧
    (sect.scrubbed .l2 = true ∧ scrubEngine .l2 = Option.none ∧ sect.scrubbed (.seY 3) = true ∧ scrubEngine (.seY 3) = some (3, 1) ∧
      cell.scrubbed (.localSram 7) = false) ∧
    (let s := { sect with soft := [0x800000038], bad := [0x800000040] };
      s.burstErr 0x800000000 .none = .corrected ∧ s.burstErr 0x800000040 .none = .uncorrectable ∧
        s.burstErr 0x800000080 .none = .none ∧ s.eccAt (scrubAddr .l2 0) .corrected = .corrected ∧
        s.eccAt (scrubAddr .l2 0) .none = .none ∧ s.eccAt (scrubAddr (.seY 3) 1) .uncorrectable = .uncorrectable) ∧
    ((faulty 1 1 2 ⟨[], [], 0, 0⟩).isK = false ∧ (faulty 1 1 2 ⟨[], [], 0, 0⟩).active = false ∧
      ((faulty 1 1 2 ⟨[], [], 0, 0⟩).put R.RED_STA_STATE 1).active = true ∧
      ((faulty 1 1 2 ⟨[], [], 0, 0⟩).put (R.FCU_SCFG_GATE 9) 1).on (R.FCU_SCFG_GATE 9) = true) ∧
    ((faulty 0 0 0 ⟨[], [0], 0, 0⟩).put (R.FCU_SQCFG_RCAP 9) 1).get (R.FCU_SQCFG_RCAP 9) ≤
      (([0] : List Nat).filter (fun r => decide (usSince 0 r < 86400000000))).length := by decide +kernel

theorem test_fault_classifies :
    ask (.fcuEvent 9 0) (faulty 0 0 4 ⟨[], [], 0, 0⟩) (fun t => t.get (R.FCU_SST_STATE 9) == 2 && t.fcu.restartAt.isSome &&
      t.get R.FCU_LOGWR_IDX == 1) = true ∧
    ask (.unlatch 9) (faulty 3 0 0 ⟨[], [0], 0, 0⟩) (fun t => t.get (R.FCU_SST_STATE 9) == 0 && t.fcuSrc 9 == ⟨[], [], 0, 0⟩) = true := by
  decide +kernel

/-- A Section whose Almanac is at entry `i` with an entry in programming. -/
def programming (i : Nat) (b : List Byte) : State := { run 2 [(R.ALM_STA_WIDX, i)] with alm := { sect.alm with prog := some b } }

theorem inv_programming (i : Nat) (b : List Byte) : (programming i b).Inv := ⟨rfl, rfl, List.Pairwise.nil⟩

theorem witness_AlmanacEntriesAndPlans :
    (sect.phase = .run ∧ sect.alm.drf.length = 4 ∧ sect.alm.srf.length = 4 ∧ sect.alm.prog = Option.none ∧ sect.alm.waiting = [] ∧
      sect.get R.ALM_STA_WIDX < almEntries ∧ sect.alm.started = false ∧ ({ sect.alm with started := true } : AlmState).started = true ∧
      almEntries ≤ (run 2 [(R.ALM_STA_WIDX, almEntries)]).get R.ALM_STA_WIDX) ∧
    ((programming 682 (List.replicate 96 0)).alm.prog = some (List.replicate 96 0) ∧ (List.replicate 96 (0 : Byte)).length = 96 ∧
      682 < almEntries ∧ 682 % 682 = 0 ∧ (programming (almEntries - 1) []).get R.ALM_STA_WIDX + 1 = almEntries ∧
      (programming 682 []).alm.second = false ∧ (programming 682 []).alm.waiting = []) ∧
    ((sect.alm.dTurn = [] ∧ sect.isK = false) ∧
      (∃ (p q r x : Int) (k : Nat), q < p ∧ x < p ∧ p - q ≤ p - x ∧ (p - q).natAbs ≤ (q - r).natAbs ∧ rainClass (p - q).natAbs = some k)) ∧
    (sect.get R.ALM_RIDX_WORD ≤ 23 ∧ sect.get R.ALM_RIDX_ENTRY < almEntries) := by
  refine ⟨by decide +kernel, by decide +kernel, ⟨by decide, 160, 0, 160, 0, 2, by decide⟩, by decide⟩

theorem test_guard_band_and_temperature :
    ask .guardBandStep (run 2 [(R.ALM_GB_GBC, 5), (R.ALM_PLAN_GBC, 7)]) (fun t => t.get R.ALM_GB_GBC == 6) = true ∧
    ask (.temperatureSample 0xFFFF) sect (fun t => t.alm.tsum == -1 && t.alm.tmin == -1) = true := by decide

/-! ### Witnesses: control laws and profiles -/

/-- An aligned active Conductor whose channel 5, on instance 3 of two states, two outputs and one input, is triggered in a way. -/
def cleOn (trg : Nat) : State :=
  run 1 [(R.TCK_STAT_LOCK, 1), (R.RED_STA_STATE, 1), (R.EN 0x0E, 1), (R.EN 0x0D, 1), (R.CLE_CCFG_EN 5, 1), (R.CLE_CCFG_TRG 5, trg),
    (R.CLE_CCFG_DM1 5, 0), (R.CLE_CCFG_OFS 5, 300), (R.CLE_CINST_INST 5, 3), (R.CLE_IDIM_NX 3, 2), (R.CLE_IDIM_NU 3, 2), (R.CLE_IDIM_NY 3, 1)]

/-- With a trigger of channel 5 waiting, or its evaluation under way. -/
def cleWaits : State := { cleOn 0 with cle := { (cleOn 0).cle with queue := [⟨5, false, 2000⟩] } }
def evaluation : CleRun := ⟨5, 3, [7], [], [1, 2], [], false, false, []⟩
def evaluating : State := { cleOn 0 with cle := { (cleOn 0).cle with run := some evaluation } }

theorem inv_cleOn (trg : Nat) : (cleOn trg).Inv := ⟨rfl, rfl, List.Pairwise.nil⟩

theorem witness_ControlLawAndProfileCommands :
    ((cleOn 0).phase = .run ∧ (cleOn 0).cleOn = true ∧ (cleOn 0).cleDue 5 = true ∧ (cleOn 0).get (R.CLE_CCFG_TRG 5) = 0 ∧
      (cleOn 0).get (R.CLE_CCFG_OFS 5) * 10 < (cleOn 0).eveNs ∧ (cleOn 0).tickNs ≤ (cleOn 0).get (R.CLE_CCFG_OFS 5) * 10 ∧
      ((cleOn 0).cle.queue.all (fun r => r.ch != 5) && (cleOn 0).cle.run.map CleRun.ch != some 5) = true ∧
      (cleWaits.cle.queue.all (fun r => r.ch != 5) && cleWaits.cle.run.map CleRun.ch != some 5) = false) ∧
    ((cleOn 3).Takes 0x0E ∧ (cleOn 3).cleOn = true ∧ (cleOn 3).cleDue 5 = true ∧ (cleOn 3).get (R.CLE_CCFG_TRG 5) = 3 ∧
      (cleOn 3).tickNs < (cleOn 3).eveNs) ∧
    (cleWaits.cleOn = true ∧ cleWaits.tickNs < cleWaits.eveNs ∧ cleWaits.cle.run = Option.none ∧ cleWaits.cleNext = some ⟨5, false, 2000⟩ ∧ evaluating.cle.run.isSome = true) ∧
    ((cleOn 0).gated 0x0E = false ∧ cleWritable 0x153C = true ∧ cleWritable 0x1540 = false ∧ cleWritable 0x1720 = false ∧
      (cleOn 0).Reaches (.core 0) ((cleOn 0).plainAccess 0 4 .none) .store (cleBase 31 + 0x153C) ∧
      (cleOn 0).Reaches (.core 0) (acc 4) .load (cleBase 31 + 0x1720) ∧ (cleOn 0).canAct (.core 0) = true ∧
      ((cleOn 0).core 0).pmpRefuses .store (((cleOn 0).core 0).accessUser .store) (cleBase 31) 2 = false) ∧
    ((cleOn 0).runs 0x0D = true ∧ (cleOn 0).lock = true ∧ (cleOn 0).Takes 0x0D ∧ ((cleOn 0).put (R.EN 0x0D) 0).runs 0x0D = false ∧
      (⟨9, 0, 0, false⟩ : PgnVal).v.natAbs ≤ 4) := by
  unfold State.Takes State.Reaches; decide +kernel

theorem witness_EvaluationWritesOutputsAndState :
    evaluating.phase = .run ∧ evaluating.Inv ∧ evaluating.cle.run = some evaluation ∧ evaluating.runs 0x0E = true ∧
    evaluation.ch < 32 ∧ evaluation.inst < 32 ∧ evaluation.writes = [] ∧ evaluating.nx evaluation.inst ≤ 16 ∧
    evaluating.nu evaluation.inst ≤ 8 ∧ evaluation.lost.any id = false ∧
    evaluating.cleInt evaluation.inst (0x1680 + 8 * 1) ≤ evaluating.cleInt evaluation.inst (0x1684 + 8 * 1) ∧
    (cleOn 0).cle.run = Option.none :=
  ⟨by decide, ⟨rfl, rfl, List.Pairwise.nil⟩, rfl, by decide, by decide, by decide, rfl, by decide, by decide, by decide, by decide, rfl⟩

theorem test_cle_trigger :
    ask (.cleTrigger 5) (cleOn 0) (fun t => t.cle.queue == [⟨5, false, 3000⟩] && t.tickNs == 3000) = true ∧
    ask .cleEvaluationDone evaluating (fun t => t.cle.run == Option.none && t.get (R.CLE_CST_OSEQ 5) == 1) = true := by decide +kernel

/-! ### Witnesses: lane states, the invariant -/

/-- A Conductor whose lane 17 is on in a state, out of service, its ADMIT counted out. -/
def laneIn (st : Nat) : State :=
  let s := run 1 [(R.EN (lanePage 17), 1), (R.AZL_LSTAT_STATE 17, st), (R.AZL_LCTL_AUTO 17, 1), (R.AZL_LSTAT_BLKLK 17, 1)]
  { s with lanes := (List.range 20).map (fun _ => { s.lane 17 with measured := true, whole := 65536, rrdy := true, farRrdy := true }) }

theorem witness_LaneStatesAdvance :
    (∀ k ∈ ([1, 2, 3, 4] : List Nat), (laneIn k).phase = .run ∧ (laneIn k).laneOn 17 = true ∧ (laneIn k).laneSt 17 = k) ∧
    ((laneIn 1).lane 17).measured = true ∧ ((laneIn 1).getS (R.AZL_PPM_PPM 17)).natAbs ≤ (laneIn 1).ppmTh 17 ∧
    (laneIn 0).laneOn 17 = false ∧
    ((laneIn 1).losOff 17 ≤ 310 ∧ (laneIn 1).losDly 17 ≤ 40 * 255 ∧ 0 < (laneIn 1).losOff 17 ∧ 0 < (laneIn 1).losDly 17) ∧
    (((laneIn 3).lane 17).rrdy = true ∧ ((laneIn 3).lane 17).farRrdy = true ∧ ((laneIn 3).lane 17).count ≠ 0 ∧
      ((sect.lane 17).rrdy = false)) ∧
    ((trainOf (BitVec.ofNat 56 (2 ^ 49 + 3 * 2 ^ 44))).preset = true ∧ (trainOf (BitVec.ofNat 56 (2 ^ 49 + 3 * 2 ^ 44))).stMain ≠ 0 ∧
      (trainOf 0).rrdy = false ∧ 0 < ((laneIn 3).lane 17).count) := by decide

/-- A control block of no block type of R67, and the level indices that bring a block to the receiver of lane `n`. -/
def typed55 : Block := ⟨true, 0x55 :: List.replicate 7 0⟩
def onLine (s : State) (n : Nat) (b : Block) : List (Fin 4) :=
  ((⟨(s.lane n).rxScr, (s.lane n).rxLast, []⟩ : Wire).put (s.on (R.AZL_LSTAT_RXPREC n)) b).sym.map (Fin.ofNat 4)

theorem witness_LaneDeparturesAndRetries :
    (∀ k ∈ ([3, 5, 7] : List Nat), (laneIn k).phase = .run ∧ (laneIn k).laneOn 17 = true ∧ (laneIn k).laneSt 17 = k ∧
      (laneIn k).on (R.AZL_LSTAT_LOS 17) = false ∧ (laneIn k).on (R.SRB (lanePage 17)) = false) ∧
    (39 < (laneIn 5).losTh 17 ∧ (laneIn 5).losDly 17 ≤ 40 * 255) ∧
    (((laneIn 5).receive 17 ((onLine (laneIn 5) 17 typed55).map Fin.val)).1 = some typed55 ∧ blockKind (some typed55) true ≠ .valid ∧
      blockKind (some typed55) false ≠ .valid ∧
      (∀ k ∈ ([4, 5] : List Nat), ((laneIn k).receive 17 ((List.replicate 33 (0 : Fin 4)).map Fin.val)).1 = Option.none)) ∧
    ((laneIn 5).on (R.AZL_LSTAT_BLKLK 17) = true ∧ ((laneIn 4).lane 17).badHdr = [] ∧
      (let h := List.replicate 15 (0 : Nat); (laneIn 5).shTh 17 ≤ (h.filter (fun x => decide (x + max 1 4 < 64))).length + 1)) ∧
    (((laneIn 5).lane 17).tx = Option.none ∧ (laneIn 5).appending 17 = false ∧ (laneIn 5).arriving 17 = false) ∧
    LockLoss.freq ≠ .none ∧ (laneIn 5).ppmTh 17 < (4001 : Int).natAbs ∧ (laneIn 7).on (R.AZL_LCTL_AUTO 17) = true ∧ (laneIn 5).azf.queue = [] ∧
    (laneIn 5).inSvc 17 = false ∧ (laneIn 5).isS = false ∧
    max 1 ((laneIn 5).get (R.AZL_TRCFG_ADMIT 17)) ≤ ((laneIn 5).lane 17).whole := by decide

theorem test_lane_steps :
    ask (.blockLock 17) (laneIn 2) (fun t => t.laneSt 17 == 3 && t.on (R.AZL_LSTAT_BLKLK 17)) = true ∧
    ask (.laneAdmission 17) (laneIn 5) (fun t => t.inSvc 17) = true := by decide

/-- R83: one transition, both FLT bits. -/
theorem test_los_and_lol :
    ask (.losAssert 17 .block 39 10200 false) (laneIn 5) (fun t => t.laneSt 17 == 6 && t.get (R.AZL_CNT_LOSC 17) == 1 &&
      t.get (R.AZL_CNT_LOLC 17) == 1) = true := by decide

theorem witness_SignalEngineWordsRoundTrip : ∀ n : Fin 4, seEngine (.seSta n true 15 16383) = some n ∧
    (seEncode (.seSta n true 15 16383)).isSome = true := by decide

theorem witness_EveryStepKeepsTheInvariant : sect.Inv ∧ ∃ t, step sect = .next t := ⟨inv_sect, _, rfl⟩

theorem witness_EveryStepKeepsTheDriveSound : sect.DriveSound ∧ ∃ t, step sect = .next t := by
  refine ⟨⟨fun c => ?_, by decide⟩, _, rfl⟩
  have h : sect.safCh c = SafChan.init := by
    by_cases hc : c < 2
    · revert c; decide
    · exact nth_over _ _ _ ((by decide : sect.field.saf.length = 2) ▸ Nat.le_of_not_lt hc)
  rw [h]
  unfold SafChan.Sound OutputsFollow
  decide

theorem witness_EveryStepStaysWithinItsStores : sect.Bounded ∧ ∃ t, step sect = .next t := by
  refine ⟨⟨by decide, fun n l => ?_, by decide, fun f => Nat.mod_lt _ (by positivity)⟩, _, rfl⟩
  have h : sect.eng n = SeState.init := by
    by_cases hn : n < 4
    · revert n; decide
    · exact nth_over _ _ _ ((by decide : sect.se.length = 4) ▸ Nat.le_of_not_lt hn)
  unfold State.bank
  rw [h]
  unfold SeState.bank
  split <;> decide

end Sys2Proof.Tests
end

/-! O47: an Assign that gives a confirmed cell its NodeID again, and the reading of a register that it changes. -/

section
namespace Sys2Proof.Machine

/-- A frame that passes every check acts at a cell as its type says, and nothing else happens: a cell has no partner whose ACT
bit it could note (R86, R87, R90, R323). -/
theorem State.onFrame_of_delivers {s : State} {n ty : Nat} {f : Frame} (h : s.Delivers n ty f) (hk : s.isK = true)
    (g : State → State) : s.onFrame n ty f g = g s := by
  obtain ⟨-, hon, hlane, hlock, hlen, hknown, hcrc, htick, hty⟩ := h
  have hrole : s.role = .cell := by simpa [State.isK] using hk
  have hacc : s.accepts n f = (s, true) := by
    simp [State.accepts, hon, hlane, hlock, tooLong, Nat.not_lt.mpr hlen, hknown, hcrc, htick]
  have hact : s.noteAct f = s := by simp [State.noteAct, State.isC, State.isS, hrole]
  simp [State.onFrame, hacc, hact, hty]

/-- An Assign that passes at a cell is taken, and the state that has taken it relays it (R89, R90, R109). -/
theorem exec_assignReceive_cell {s : State} {n : Fin 20} {f : Frame} (h : s.Delivers n tyAssign f) (hlen : f.length = 28)
    (hk : s.isK = true) (hn : n.val ≤ 1) (hpart : s.takesPart = true) :
    exec (.assignReceive n f) s = .next ((s.assignIn n f).hopAlong n tyAssign f) := by
  have hrole : s.role = .cell := by simpa [State.isK] using hk
  have hrun : s.phase = .run := by obtain ⟨hrun, -⟩ := h; exact hrun
  show execAssignReceive n f s = _
  rw [execAssignReceive, live_run hrun, State.onFrame_of_delivers h hk]
  simp [hlen, hrole, hn, hpart]

/-! ### The counterexample -/

/-- A running cell at position 0 of ring 0 of pair 0, confirmed and in lock, with both its lanes in service, no REV request, and
the Enum of END A of round 0 seen. -/
def confirmedCell : State :=
  forEach [(R.SYS_STRAP_ROLE, 3), (R.SYS_NODEID_VALID, 1), (R.SYS_NODEID_ID, 0x400), (R.TCK_STAT_LOCK, 1),
    (R.EN 0x34, 1), (R.EN 0x20, 1), (R.AZL_LSTAT_STATE 0, 5), (R.AZL_LSTAT_INSVC 0, 1), (R.EN 0x21, 1),
    (R.AZL_LSTAT_STATE 1, 5), (R.AZL_LSTAT_INSVC 1, 1)] (fun p s => s.put p.1 p.2)
    { State.reset with phase := .run, fcu := { FcuState.init with timeNs := 1000 },
                       azf := { AzfState.init with seenA := some ⟨0, 1, 0, 0, 0, false, Option.none⟩ } }

/-- The Assign of END A of round 0 on that ring of one cell, as it comes from the Section; it refuses no position. -/
def assignAgain : Frame := mkFrame ⟨tyAssign, 0, true, 0x100, 0, 0, 0, 0⟩ 0 (enumHead false false 0 1 0 ++ zeros 8)

/-- The place of PWM.BYP.SRC read under another reset value: no field of the register map, yet a value of the type `Fld` over
which `KeepsFieldsBut` quantifies. -/
def bypSrcOtherReset : Fld := { R.PWM_BYP_SRC with reset := 1 }

theorem assignAgain_delivers : confirmedCell.Delivers 0 tyAssign assignAgain :=
  ⟨by decide, by decide, by decide, by decide, by decide, by decide, fCrcOk_mkFrame _ _ _, by decide, by decide⟩

/-- The cell may relay the Assign at once, is given the NodeID that it has, and nothing drives the field side. -/
theorem confirmedCell_assigned_again :
    confirmedCell.laneOk 1 = true ∧ confirmedCell.Free 1 ∧ confirmedCell.assignPos 0 assignAgain = some 0 ∧
    confirmedCell.imgFail = false ∧ confirmedCell.idValid = true ∧
    confirmedCell.nodeId = cellId (ePair assignAgain) (64 * fRing assignAgain + 0) ∧
    confirmedCell.bit R.PWM_BYP_SRC 4 = false ∧ confirmedCell.bypWrong = false ∧
    confirmedCell.field.test = Option.none := by
  unfold State.Free
  decide

/-- Ending the REV request that is not there lists PWM.BYP.SRC at its value 0; unlisted, it read the reset value asked for. -/
theorem bypSrcOtherReset_reads :
    confirmedCell.get bypSrcOtherReset = 1 ∧
    ((confirmedCell.assignIn 0 assignAgain).hopAlong 0 tyAssign assignAgain).get bypSrcOtherReset = 0 := by
  decide

/-- Refutes O47: "the same again changes no register of a cell without that request" does not hold as it is stated, since
`KeepsFieldsBut []` speaks of every value of type `Fld`. The Assign clears bit 4 of PWM.BYP.SRC, which is 0, by putting
the field at the value it has; a state that listed no value there lists 0 from then on, and a `Fld` of that key with
reset value 1 reads 1 before and 0 after. The field of the register map itself, with its reset value 0, reads 0 both times. -/
theorem not_enumerationNumbersTheRing : ¬ Obligations.EnumerationNumbersTheRing := by
  unfold Obligations.EnumerationNumbersTheRing
  intro h
  obtain ⟨hlane, hfree, hpos, himg, hvalid, hid, hbit, hwrong, htest⟩ := confirmedCell_assigned_again
  obtain ⟨-, -, -, -, -, -, -, hassign⟩ :=
    h confirmedCell 0 assignAgain 0 ⟨0, 0, [], Option.none, Option.none, false, false⟩ (by decide) (by decide)
  obtain ⟨-, hagain, -⟩ := hassign 0 assignAgain_delivers (by decide) (by decide) (by decide) hlane hfree hpos himg
  obtain ⟨t, ht, -, -, hkeeps⟩ := hagain hvalid hid
  have hexec := exec_assignReceive_cell (n := 0) assignAgain_delivers (by decide) (by decide) (by decide) (by decide)
  have hsame : t.get bypSrcOtherReset = confirmedCell.get bypSrcOtherReset :=
    hkeeps ⟨hbit, hwrong, htest⟩ bypSrcOtherReset (by simp)
  obtain ⟨hbefore, hafter⟩ := bypSrcOtherReset_reads
  obtain rfl := Host.Outcome.next.inj (hexec.symm.trans ht)
  rw [hbefore] at hsame
  exact absurd (hafter.symm.trans hsame) (by decide)

end Sys2Proof.Machine
end

/-! O4: the counter clears. -/

section
namespace Sys2Proof.Machine

/-- `zero` sets the fields that it names to 0 and changes nothing else. -/
theorem zeroesOnly_zero (l : List Fld) (s : State) : ZeroesOnly l s (s.zero l) :=
  ⟨⟨State.zero_frame l s, fun g hg => State.get_zero_ne l s g hg⟩, fun f hf => State.get_zero_mem l s f hf⟩

/-- A command of a running module answers the state it makes. -/
theorem answers_live {c : Instr} {s t : State} {P : State → Prop} (hexec : exec c s = .next (live s t))
    (hrun : s.phase = .run) (hP : P t) : Answers c s P :=
  ⟨t, by rw [hexec, live_run hrun], hP⟩

/-- A command word of a page that takes command words answers the state it makes. -/
theorem answers_cmd {c : Instr} {s t : State} {p : Nat} {P : State → Prop}
    (hexec : exec c s = .next (live s (s.cmd p t))) (h : s.Takes p) (hP : P t) : Answers c s P := by
  obtain ⟨hrun, hgated, hsrb⟩ := h
  exact answers_live (hexec.trans (by rw [State.cmd_of hgated hsrb])) hrun hP

/-- Counters set to 0 and one more field loaded: only these change, the counters read 0, and the field what was loaded. -/
theorem loads_after_zero (l : List Fld) (f : Fld) (v : Nat) (s : State) (hf : f.key ∉ l.map Fld.key) :
    OnlyFields (l ++ [f]) s ((s.zero l).put f v) ∧ (∀ g ∈ l, ((s.zero l).put f v).get g = 0) ∧
      ((s.zero l).put f v).get f = v % 2 ^ f.width := by
  refine ⟨onlyFields_put (by simp) (onlyFields_zero (fun g hg => by simp [hg]) (onlyFields_refl _ s)), fun g hg => ?_,
    State.get_put_self ..⟩
  rw [State.get_put_ne _ _ _ _ (fun e => hf (e.symm ▸ List.mem_map_of_mem hg)), State.get_zero_mem l s g hg]

/-- A command word that sets a page's counters to 0 does so where the page takes it. -/
theorem answers_clear {c : Instr} {s : State} {p : Nat} {l : List Fld}
    (hexec : exec c s = .next (live s (s.cmd p (s.zero l)))) (h : s.Takes p) : Answers c s (ZeroesOnly l s) :=
  answers_cmd hexec h (zeroesOnly_zero l s)

/-- The frame unit's clear loads MINFREE with FREE, which it leaves alone. -/
theorem answers_azfCounterClear {s : State} (h : s.Takes 0x34) : Answers .azfCounterClear s (fun t =>
    let l := [R.AZF_DROP_MBX, R.AZF_DROP_TLM, R.AZF_DROPC_TRUNC, R.AZF_DROPC_CTL, R.AZF_RXERR_SLOT, R.AZF_RXERR_FCRC,
      R.AZF_TAGERR_UNK, R.AZF_TAGERR_STALE, R.AZF_TSTA_OUTL, R.AZF_MBX_MRETX, R.AZF_MBX_MFAIL, R.AZF_FRESHC_OLD]
    OnlyFields (l ++ [R.AZF_POOLSTA_MINFREE]) s t ∧ (∀ f ∈ l, t.get f = 0) ∧
      t.get R.AZF_POOLSTA_MINFREE = s.get R.AZF_POOLSTA_FREE % 2 ^ R.AZF_POOLSTA_MINFREE.width) := by
  refine answers_cmd (t := s.azfClear) rfl h ?_
  rw [State.azfClear, State.get_zero_ne _ s R.AZF_POOLSTA_FREE (by decide)]
  exact loads_after_zero _ _ _ s (by decide)

/-- The Repeat clear sets the four counters to 0 and forgets the ticks that they count. -/
theorem answers_repeatCountClear {s : State} (h : s.Takes 7) : Answers .repeatCountClear s (fun t =>
    let l := [R.TCK_RPT_WIN1, R.TCK_RPT_CONS1, R.TCK_RPT_WIN0, R.TCK_RPT_CONS0]
    { t with regs := s.regs, tck := s.tck } = s ∧ KeepsFieldsBut l s t ∧ (∀ f ∈ l, t.get f = 0) ∧
      t.tck.repeats = [[], []] ∧ t.tck.cons = [0, 0]) := by
  obtain ⟨⟨hrest, hkeeps⟩, hzero⟩ := zeroesOnly_zero [R.TCK_RPT_WIN1, R.TCK_RPT_CONS1, R.TCK_RPT_WIN0, R.TCK_RPT_CONS0] s
  exact answers_cmd (t := s.rptClear) rfl h
    ⟨(congrArg (fun x : State => { x with tck := s.tck }) hrest :), hkeeps, hzero, rfl, rfl⟩

/-- Settles O4: each clear is `zero` over its table, or `zero` and one load, on a page that takes it. -/
theorem counterClearsZeroOrLoad : Obligations.CounterClearsZeroOrLoad := by
  refine ⟨fun s n m hrun => ⟨answers_live rfl hrun (zeroesOnly_zero _ s), answers_clear rfl, answers_clear rfl, answers_clear rfl,
      answers_clear rfl, answers_clear rfl, answers_clear rfl, answers_live rfl hrun (zeroesOnly_zero _ s), answers_clear rfl,
      answers_clear rfl, answers_clear rfl, answers_clear rfl, fun h hrole => ?_, answers_clear rfl⟩,
    fun s i hrun => ⟨answers_azfCounterClear, fun h => answers_cmd rfl h (loads_after_zero _ _ _ s (by decide)),
      answers_live rfl hrun ⟨onlyFields_put (by simp) (onlyFields_refl _ s), State.get_put_self ..⟩,
      answers_repeatCountClear, fun h => ?_⟩⟩
  · have hmember : (s.isC || s.isS) = true := by simpa [State.isC, State.isS] using hrole
    refine answers_cmd (t := s.when (s.isC || s.isS) s.redClear) rfl h ?_
    rw [hmember, State.when_true]
    exact zeroesOnly_zero _ s
  · exact answers_cmd (t := s.rhoClear i) rfl h ⟨rfl, by simp [State.rhoClear, State.inst, State.setInst]⟩

end Sys2Proof.Machine
end

/-! O44: how a cell takes its commands. -/

section
namespace Sys2Proof.Machine

/-! ### The decision and what PWM.IDEC shows of it -/

/-- The three fields in which PWM.IDEC shows a decision. -/
def decisionFields : List Fld := [R.PWM_IDEC_ROW, R.PWM_IDEC_NEXT, R.PWM_IDEC_TRIMP]

/-- PWM.IDEC shows the decision, and nothing else changes. -/
theorem State.showDecision_only (s : State) : OnlyFields decisionFields s s.showDecision :=
  onlyFields_putB (by simp [decisionFields]) (onlyFields_put (by simp [decisionFields])
    (onlyFields_put (by simp [decisionFields]) (onlyFields_refl _ s)))

theorem State.showDecision_row (s : State) : s.showDecision.get R.PWM_IDEC_ROW = s.cellRow.1 % 16 := by
  show (((s.put R.PWM_IDEC_ROW s.cellRow.1).put R.PWM_IDEC_NEXT (s.heldCode s.cellRow.2)).put R.PWM_IDEC_TRIMP
    (b2n (s.cellRow.1 == 10))).get R.PWM_IDEC_ROW = _
  rw [State.get_put_ne _ _ _ _ (by decide), State.get_put_ne _ _ _ _ (by decide), State.get_put_self]
  rfl

theorem State.showDecision_trimp (s : State) : s.showDecision.on R.PWM_IDEC_TRIMP = (s.cellRow.1 == 10) := by
  show ((((s.put R.PWM_IDEC_ROW s.cellRow.1).put R.PWM_IDEC_NEXT (s.heldCode s.cellRow.2)).put R.PWM_IDEC_TRIMP
    (b2n (s.cellRow.1 == 10))).get R.PWM_IDEC_TRIMP == 1) = _
  rw [State.get_put_self]
  cases s.cellRow.1 == 10 <;> rfl

/-- `t` is `s` but for the cell's record, the frame unit's, and register fields of `l`. -/
def CellFrame (l : List Fld) (s t : State) : Prop :=
  { t with regs := s.regs, cell := s.cell, azf := s.azf } = s ∧ KeepsFieldsBut l s t

theorem cellFrame_trans {l : List Fld} {s t u : State} (h : CellFrame l s t) (k : CellFrame l t u) : CellFrame l s u := by
  obtain ⟨hrest, hkeeps⟩ := h
  obtain ⟨krest, kkeeps⟩ := k
  refine ⟨?_, fun g hg => (kkeeps g hg).trans (hkeeps g hg)⟩
  exact (congrArg (fun x : State => { x with regs := s.regs, cell := s.cell, azf := s.azf }) krest :).trans hrest

/-- Registers alone. -/
theorem cellFrame_of_only {l m : List Fld} {s t : State} (h : OnlyFields l s t) (hlm : l ⊆ m) : CellFrame m s t := by
  obtain ⟨hrest, hkeeps⟩ := h
  refine ⟨(congrArg (fun x : State => { x with cell := s.cell, azf := s.azf }) hrest :), fun g hg => hkeeps g fun hmem => hg ?_⟩
  exact List.map_subset _ hlm hmem

/-- A longer list of fields leaves less to say. -/
theorem CellFrame.mono {l m : List Fld} {s t : State} (h : CellFrame l s t) (hlm : l ⊆ m) : CellFrame m s t := by
  obtain ⟨hrest, hkeeps⟩ := h
  exact ⟨hrest, fun g hg => hkeeps g fun hmem => hg (List.map_subset _ hlm hmem)⟩

/-- What a cell's command leaves of memory, of what it sends and of the time. -/
theorem CellFrame.same {l : List Fld} {s t : State} (h : CellFrame l s t) :
    t.mem = s.mem ∧ t.out = s.out ∧ t.tickNs = s.tickNs := by
  obtain ⟨hrest, -⟩ := h
  exact ⟨(congrArg State.mem hrest :), (congrArg State.out hrest :), (congrArg State.tickNs hrest :)⟩

/-! ### Down and Repeat frames -/

/-- The fields that a command of the tick writes. -/
def commandFields : List Fld :=
  [R.AZF_SPLIT_SPLIT, R.AZF_SPLIT_SVALID, R.PWM_IDEC_ROW, R.PWM_IDEC_NEXT, R.PWM_IDEC_TRIMP]

/-- The cell after it has taken SPLIT of a valid Down or Repeat frame. -/
def State.tookSplit (s : State) (f : Frame) (ok : Bool) : State := (s.sawCopy ok).takeSplit f

theorem State.tookSplit_frame (s : State) (f : Frame) (ok : Bool) : CellFrame commandFields s (s.tookSplit f ok) := by
  have hsaw : CellFrame commandFields s (s.sawCopy ok) := by
    unfold State.sawCopy State.when
    split
    · exact ⟨rfl, fun _ _ => rfl⟩
    · exact ⟨rfl, fun _ _ => rfl⟩
  have hput : OnlyFields commandFields (s.sawCopy ok)
      (((s.sawCopy ok).put R.AZF_SPLIT_SVALID 1).put R.AZF_SPLIT_SPLIT (dSplit f % 128)) :=
    onlyFields_put (by simp [commandFields]) (onlyFields_put (by simp [commandFields]) (onlyFields_refl _ _))
  have hseen : CellFrame commandFields (((s.sawCopy ok).put R.AZF_SPLIT_SVALID 1).put R.AZF_SPLIT_SPLIT (dSplit f % 128))
      (s.tookSplit f ok) := ⟨rfl, fun _ _ => rfl⟩
  exact cellFrame_trans hsaw (cellFrame_trans (cellFrame_of_only hput (List.Subset.refl _)) hseen)

theorem State.tookSplit_cell (s : State) (f : Frame) (ok : Bool) : (s.tookSplit f ok).cell = s.cell := by
  unfold State.tookSplit State.takeSplit State.sawCopy State.when
  split <;> rfl

/-- SPLIT of the frame stands in AZF.SPLIT, and the tick's command counts as received. -/
def State.SplitTaken (t : State) (f : Frame) : Prop :=
  t.get R.AZF_SPLIT_SPLIT = dSplit f % 128 ∧ t.get R.AZF_SPLIT_SVALID = 1 ∧ t.azf.cmdSeen = true

theorem State.tookSplit_split (s : State) (f : Frame) (ok : Bool) : (s.tookSplit f ok).SplitTaken f := by
  show (((s.sawCopy ok).put R.AZF_SPLIT_SVALID 1).put R.AZF_SPLIT_SPLIT (dSplit f % 128)).get R.AZF_SPLIT_SPLIT = _ ∧
    (((s.sawCopy ok).put R.AZF_SPLIT_SVALID 1).put R.AZF_SPLIT_SPLIT (dSplit f % 128)).get R.AZF_SPLIT_SVALID = _ ∧ _
  rw [State.get_put_self, State.get_put_ne _ _ _ _ (by decide), State.get_put_self]
  exact ⟨Nat.mod_mod _ _, rfl, rfl⟩

/-- A field that no command of the tick writes reads the same. -/
theorem CellFrame.get {l : List Fld} {s t : State} (h : CellFrame l s t) (g : Fld) (hg : g.key ∉ l.map Fld.key) :
    t.get g = s.get g := by
  obtain ⟨-, hkeeps⟩ := h
  exact hkeeps g hg

/-- The row that a Down frame gives depends on nothing that a command of the tick writes. -/
theorem CellFrame.downRow {s t : State} (h : CellFrame commandFields s t) (f : Frame) : t.downRow f = s.downRow f := by
  simp only [State.downRow, State.nodeId, State.cstate, State.on, h.get R.PWM_KDIS_KEY (by decide), h.get R.PWM_KCH_KEY (by decide),
    h.get R.SYS_NODEID_ID (by decide), h.get R.TCK_STAT_CSTATE (by decide), h.get R.PWM_SCFG_FB (by decide)]
  rfl

theorem CellFrame.idValid {s t : State} (h : CellFrame commandFields s t) : t.idValid = s.idValid := by
  simp only [State.idValid, State.on, h.get R.SYS_NODEID_VALID (by decide)]

theorem CellFrame.imgFail {s t : State} (h : CellFrame commandFields s t) : t.imgFail = s.imgFail := by
  simp only [State.imgFail, h.get R.SEC_STA_BSTAGE (by decide)]

theorem CellFrame.bypReq {s t : State} (h : CellFrame commandFields s t) : t.bypReq = s.bypReq := by
  simp only [State.bypReq, h.get R.PWM_BYP_SRC (by decide)]

theorem CellFrame.bypAux {s t : State} (h : CellFrame commandFields s t) : t.bypAux = s.bypAux := by
  simp only [State.bypAux, State.bit, State.on, h.get R.PWM_BYP_ICH (by decide), h.get R.FIO_IN_LVL (by decide),
    h.get R.PWM_BYP_AUXPOL (by decide)]

/-- Noting a copy changes nothing on which it depends whether a frame is a command. -/
theorem State.sawCopy_cmdOk (s : State) (f : Frame) (ok : Bool) : (s.sawCopy ok).cmdOk f = s.cmdOk f := by
  unfold State.sawCopy State.when
  split <;> rfl

/-- Showing a decision leaves a SPLIT taken. -/
theorem State.SplitTaken.of_decision {s t : State} {f : Frame} (h : s.SplitTaken f) (hframe : CellFrame decisionFields s t)
    (hazf : t.azf = s.azf) : t.SplitTaken f := by
  obtain ⟨hsplit, hvalid, hseen⟩ := h
  exact ⟨(hframe.get _ (by decide)).trans hsplit, (hframe.get _ (by decide)).trans hvalid, (congrArg AzfState.cmdSeen hazf).trans hseen⟩

/-- The cell's record with the decision of a Down frame. -/
def State.decided (s : State) (f : Frame) : CellState :=
  { s.cell with
    cmd := .down, decRow := (s.downRow f).1, decNext := (s.downRow f).2, planNeg := decide (dLevel f < 0)
    planToff := dToff f, planIarm := dIarm f }

/-- The command part of a Down frame: the cell's record takes the decision, and PWM.IDEC shows it where neither Orphan, a
Leave nor the bypass overrides it. -/
theorem State.downDecide_spec (s : State) (f : Frame) :
    CellFrame decisionFields s (s.downDecide f) ∧
    (s.downDecide f).cell = s.decided f ∧
    (s.downDecide f).azf = s.azf ∧
    (s.cstate ≠ 3 → s.cell.leavePend = false → s.bypReq = false → s.bypAux = false →
      (s.downDecide f).get R.PWM_IDEC_ROW = (s.downRow f).1 % 16 ∧
        (s.downDecide f).on R.PWM_IDEC_TRIMP = ((s.downRow f).1 == 10)) := by
  let t : State := { s with cell := s.decided f }
  have ht : s.downDecide f = t.showDecision := rfl
  have hshow := t.showDecision_only
  rw [ht]
  refine ⟨cellFrame_trans (t := t) ⟨rfl, fun _ _ => rfl⟩ (cellFrame_of_only hshow (List.Subset.refl _)),
    (congrArg State.cell hshow.1 :), (congrArg State.azf hshow.1 :), fun hcs hpend hreq haux => ?_⟩
  have hrow : t.cellRow = s.downRow f := by
    show (if s.cstate == 3 || s.cell.leavePend then (3, 3) else if s.bypReq || s.bypAux then (4, 0) else s.downRow f) = _
    simp [hcs, hpend, hreq, haux]
  rw [t.showDecision_row, t.showDecision_trimp, hrow]
  exact ⟨rfl, rfl⟩

/-- A valid Down frame with no mailbox part for a confirmed cell sets SPLIT and decides. -/
theorem exec_downFrame_decides {s : State} {n : Fin 20} {f : Frame} (hk : s.isK = true) (hdel : s.Delivers n tyDown f)
    (hok : s.cmdOk f = true) (hdown : downOk f = true) (hid : s.idValid = true) (himg : s.imgFail = false)
    (hdst : dMdst f ≠ s.ringId) :
    exec (.downFrameReceive n f) s =
      .next (({ s.tookSplit f true with cell := { s.cell with recAck := false } } : State).downDecide f) := by
  have hrun : s.phase = .run := by obtain ⟨hrun, -⟩ := hdel; exact hrun
  have hsame := s.tookSplit_frame f true
  have hcell := s.tookSplit_cell f true
  generalize ht : s.tookSplit f true = t at hsame hcell ⊢
  have hring : t.ringId = s.ringId := by
    unfold State.ringId State.nodeId
    rw [hsame.idValid, hsame.get R.SYS_NODEID_ID (by decide), hid]
    rfl
  have hmail : ∀ x : State, x.ringId = s.ringId → x.downMail f = x := fun x hx => by simp [State.downMail, hx, hdst]
  have himg' : t.imgFail = false := hsame.imgFail.trans himg
  have hid' : t.idValid = true := hsame.idValid.trans hid
  show Host.Outcome.next (live s _) = _
  rw [live_run hrun, State.onFrame_of_delivers hdel hk]
  dsimp only
  rw [hdown, State.sawCopy_cmdOk, hok]
  simp only [Bool.and_self, State.when_true]
  rw [show (s.sawCopy true).takeSplit f = t from ht]
  simp only [himg', Bool.false_and, Bool.false_eq_true, if_false]
  rw [hmail { t with cell := { t.cell with recAck := false } } hring, hcell]
  exact congrArg Host.Outcome.next (if_pos hid')

/-- The Hold command of a valid Repeat frame is shown by a confirmed cell. -/
theorem exec_repeatFrame_shows {s : State} {n : Fin 20} {f : Frame} (hk : s.isK = true) (hdel : s.Delivers n tyRepeat f)
    (hok : s.cmdOk f = true) (hid : s.idValid = true) :
    exec (.repeatFrameReceive n f) s =
      .next ({ s.tookSplit f true with cell := { s.cell with cmd := .repeat } } : State).showDecision := by
  have hrun : s.phase = .run := by obtain ⟨hrun, -⟩ := hdel; exact hrun
  have hsame := s.tookSplit_frame f true
  have hcell := s.tookSplit_cell f true
  generalize ht : s.tookSplit f true = t at hsame hcell ⊢
  have hlen : f.length = 96 := by
    simp only [State.cmdOk, Bool.and_eq_true, decide_eq_true_eq] at hok
    obtain ⟨⟨-, hlen⟩, -⟩ := hok
    exact hlen
  show Host.Outcome.next (live s _) = _
  rw [live_run hrun, State.onFrame_of_delivers hdel hk]
  dsimp only
  rw [decide_eq_true hlen, State.sawCopy_cmdOk, hok, State.when_true, show (s.sawCopy true).takeSplit f = t from ht, hsame.idValid, hid, hcell]
  rfl

/-- A second command of a tick is not taken; that a copy has come may be noted. -/
theorem noted_of_sawCopy {c : Instr} {s : State} {n : Fin 20} {ty : Nat} {f : Frame} {ok : Bool} {g : State → State}
    (hk : s.isK = true) (hdel : s.Delivers n ty f) (hexec : exec c s = .next (live s (s.onFrame n ty f g)))
    (hg : g s = s.sawCopy ok) : Answers c s (fun t => t = { s with azf := { s.azf with copySeen := t.azf.copySeen } }) := by
  have hrun : s.phase = .run := by obtain ⟨hrun, -⟩ := hdel; exact hrun
  refine answers_live hexec hrun ?_
  rw [State.onFrame_of_delivers hdel hk, hg, State.sawCopy, State.when]
  split <;> rfl

/-- After the first command of a tick no frame is a command. -/
theorem State.cmdOk_of_cmdSeen {s : State} (f : Frame) (hseen : s.azf.cmdSeen = true) : s.cmdOk f = false := by
  simp [State.cmdOk, hseen]

/-! ### Leave and Rejoin -/

/-- A Leave waits for the Strike, and PWM.IDEC shows gates off where a Down frame has been decided on. -/
theorem State.leave_waits {s : State} (hk : s.isK = true) (hcs : s.cstate ≠ 3) (himg : s.imgFail = false) :
    CellFrame decisionFields s s.leave ∧ s.leave.cell.leavePend = true ∧
      (s.cell.cmd = .down → s.leave.get R.PWM_IDEC_ROW = 3 ∧ s.leave.get R.PWM_IDEC_NEXT = 3) := by
  have hleave : s.leave = ({ s with cell := { s.cell with leavePend := true } } : State).when (s.cell.cmd == .down)
      (((({ s with cell := { s.cell with leavePend := true } } : State).put R.PWM_IDEC_ROW 3).put R.PWM_IDEC_NEXT 3).put
        R.PWM_IDEC_TRIMP 0) := by
    simp [State.leave, hk, hcs, himg]
  have hput : ∀ x : State, OnlyFields decisionFields x (((x.put R.PWM_IDEC_ROW 3).put R.PWM_IDEC_NEXT 3).put R.PWM_IDEC_TRIMP 0) :=
    fun x => onlyFields_put (by simp [decisionFields]) (onlyFields_put (by simp [decisionFields])
      (onlyFields_put (by simp [decisionFields]) (onlyFields_refl _ x)))
  have hpend : CellFrame decisionFields s { s with cell := { s.cell with leavePend := true } } := ⟨rfl, fun _ _ => rfl⟩
  rw [hleave]
  by_cases hdown : s.cell.cmd = .down
  · rw [beq_iff_eq.mpr hdown, State.when_true]
    refine ⟨cellFrame_trans hpend (cellFrame_of_only (hput _) (List.Subset.refl _)), rfl, fun _ => ⟨?_, ?_⟩⟩
    · rw [State.get_put_ne _ _ _ _ (by decide), State.get_put_ne _ _ _ _ (by decide), State.get_put_self]
      rfl
    · rw [State.get_put_ne _ _ _ _ (by decide), State.get_put_self]
      rfl
  · rw [beq_eq_false_iff_ne.mpr hdown, State.when_false]
    exact ⟨hpend, rfl, fun h => absurd h hdown⟩

/-- A recovery cell and one in Orphan have nothing to leave. -/
theorem State.leave_void {s : State} (h : s.cstate = 3 ∨ s.imgFail = true) : s.leave = s := by
  rcases h with h | h <;> simp [State.leave, h]

/-- A Rejoin cancels a waiting Leave. -/
theorem State.rejoin_cancels {s : State} (hk : s.isK = true) (hpend : s.cell.leavePend = true) :
    CellFrame decisionFields s s.rejoin ∧ s.rejoin.cell = { s.cell with leavePend := false } := by
  have hrejoin : s.rejoin = ({ s with cell := { s.cell with leavePend := false } } : State).showDecision := by
    simp [State.rejoin, hk, hpend]
  have hshow := ({ s with cell := { s.cell with leavePend := false } } : State).showDecision_only
  rw [hrejoin]
  refine ⟨cellFrame_trans (t := { s with cell := { s.cell with leavePend := false } }) ⟨rfl, fun _ _ => rfl⟩
    (cellFrame_of_only hshow (List.Subset.refl _)), ?_⟩
  obtain ⟨hrest, -⟩ := hshow
  exact (congrArg State.cell hrest :)

/-- A Rejoin without a Leave that waits ends Orphan at the Strike, and has no effect otherwise. -/
theorem State.rejoin_orphan {s : State} (hk : s.isK = true) (hpend : s.cell.leavePend = false) :
    s.rejoin = s.when (s.cstate == 3) { s with cell := { s.cell with rejoinPend := true } } := by
  simp [State.rejoin, hk, hpend]

/-- Leave by message, and by register where the page takes it. -/
theorem exec_leave {s : State} (hrun : s.phase = .run) {c : Instr} (hc : c = .leaveMessage ∨ (c = .icmdLeave ∧ s.Takes 0x14)) :
    exec c s = .next s.leave := by
  rcases hc with rfl | ⟨rfl, -, hgated, hsrb⟩
  · exact congrArg Host.Outcome.next (live_run hrun)
  · exact congrArg Host.Outcome.next ((live_run hrun).trans (State.cmd_of hgated hsrb))

/-- Rejoin by message, and by register where the page takes it. -/
theorem exec_rejoin {s : State} (hrun : s.phase = .run) {c : Instr} (hc : c = .rejoinMessage ∨ (c = .icmdRejoin ∧ s.Takes 0x14)) :
    exec c s = .next s.rejoin := by
  rcases hc with rfl | ⟨rfl, -, hgated, hsrb⟩
  · exact congrArg Host.Outcome.next (live_run hrun)
  · exact congrArg Host.Outcome.next ((live_run hrun).trans (State.cmd_of hgated hsrb))

/-! ### Key weights -/

/-- A commit before Eve is due at the next Strike. -/
theorem State.commitPage_early {s : State} {p : Nat} (hdef : pageDefined p = true) (hgated : s.gated p = false)
    (hfrozen : s.frozenPage p = false) (hsrb : s.on (R.SRB p) = false) (heve : s.tickNs < s.eveNs) :
    s.commitPage p = ({ s with tck := { s.tck with due := withPage p s.tck.due } } : State).put (R.PEND p) 1 := by
  simp [State.commitPage, hdef, hgated, hfrozen, hsrb, Nat.not_le.mpr heve]

theorem mem_withPage (p : Nat) (l : List Nat) : p ∈ withPage p l := by
  unfold withPage
  split
  · rename_i h
    exact List.contains_iff_mem.mp h
  · simp

/-- A field reads back what was staged for it; the stages of other fields stand. -/
theorem State.stagedOf_stage_self (s : State) (f : Fld) (v : Nat) : (s.stage f v).stagedOf f = v % 2 ^ f.width := by
  simp [State.stagedOf, State.stage]

theorem State.stagedOf_stage_ne (s : State) (f g : Fld) (v : Nat) (h : f.key ≠ g.key) :
    (s.stage f v).stagedOf g = s.stagedOf g := by
  simp [State.stagedOf, State.stage, alGet_alPut_ne _ _ _ _ _ h, State.get]

/-- Putting a field leaves what is staged for another. -/
theorem State.stagedOf_put_ne (s : State) (f g : Fld) (v : Nat) (h : f.key ≠ g.key) :
    (s.put f v).stagedOf g = s.stagedOf g := by
  simp [State.stagedOf, State.get_put_ne _ _ _ _ h]

/-- The key weights are staged and committed. -/
theorem exec_weights {s : State} (age stick : BitVec 16) (hrun : s.phase = .run) (hk : s.isK = true)
    (hgated : s.gated 0x14 = false) (hsrb : s.on (R.SRB 0x14) = false) (hfrozen : s.frozenPage 0x14 = false)
    (heve : s.tickNs < s.eveNs) :
    exec (.weightsMessage age stick) s = .next
      (({ (s.stage R.PWM_KWGT_AGE age.toNat).stage R.PWM_KWGT_STICK stick.toNat with
          tck := { s.tck with due := withPage 0x14 s.tck.due } } : State).put (R.PEND 0x14) 1) := by
  show Host.Outcome.next (live s (s.when s.isK _)) = _
  rw [live_run hrun, hk, State.when_true]
  exact congrArg Host.Outcome.next (State.commitPage_early (s := (s.stage R.PWM_KWGT_AGE age.toNat).stage R.PWM_KWGT_STICK stick.toNat)
    (by decide) hgated hfrozen hsrb heve)

/-- What the weights message leaves: the weights staged, not in force, and the commit registered. -/
theorem weights_staged (s : State) (age stick : BitVec 16) :
    let t := ({ (s.stage R.PWM_KWGT_AGE age.toNat).stage R.PWM_KWGT_STICK stick.toNat with
      tck := { s.tck with due := withPage 0x14 s.tck.due } } : State).put (R.PEND 0x14) 1
    t.stagedOf R.PWM_KWGT_AGE = age.toNat ∧ t.stagedOf R.PWM_KWGT_STICK = stick.toNat ∧ t.get (R.PEND 0x14) = 1 ∧
      KeepsFieldsBut [R.PEND 0x14] s t := by
  refine ⟨?_, ?_, State.get_put_self .., fun g hg => State.get_put_ne _ _ _ _ fun e => hg (by simp [e])⟩
  · rw [State.stagedOf_put_ne _ _ _ _ (by decide)]
    show ((s.stage R.PWM_KWGT_AGE age.toNat).stage R.PWM_KWGT_STICK stick.toNat).stagedOf R.PWM_KWGT_AGE = _
    rw [State.stagedOf_stage_ne _ _ _ _ (by decide), State.stagedOf_stage_self]
    exact Nat.mod_eq_of_lt age.isLt
  · rw [State.stagedOf_put_ne _ _ _ _ (by decide)]
    show ((s.stage R.PWM_KWGT_AGE age.toNat).stage R.PWM_KWGT_STICK stick.toNat).stagedOf R.PWM_KWGT_STICK = _
    rw [State.stagedOf_stage_self]
    exact Nat.mod_eq_of_lt stick.isLt

/-! ### The statement -/

/-- Settles O44: a command of the tick is a SPLIT taken and a decision shown; Leave, Rejoin and key weights wait. -/
theorem cellTakesItsCommands : Obligations.CellTakesItsCommands := by
  intro s n f age stick hrun hk key rc same
  have hrow : s.downRow f = rc := by
    simp only [rc, key, State.downRow, selected, List.contains_iff_mem, decide_eq_true_eq, Bool.and_eq_true, beq_iff_eq]
  have hrc : rc.1 < 16 := by
    simp only [rc]
    split_ifs <;> decide
  refine ⟨?down, ?rep, ?second, ?leave, ?rejoin, ?weights⟩
  case down =>
    intro hdel hok hdown hid himg hdst
    refine ⟨_, exec_downFrame_decides hk hdel hok hdown hid himg hdst, ?_⟩
    have hsame : CellFrame commandFields s { s.tookSplit f true with cell := { s.cell with recAck := false } } :=
      cellFrame_trans (s.tookSplit_frame f true) ⟨rfl, fun _ _ => rfl⟩
    have hsplit : ({ s.tookSplit f true with cell := { s.cell with recAck := false } } : State).SplitTaken f :=
      s.tookSplit_split f true
    have hcell : ({ s.tookSplit f true with cell := { s.cell with recAck := false } } : State).cell =
      { s.cell with recAck := false } := rfl
    generalize ({ s.tookSplit f true with cell := { s.cell with recAck := false } } : State) = t at hsame hsplit hcell ⊢
    obtain ⟨hframe, hafter, hazf, hshow⟩ := t.downDecide_spec f
    rw [State.decided, hsame.downRow f, hrow] at hafter
    rw [hsame.downRow f, hrow] at hshow
    have hboth := cellFrame_trans hsame (hframe.mono (by simp [decisionFields, commandFields]))
    obtain ⟨hsp, hvalid, hseen⟩ := hsplit.of_decision hframe hazf
    refine ⟨hboth.same, by rw [hafter], by rw [hafter], by rw [hafter], by rw [hafter], hseen, hsp, hvalid, hboth.2, ?_⟩
    intro hcs hpend hreq haux
    have hcs' : t.cstate ≠ 3 := by rwa [State.cstate, hsame.get R.TCK_STAT_CSTATE (by decide)]
    obtain ⟨hr, htrim⟩ := hshow hcs' (by rw [hcell]; exact hpend) (hsame.bypReq.trans hreq) (hsame.bypAux.trans haux)
    exact ⟨hr.trans (Nat.mod_eq_of_lt hrc), htrim⟩
  case rep =>
    intro hdel hok hid
    refine ⟨_, exec_repeatFrame_shows hk hdel hok hid, ?_⟩
    have hsame : CellFrame commandFields s { s.tookSplit f true with cell := { s.cell with cmd := .repeat } } :=
      cellFrame_trans (s.tookSplit_frame f true) ⟨rfl, fun _ _ => rfl⟩
    have hsplit : ({ s.tookSplit f true with cell := { s.cell with cmd := .repeat } } : State).SplitTaken f :=
      s.tookSplit_split f true
    have hcmd : ({ s.tookSplit f true with cell := { s.cell with cmd := .repeat } } : State).cell.cmd = .repeat := rfl
    generalize ({ s.tookSplit f true with cell := { s.cell with cmd := .repeat } } : State) = t at hsame hsplit hcmd ⊢
    have hshow := t.showDecision_only
    have hframe := cellFrame_of_only hshow (List.Subset.refl _)
    have hboth := cellFrame_trans hsame (hframe.mono (by simp [decisionFields, commandFields]))
    obtain ⟨hsp, -, hseen⟩ := hsplit.of_decision hframe (congrArg State.azf hshow.1 :)
    refine ⟨hboth.same, (congrArg (fun x : State => x.cell.cmd) hshow.1 :).trans hcmd, hseen, hsp, ?_, hboth.2⟩
    rw [State.showDecision_row, State.cellRow, hcmd]
    rfl
  case second =>
    intro hseen
    exact ⟨fun hdel => noted_of_sawCopy (ok := downOk f) hk hdel rfl (by simp [State.sawCopy_cmdOk, State.cmdOk_of_cmdSeen f hseen]),
      fun hdel => noted_of_sawCopy (ok := decide (f.length = 96)) hk hdel rfl
        (by simp [State.sawCopy_cmdOk, State.cmdOk_of_cmdSeen f hseen])⟩
  case leave =>
    refine fun c hc => ⟨fun hcs himg => ⟨_, exec_leave hrun hc, ?_⟩, fun h => ⟨_, exec_leave hrun hc, State.leave_void h⟩⟩
    obtain ⟨hframe, hpend, hshow⟩ := State.leave_waits hk hcs himg
    exact ⟨hframe.same, hpend, hframe.2, hshow⟩
  case rejoin =>
    refine fun c hc => ⟨fun hpend => ⟨_, exec_rejoin hrun hc, ?_⟩, fun hpend hcs => ⟨_, exec_rejoin hrun hc, ?_⟩,
      fun hpend hcs => ⟨_, exec_rejoin hrun hc, ?_⟩⟩
    · obtain ⟨hframe, hcell⟩ := State.rejoin_cancels hk hpend
      exact ⟨hframe.same, by rw [hcell], by rw [hcell], hframe.2⟩
    · rw [State.rejoin_orphan hk hpend, beq_iff_eq.mpr hcs, State.when_true]
    · rw [State.rejoin_orphan hk hpend, beq_eq_false_iff_ne.mpr hcs, State.when_false]
  case weights =>
    intro hgated hsrb hfrozen heve
    refine ⟨_, exec_weights age stick hrun hk hgated hsrb hfrozen heve, ⟨rfl, rfl, rfl⟩, ?_⟩
    obtain ⟨hage, hstick, hpend, hkeeps⟩ := weights_staged s age stick
    exact ⟨hage, hstick, hpend, mem_withPage _ _, hkeeps _ (by decide), hkeeps⟩

end Sys2Proof.Machine
end

/-! O40 and O41: a value staged for a field that is not an ST field takes force with the commit of its page. -/

section
namespace Sys2Proof.Machine

/-- The arms of the Section's mode are arm 0 alone, or both. -/
theorem arms_cases : arms = [0] ∨ arms = [0, 1] := by
  unfold arms
  split
  · exact .inr rfl
  · exact .inl rfl

/-- On a running module with LOCK a Strike is the boundary of the tick. -/
theorem exec_strike_lock {s : State} (hrun : s.phase = .run) (hlock : s.lock = true) : exec .strike s = .next s.boundary := by
  show Host.Outcome.next (live s (s.when s.lock s.boundary)) = _
  rw [live_run hrun, hlock, State.when_true]

/-! ### O41: SEQ of a page with a due commit -/

/-- A running module with LOCK, a due commit of page 0, and 5 staged for the RO field SEQ of that page. -/
def stagedSeq : State :=
  { State.reset.put R.TCK_STAT_LOCK 1 with
    phase := .run, staged := [((R.SEQ 0).key, 5)], tck := { TckState.init with due := [0] } }

/-- At the Strike SEQ takes the 5 staged for it and advances to 6. -/
theorem stagedSeq_boundary : stagedSeq.boundary.get (R.SEQ 0) = 6 := by
  unfold State.boundary State.strikeNow
  rcases arms_cases with harms | harms
  · rw [harms]
    decide +kernel
  · rw [harms]
    decide +kernel

/-- Refutes O41: `State.Inv` lets a value be staged for any field, an RO one too. One staged for SEQ of a page with a due
commit takes force with it, so that SEQ, 0 before the Strike, reads 6 after it and not 1. -/
theorem not_strikeCarriesTheTickOver : ¬ Obligations.StrikeCarriesTheTickOver := by
  unfold Obligations.StrikeCarriesTheTickOver
  intro h
  obtain ⟨t, ht, -, hcommits, -⟩ := h stagedSeq rfl (by simp [State.Inv, stagedSeq, Rising, State.reset, Memory.wf]) (by decide)
    (by decide) (by decide) rfl
  obtain ⟨hdue, -⟩ := hcommits (by decide) 0 (by decide)
  obtain ⟨hseq, -⟩ := hdue (by decide)
  obtain rfl := Host.Outcome.next.inj ((exec_strike_lock rfl (by decide)).symm.trans ht)
  rw [stagedSeq_boundary] at hseq
  exact absurd hseq (by decide)

/-! ### O40: the commits registered after Eve -/

/-- A running module with LOCK and a software reset that waits; page 7 has a commit due, one registered after Eve, and 0 staged
for the RO field TCK.STAT.LOCK. -/
def stagedLock : State :=
  { State.reset.put R.TCK_STAT_LOCK 1 with
    phase := .run, staged := [(R.TCK_STAT_LOCK.key, 0)], tck := { TckState.init with due := [7], later := [7] }
    pwr := { State.reset.pwr with swPend := true } }

/-- The commit clears LOCK, so that the reset takes effect and no commit is due any more. -/
theorem stagedLock_boundary : stagedLock.boundary.tck.due = [] := by
  unfold State.boundary State.strikeNow
  rcases arms_cases with harms | harms
  · rw [harms]
    decide +kernel
  · rw [harms]
    decide +kernel

/-- Refutes O40: no hypothesis says for which fields a value may be staged. One staged for LOCK takes force with the commit of
its page; without LOCK the software reset that waits takes effect at the end of the Strike, and the commit registered after
Eve is not due next but forgotten. -/
theorem not_boundaryInstantsOfTheTick : ¬ Obligations.BoundaryInstantsOfTheTick := by
  unfold Obligations.BoundaryInstantsOfTheTick
  intro h
  obtain ⟨hstrike, -⟩ := h stagedLock rfl
  obtain ⟨t, ht, -, hdue, -⟩ := hstrike (by decide) (by decide)
  obtain rfl := Host.Outcome.next.inj ((exec_strike_lock rfl (by decide)).symm.trans ht)
  exact absurd (stagedLock_boundary.symm.trans hdue) (by decide)

end Sys2Proof.Machine
end

/-! O45: relays, the Frame Pool, messages and their resends. -/

section
namespace Sys2Proof.Machine

/-! ### A counter, and a byte of a frame -/

/-- A saturating counter advanced by one. -/
theorem State.get_incSat_self (s : State) (f : Fld) : (s.incSat f).get f = min (s.get f + 1) (2 ^ f.width - 1) := by
  have hpos : 0 < 2 ^ f.width := Nat.two_pow_pos _
  rw [State.incSat, State.addSat, State.get_put_self, satNat]
  exact Nat.mod_eq_of_lt (by omega)

/-- A byte is below 256. -/
theorem byteAt_lt (f : Frame) (i : Nat) : byteAt f i < 256 := by
  unfold byteAt fieldBE slice
  cases f.drop i with
  | nil => decide
  | cons b t => simpa [natBE] using b.isLt

/-! ### A frame of at most one buffer in the Frame Pool -/

/-- Bytes written into memory read back there; every other byte of memory and all of flash stand. -/
theorem memBytes_setMem {s t : State} (hinv : s.Inv) (a : Nat) (f : List Byte)
    (hmem : t.mem = Memory.writeBytes 0 s.mem a f) (hflash : t.flash = s.flash) :
    t.memBytes a f.length = f ∧ SameBytesBut a f.length s t := by
  obtain ⟨hwf, -, -⟩ := hinv
  refine ⟨?_, fun b => ⟨fun hb => ?_, by rw [hflash]⟩⟩
  · rw [State.memBytes, hmem, Memory.readBytes_writeBytes a f hwf]
  · rw [hmem, Memory.read_writeBytes_ne a b f hwf hb]

/-- A run of buffers begins in the pool. -/
theorem pickRun_lt (used : List Nat) (n c fuel : Nat) : pickRun used n c fuel < 16384 := by
  induction fuel generalizing c with
  | zero => exact Nat.mod_lt _ (by decide)
  | succ fuel ih =>
    rw [pickRun]
    split
    · exact ih (c + 1)
    · exact Nat.mod_lt _ (by decide)

/-- A frame of at most 256 bytes that may have a buffer is stored in one. -/
theorem State.poolStore_one {s : State} {cls : Nat} {f : List Byte} (hne : 1 ≤ f.length) (hlen : f.length ≤ 256)
    (hmay : s.poolMay cls 0 = true) :
    ∃ b, b < 16384 ∧ s.poolStore cls f =
      (({ s with freeCtr := s.freeCtr + 1 } : State).setMem (0x44000000 + 256 * b) f, .ok [b]) := by
  have hone : (f.length + 255) / 256 = 1 := by omega
  have hask : s.poolAskAll cls 0 1 = (s, 1) := by simp [State.poolAskAll, State.poolAsk, hmay]
  have hlt := pickRun_lt s.poolUsed 1 (s.fresh 14).1 16384
  refine ⟨pickRun s.poolUsed 1 (s.fresh 14).1 16384, hlt, ?_⟩
  have hrun : bufRun (pickRun s.poolUsed 1 (s.fresh 14).1 16384) 1 = [pickRun s.poolUsed 1 (s.fresh 14).1 16384] := by
    simp [bufRun, Nat.mod_eq_of_lt hlt]
  have htake : s.poolTake cls 1 =
      ({ s with freeCtr := s.freeCtr + 1 }, .ok [pickRun s.poolUsed 1 (s.fresh 14).1 16384]) := by
    rw [← hrun, State.poolTake, hask]
    rfl
  rw [State.poolStore, hone, htake]
  simp [State.poolFill, List.take_of_length_le hlen]

/-- A frame of one buffer that is kept stands in the pool, and nothing leaves. -/
theorem State.keep_kept {s : State} {lane cls src arg : Nat} {f : List Byte} (hinv : s.Inv) (hne : 1 ≤ f.length)
    (hlen : f.length ≤ 256) (hmay : s.poolMay cls 0 = true) :
    Kept s (s.keep lane cls src arg f) lane cls f ∧ (s.keep lane cls src arg f).out = s.out ∧
      (s.keep lane cls src arg f).azf.acks = s.azf.acks := by
  obtain ⟨b, hb, hstore⟩ := State.poolStore_one hne hlen hmay
  have hkeep : s.keep lane cls src arg f =
      (({ ({ s with freeCtr := s.freeCtr + 1 } : State).setMem (0x44000000 + 256 * b) f with
          azf := { s.azf with kept := s.azf.kept ++ [{ s.entry lane false false f with cls := cls, bufs := [b] }] } } :
        State).poolCount).dsxIssue src (arg + b) := by
    rw [State.keep, State.hold, hstore]
    rfl
  have hrest := (dsxIssue_frame
    (({ ({ s with freeCtr := s.freeCtr + 1 } : State).setMem (0x44000000 + 256 * b) f with
          azf := { s.azf with kept := s.azf.kept ++ [{ s.entry lane false false f with cls := cls, bufs := [b] }] } } :
        State).poolCount) src (arg + b)).rest
  rw [← hkeep] at hrest
  obtain ⟨hread, hsame⟩ := memBytes_setMem hinv (0x44000000 + 256 * b) f (congrArg State.mem hrest :)
    (congrArg State.flash hrest :)
  exact ⟨⟨b, hb, (congrArg (fun x : State => x.azf.kept) hrest :), hread, hsame⟩, (congrArg State.out hrest :),
    (congrArg (fun x : State => x.azf.acks) hrest :)⟩

/-- What the pool takes of a state: memory, flash, the queues and the instant. -/
theorem Kept.of_eq {s u t : State} {lane cls : Nat} {f : List Byte} (h : Kept u t lane cls f) (hmem : u.mem = s.mem)
    (hflash : u.flash = s.flash) (hkept : u.azf.kept = s.azf.kept) (htime : u.now10 = s.now10) : Kept s t lane cls f := by
  obtain ⟨b, hb, hk, hread, hsame⟩ := h
  refine ⟨b, hb, ?_, hread, ?_⟩
  · rw [hk, hkept, State.entry, State.entry, htime]
  · intro x
    rw [← hmem, ← hflash]
    exact hsame x

/-! ### Relays -/

/-- A relay of a frame over a transmitter that is sending stores it. -/
theorem State.passOn_busy {s : State} {n m : Nat} (f : Frame) (ha : s.azfOn = true) (hm : s.laneOk m = true)
    (hbusy : s.busy m = true) : s.passOn n m false f = s.enqueue (s.entry m false false f) := by
  have hgaps : s.gaps m = s := by
    unfold State.gaps
    cases s.azf.queue.length with
    | zero => rfl
    | succ k => simp [State.settle, hbusy]
  simp [State.passOn, State.offer, ha, hm, hgaps, hbusy]

/-- A frame of one buffer waits in the pool for its transmitter. -/
theorem State.enqueue_one {s : State} {q : Queued} (hinv : s.Inv) (hne : 1 ≤ q.f.length) (hlen : q.f.length ≤ 256)
    (hmay : s.poolMay q.cls 0 = true) :
    (s.enqueue q).out = s.out ∧ ∃ b, b < 16384 ∧ (s.enqueue q).azf.queue = queueIn { q with bufs := [b] } s.azf.queue ∧
      (s.enqueue q).memBytes (0x44000000 + 256 * b) q.f.length = q.f ∧
      SameBytesBut (0x44000000 + 256 * b) q.f.length s (s.enqueue q) := by
  obtain ⟨b, hb, hstore⟩ := State.poolStore_one hne hlen hmay
  have henq : s.enqueue q =
      (({ s with freeCtr := s.freeCtr + 1 } : State).setMem (0x44000000 + 256 * b) q.f).queued { q with bufs := [b] } := by
    rw [State.enqueue, hstore]
  rw [henq]
  exact ⟨rfl, b, hb, rfl, memBytes_setMem hinv _ _ rfl rfl⟩

/-- A known frame without ACT that no cell ends is handed to the other lane as it came. -/
theorem State.relay_known {s : State} {n m : Nat} {f : Frame} (hnm : n ≠ m) (hn : s.laneOk n = true) (hlen : f.length ≤ 4096)
    (hact : fAct f = false) (hk : s.isK = false) (hknown : fKnown f = true) (hown : ownRelay f = false) :
    s.relay n m f = s.passOn n m false f := by
  have hnote : s.noteAct f = s := by simp [State.noteAct, hact]
  have hends : s.endsCopy f = false := by simp [State.endsCopy, hk]
  simp [State.relay, hnm, hn, hown, hknown, tooLong, Nat.not_lt.mpr hlen, hnote, hends]

/-- A frame of unknown version or type is counted and handed to the other lane as it came. -/
theorem State.relay_unknown {s : State} {n m : Nat} {f : Frame} (hnm : n ≠ m) (hn : s.laneOk n = true) (hlen : f.length ≤ 4096)
    (hknown : fKnown f = false) : s.relay n m f = (s.incSat R.AZF_TAGERR_UNK).passOn n m false f := by
  have hnote : (s.incSat R.AZF_TAGERR_UNK).noteAct f = s.incSat R.AZF_TAGERR_UNK := by simp [State.noteAct, hknown]
  have hends : (s.incSat R.AZF_TAGERR_UNK).endsCopy f = false := by simp [State.endsCopy, hknown]
  simp [State.relay, hnm, hn, ownRelay, hknown, tooLong, Nat.not_lt.mpr hlen, hnote, hends]

/-- Of a module that forwards no commands a relay is the frame unit's alone. -/
theorem exec_frameRelay_plain {s : State} {n m : Fin 20} {f : Frame} (hrun : s.phase = .run) (ha : s.azfOn = true)
    (hfw : s.forwards = false) : exec (.frameRelay n m f) s = .next (s.relay n m f) := by
  show execFrameRelay n m f s = _
  simp [execFrameRelay, live_run hrun, ha, hfw]

/-- Counting a frame of unknown type changes nothing on which it depends whether a transmitter may send. -/
theorem State.countUnknown_lane (s : State) (m : Fin 20) :
    (s.incSat R.AZF_TAGERR_UNK).azfOn = s.azfOn ∧ (s.incSat R.AZF_TAGERR_UNK).laneOk m = s.laneOk m ∧
      (s.Free m → (s.incSat R.AZF_TAGERR_UNK).Free m) := by
  have hget : ∀ g : Fld, R.AZF_TAGERR_UNK.key ≠ g.key → (s.incSat R.AZF_TAGERR_UNK).get g = s.get g :=
    fun g hg => State.get_put_ne _ _ _ _ hg
  have hkeys : ∀ m : Fin 20, R.AZF_TAGERR_UNK.key ≠ (R.EN (lanePage m)).key ∧
      R.AZF_TAGERR_UNK.key ≠ (R.AZL_LSTAT_STATE m).key ∧ R.AZF_TAGERR_UNK.key ≠ (R.AZL_LSTAT_INSVC m).key ∧
      R.AZF_TAGERR_UNK.key ≠ (R.AZL_LCTL_TXOFF m).key := by decide
  obtain ⟨hen, hst, hsvc, hoff⟩ := hkeys m
  have hrole : (s.incSat R.AZF_TAGERR_UNK).role = s.role := by
    simp only [State.role, State.on, hget R.SYS_STRAP_BAD (by decide), hget R.SYS_STRAP_ROLE (by decide)]
    rfl
  have hgated : ∀ p, (s.incSat R.AZF_TAGERR_UNK).gated p = s.gated p := by
    intro p
    simp only [State.gated, State.heldPage, State.imgFail, State.isK, State.isC, State.isS, hrole,
      hget R.SEC_STA_BSTAGE (by decide)]
    rfl
  refine ⟨?_, ?_, fun hfree => ?_⟩
  · simp only [State.azfOn, State.runs, State.en, State.on, hgated, hget (R.EN 0x34) (by decide)]
  · simp only [State.laneOk, State.runs, State.en, State.laneUp, State.laneSt, State.inSvc, State.on, hgated, hget _ hen,
      hget _ hst, hget _ hsvc]
  · obtain ⟨hidle, hbusy, hgap, hqueue⟩ := hfree
    refine ⟨?_, hbusy, hgap, hqueue⟩
    rw [← hidle]
    simp only [State.txIdle, State.laneSt, State.on, hget _ hst, hget _ hoff]

theorem answers_frameRelay {s : State} {n m : Fin 20} {f : Frame} (hrun : s.phase = .run) (hinv : s.Inv)
    (ha : s.azfOn = true) (hnm : n.val ≠ m.val) (hn : s.laneOk n = true) (hm : s.laneOk m = true) (hlen : f.length ≤ 4096)
    (hact : fAct f = false) (hk : s.isK = false) (hfw : s.forwards = false) :
    (ownRelay f = true → Answers (.frameRelay n m f) s (fun t => t = s)) ∧
    (fKnown f = true → ownRelay f = false → s.Free m → Answers (.frameRelay n m f) s (fun t =>
      t.out = ⟨m, f⟩ :: s.out ∧ t.mem = s.mem ∧ t.regs = s.regs)) ∧
    (fKnown f = true → ownRelay f = false → s.busy m = true → f.length ≤ 256 → f ≠ [] → s.poolMay (fClass f) 0 = true →
      Answers (.frameRelay n m f) s (fun t => t.out = s.out ∧ ∃ b, b < 16384 ∧
        t.azf.queue = queueIn { s.entry m false false f with bufs := [b] } s.azf.queue ∧
        t.memBytes (0x44000000 + 256 * b) f.length = f ∧ SameBytesBut (0x44000000 + 256 * b) f.length s t)) := by
  have hexec := exec_frameRelay_plain (n := n) (m := m) (f := f) hrun ha hfw
  refine ⟨fun hown => ⟨s, ?_, rfl⟩, fun hknown hown hfree => ⟨_, hexec, ?_⟩,
    fun hknown hown hbusy hshort hne hmay => ⟨_, hexec, ?_⟩⟩
  · rw [hexec, State.relay, if_pos (.inr (.inr hown))]
  · rw [State.relay_known hnm hn hlen hact hk hknown hown, State.passOn_free _ _ ha hm hfree]
    exact ⟨rfl, rfl, rfl⟩
  · rw [State.relay_known hnm hn hlen hact hk hknown hown, State.passOn_busy _ ha hm hbusy]
    exact State.enqueue_one (q := s.entry m false false f) hinv (List.length_pos_of_ne_nil hne) hshort hmay

theorem answers_unknownFrame {s : State} {n m : Fin 20} {f : Frame} (hrun : s.phase = .run)
    (ha : s.azfOn = true) (hnm : n.val ≠ m.val) (hn : s.laneOk n = true) (hm : s.laneOk m = true) (hlen : f.length ≤ 4096)
    (hknown : fKnown f = false) (hfree : s.Free m) :
    Answers (.unknownFrame n m f) s (fun t => t.out = ⟨m, f⟩ :: s.out ∧ t.mem = s.mem ∧
      KeepsFieldsBut [R.AZF_TAGERR_UNK] s t ∧
      t.get R.AZF_TAGERR_UNK = min (s.get R.AZF_TAGERR_UNK + 1) (2 ^ R.AZF_TAGERR_UNK.width - 1)) := by
  obtain ⟨hon, hlane, hstill⟩ := s.countUnknown_lane m
  obtain ⟨-, hkeeps⟩ := onlyFields_incSat (s := s) (f := R.AZF_TAGERR_UNK) (l := [R.AZF_TAGERR_UNK]) (by simp)
    (onlyFields_refl _ s)
  refine answers_live (t := s.relay n m f) ?_ hrun ?_
  · show execUnknownFrame n m f s = _
    simp [execUnknownFrame, ha, hknown]
  · rw [State.relay_unknown hnm hn hlen hknown,
      State.passOn_free _ _ (hon.trans ha) (hlane.trans hm) (hstill hfree)]
    exact ⟨rfl, rfl, hkeeps, s.get_incSat_self _⟩

/-! ### What a frame delivered to a node with a partner does -/

/-- A frame that passes every check and does not come from the partner acts as its type says, and nothing else happens. -/
theorem State.onFrame_of_stranger {s : State} {n ty : Nat} {f : Frame} (h : s.Delivers n ty f)
    (hsrc : fSrc f ≠ s.partnerId) (g : State → State) : s.onFrame n ty f g = g s := by
  obtain ⟨-, hon, hlane, hlock, hlen, hknown, hcrc, htick, hty⟩ := h
  have hacc : s.accepts n f = (s, true) := by
    simp [State.accepts, hon, hlane, hlock, tooLong, Nat.not_lt.mpr hlen, hknown, hcrc, htick]
  have hother : (fSrc f == s.partnerId) = false := beq_eq_false_iff_ne.mpr hsrc
  have hact : s.noteAct f = s := by simp [State.noteAct, hother]
  simp [State.onFrame, hacc, hact, hty]

/-- The first frame of a producer is new. -/
theorem State.freshness_first {s : State} {key : Nat} (v : Nat)
    (h : alGet (s.azf.fresh.map (fun p => (p.1, some p.2))) key Option.none = Option.none) :
    s.freshness key v = ({ s with azf := { s.azf with fresh := alPut s.azf.fresh key ⟨v, 0⟩ } }, 2) := by
  simp only [State.freshness, h]

/-- Listing a value and then looking at all values as present is the same as listing it so. -/
theorem map_alPut {α β : Type} (g : α → β) (l : List (Nat × α)) (k : Nat) (v : α) :
    (alPut l k v).map (fun p => (p.1, g p.2)) = alPut (l.map (fun p => (p.1, g p.2))) k (g v) := by
  induction l with
  | nil => rfl
  | cons c t ih =>
    obtain ⟨a, w⟩ := c
    simp only [alPut, List.map_cons]
    split
    · rfl
    · split
      · rfl
      · rw [List.map_cons, ih]

/-! ### Trajectories and Reports -/

/-- A new Trajectory that comes before the cut-off. -/
def trajOf (f : Frame) : Traj := ⟨fieldBE f 12 2, byteAt f 14 % 32, trajQ f, false⟩

/-- The state that has the trajectory of frame `f`, the first of its producer, at hand. -/
def State.trajListed (s : State) (f : Frame) : State :=
  { s with azf := { s.azf with
      fresh := alPut s.azf.fresh (fArm f) ⟨byteAt f 16, 0⟩, trajNew := alPut s.azf.trajNew (fArm f) (trajOf f) } }

/-- The first Trajectory of a producer, before the cut-off, is in use once it has begun. -/
theorem State.trajIn_first {s : State} {f : Frame} (hcut : s.tickNs < s.cutNs)
    (hfirst : alGet (s.azf.fresh.map (fun p => (p.1, some p.2))) (fArm f) Option.none = Option.none) :
    s.trajIn f = if s.trajAge (trajOf f) < 0 then s.trajListed f
      else { s.trajListed f with azf := { (s.trajListed f).azf with
        trajs := alPut s.azf.trajs (fArm f) (trajOf f), trajNew := alDel (s.trajListed f).azf.trajNew (fArm f) } } := by
  have hin : s.trajIn f = if (s.trajListed f).tickNs < (s.trajListed f).cutNs then (s.trajListed f).trajTake (fArm f)
      else s.trajListed f := by
    rw [State.trajIn, State.freshness_first _ hfirst]
    rfl
  have hcut' : (s.trajListed f).tickNs < (s.trajListed f).cutNs := hcut
  have hnew : alGet ((s.trajListed f).azf.trajNew.map (fun p => (p.1, some p.2))) (fArm f) Option.none =
      some (trajOf f) := by
    rw [show (s.trajListed f).azf.trajNew = alPut s.azf.trajNew (fArm f) (trajOf f) from rfl, map_alPut,
      alGet_alPut_self]
  rw [hin, if_pos hcut', State.trajTake, hnew]
  rfl

theorem answers_trajectoryReceive {s : State} {n : Fin 20} {f : Frame} (hdel : s.Delivers n tyTraj f)
    (hmine : s.trajMine f = true) (hsrc : fSrc f ≠ s.partnerId) (hcut : s.tickNs < s.cutNs)
    (hfirst : alGet (s.azf.fresh.map (fun p => (p.1, some p.2))) (fArm f) Option.none = Option.none) :
    Answers (.trajectoryReceive n f) s (fun t => t.mem = s.mem ∧ t.regs = s.regs ∧
      (0 ≤ s.trajAge (trajOf f) → t.traj (fArm f) = some (trajOf f)) ∧
      (s.trajAge (trajOf f) < 0 → t.traj (fArm f) = s.traj (fArm f))) := by
  have hrun : s.phase = .run := by obtain ⟨hrun, -⟩ := hdel; exact hrun
  have hexec : exec (.trajectoryReceive n f) s = .next (live s (s.trajIn f)) := by
    show execTrajectoryReceive n f s = _
    rw [execTrajectoryReceive, State.onFrame_of_stranger hdel hsrc, hmine, State.when_true]
  refine answers_live hexec hrun ?_
  rw [State.trajIn_first hcut hfirst]
  by_cases hage : s.trajAge (trajOf f) < 0
  · rw [if_pos hage]
    exact ⟨rfl, rfl, fun h => absurd hage (not_lt.mpr h), fun _ => rfl⟩
  · rw [if_neg hage]
    refine ⟨rfl, rfl, fun _ => ?_, fun h => absurd h hage⟩
    show alGet ((alPut s.azf.trajs (fArm f) (trajOf f)).map (fun p => (p.1, some p.2))) (fArm f) Option.none = _
    rw [map_alPut, alGet_alPut_self]

theorem answers_reportReceive {s : State} {n : Fin 20} {f : Frame} (hinv : s.Inv) (hdel : s.Delivers n tyReport f)
    (hc : s.isC = true) (hact : fAct f = true) (hlen : f.length = 40) (hsrc : fSrc f ≠ s.partnerId)
    (hfirst : alGet (s.azf.fresh.map (fun p => (p.1, some p.2))) (16 + 2 * fSrc f + fArm f) Option.none = Option.none)
    (hmay : s.poolMay 0 0 = true) :
    Answers (.reportReceive n f) s (fun t => Kept s t n 0 f ∧ t.out = s.out) := by
  have hrun : s.phase = .run := by obtain ⟨hrun, -⟩ := hdel; exact hrun
  let u : State := { s with azf := { s.azf with fresh := alPut s.azf.fresh (16 + 2 * fSrc f + fArm f) ⟨byteAt f 12, 0⟩ } }
  have hexec : exec (.reportReceive n f) s = .next (live s (u.keep n 0 (0x20 + n) (tyReport * 2 ^ 16) f)) := by
    show execReportReceive n f s = _
    rw [execReportReceive, State.onFrame_of_stranger hdel hsrc]
    simp only [hc, hact, hlen, State.freshness_first _ hfirst]
    rfl
  obtain ⟨hkept, hout, -⟩ := State.keep_kept (s := u) (lane := n) (cls := 0) (src := 0x20 + n) (arg := tyReport * 2 ^ 16)
    (f := f) hinv (by omega) (by omega) hmay
  exact answers_live hexec hrun ⟨hkept.of_eq rfl rfl rfl rfl, hout⟩

/-! ### Mailbox frames -/

/-- The acknowledgement of message `q` that goes to node `dst`. -/
def State.ackFrame (s : State) (n dst q : Nat) : Frame :=
  s.frame { s.hdr tyMailbox with dst := dst, ring := s.laneRing n } (mailboxBody 0 (some q) [])

/-- A Mailbox frame of this node's own is one, for the node that it names. -/
theorem mailboxFrame_header (s : State) (dst ring seq : Nat) (ack : Option Nat) (data : List Byte) :
    fType (s.frame { s.hdr tyMailbox with dst := dst, ring := ring } (mailboxBody seq ack data)) = tyMailbox ∧
    fDst (s.frame { s.hdr tyMailbox with dst := dst, ring := ring } (mailboxBody seq ack data)) = dst % 16384 ∧
    byteAt (s.frame { s.hdr tyMailbox with dst := dst, ring := ring } (mailboxBody seq ack data)) 13 = ack.getD 0 % 256 ∧
    byteAt (s.frame { s.hdr tyMailbox with dst := dst, ring := ring } (mailboxBody seq ack data)) 14 =
      128 * b2n ack.isSome % 256 := by
  refine ⟨?_, ?_, ?_, ?_⟩
  · simp [fType, byteAt, fieldBE, slice, natBE, State.frame, State.hdr, mkFrame, sealCrc, bytesBE, tyMailbox]
  · simp [fDst, fieldBE, slice, natBE, State.frame, State.hdr, mkFrame, sealCrc, bytesBE, tyMailbox]
    omega
  · simp [byteAt, fieldBE, slice, natBE, State.frame, State.hdr, mkFrame, sealCrc, bytesBE, mailboxBody]
  · simp [byteAt, fieldBE, slice, natBE, State.frame, State.hdr, mkFrame, sealCrc, bytesBE, mailboxBody]

/-- A member of a pair has a NodeID of its own or none, never a source left free. -/
theorem State.not_unassigned {s : State} (h : s.isK = false) : s.unassigned = false := by simp [State.unassigned, h]

/-- A frame of the own of a Conductor or Section leaves at once over a free lane in service. -/
theorem State.launch_member {s : State} {n : Nat} {f : Frame} (hk : s.isK = false) (ha : s.azfOn = true) (hl : s.mayLaunch = true)
    (hn : s.laneOk n = true) (hfree : s.Free n) (hty : fType f ≠ tyProbeReply) :
    s.launch n f = s.startTx n Option.none false true s.now10 0 f := by
  rw [State.launch_free f ha hl hn hfree (fun h => absurd h hty), State.not_unassigned hk, State.when_false]

/-- Before Eve a node may launch. -/
theorem State.mayLaunch_before_eve {s : State} (h : s.tickNs < s.eveNs) : s.mayLaunch = true := by
  simp only [State.mayLaunch, State.mayLaunchAt, Bool.or_eq_true, decide_eq_true_eq]
  right
  left
  omega

/-- A message that is no acknowledgement and does not come from the partner is answered and kept. -/
theorem State.mailIn_message {s : State} {n : Nat} {f : Frame} (hsrc : fSrc f ≠ s.partnerId)
    (hack : bitOf (byteAt f 14) 7 = false) : s.mailIn n f = (s.mailReply n f).keep n 2 (0x20 + n) (tyMailbox * 2 ^ 16) f := by
  have hother : (fSrc f == s.partnerId) = false := beq_eq_false_iff_ne.mpr hsrc
  have h1 : s.mailAck f = s := by simp [State.mailAck, hack]
  have h2 : s.mailFinding f = s := by simp [State.mailFinding, hother]
  have h3 : s.mailLanes f = s := by
    unfold State.mailLanes
    split
    · simp [hother]
    · rfl
  simp [State.mailIn, h1, h2, h3, hack]

theorem exec_mailboxFrameReceive {s : State} {n : Fin 20} {f : Frame} (hdel : s.Delivers n tyMailbox f)
    (hmember : s.isS = true ∨ s.isC = true) (hlen : f.length = 22 + mLen f) (hle : mLen f ≤ 200) (hdst : fDst f = s.nodeId)
    (hsrc : fSrc f ≠ s.partnerId) (hack : bitOf (byteAt f 14) 7 = false) :
    exec (.mailboxFrameReceive n f) s =
      .next (live s ((s.mailReply n f).keep n 2 (0x20 + n) (tyMailbox * 2 ^ 16) f)) := by
  have hrole : (s.isS || s.isC) = true := by simpa using hmember
  have hle' : mLen f ≤ 256 := by omega
  show execMailboxFrameReceive n f s = _
  rw [execMailboxFrameReceive, State.onFrame_of_stranger hdel hsrc, State.mailIn_message hsrc hack]
  simp only [hrole, ← hlen, hle', hdst]
  simp

/-- A role is one. -/
theorem State.not_cell_of_member {s : State} (h : s.isS = true ∨ s.isC = true) : s.isK = false := by
  simp only [State.isS, State.isC, State.isK, decide_eq_true_eq, decide_eq_false_iff_not] at h ⊢
  rcases h with h | h
  · rw [h]; decide
  · rw [h]; decide

/-- The message of a cell is kept, and its acknowledgement waits for the next Down frame of the ring. -/
theorem State.mailReply_cell {s : State} {n : Nat} {f : Frame} (hinv : s.Inv) (hcell : isCellId (fSrc f) = true)
    (hlen : f.length = 22 + mLen f) (hle : mLen f ≤ 200) (hmay : s.poolMay 2 0 = true) (src arg : Nat) :
    Kept s ((s.mailReply n f).keep n 2 src arg f) n 2 f ∧ ((s.mailReply n f).keep n 2 src arg f).out = s.out ∧
      alGet ((s.mailReply n f).keep n 2 src arg f).azf.acks (fSrc f) 256 = byteAt f 12 := by
  have hreply : s.mailReply n f =
      { s with azf := { s.azf with acks := alPut s.azf.acks (fSrc f) (byteAt f 12) } } := by
    simp [State.mailReply, hcell]
  rw [hreply]
  obtain ⟨hkept, hout, hacks⟩ := State.keep_kept
    (s := { s with azf := { s.azf with acks := alPut s.azf.acks (fSrc f) (byteAt f 12) } })
    (lane := n) (cls := 2) (src := src) (arg := arg) (f := f) hinv (by omega) (by omega) hmay
  refine ⟨hkept.of_eq rfl rfl rfl rfl, hout, ?_⟩
  rw [hacks]
  exact alGet_alPut_self _ _ _ _

/-- The message of another node is kept, and acknowledged on the lane on which it came. -/
theorem State.mailReply_node {s : State} {n : Nat} {f : Frame} (hinv : s.Inv) (hk : s.isK = false) (ha : s.azfOn = true)
    (hn : s.laneOk n = true) (hfree : s.Free n) (heve : s.tickNs < s.eveNs) (hcell : isCellId (fSrc f) = false)
    (hlen : f.length = 22 + mLen f) (hle : mLen f ≤ 200) (hmay : s.poolMay 2 0 = true) (src arg : Nat) :
    Kept s ((s.mailReply n f).keep n 2 src arg f) n 2 f ∧
      ((s.mailReply n f).keep n 2 src arg f).out = ⟨n, s.ackFrame n (fSrc f) (byteAt f 12)⟩ :: s.out := by
  obtain ⟨hty, -⟩ := mailboxFrame_header s (fSrc f) (s.laneRing n) 0 (some (byteAt f 12)) []
  have hreply : s.mailReply n f =
      s.startTx n Option.none false true s.now10 0 (s.ackFrame n (fSrc f) (byteAt f 12)) := by
    rw [State.mailReply, hcell]
    exact State.launch_member hk ha (State.mayLaunch_before_eve heve) hn hfree (by rw [hty]; decide)
  rw [hreply]
  obtain ⟨hkept, hout, -⟩ := State.keep_kept
    (s := s.startTx n Option.none false true s.now10 0 (s.ackFrame n (fSrc f) (byteAt f 12)))
    (lane := n) (cls := 2) (src := src) (arg := arg) (f := f) hinv (by omega) (by omega) hmay
  exact ⟨hkept.of_eq rfl rfl rfl rfl, hout⟩

/-! ### Resends and Leaves -/

/-- A segment without acknowledgement for 3 ticks goes back to what was acknowledged last, and the resend is counted. -/
theorem State.mailboxResend_stalled {s : State} {r : Nat} {g : SegTx} (hseg : s.segOf r = some g) (hstall : 3 ≤ g.stall)
    (hres : g.resends < 8) :
    s.mailboxResend r = ({ s with azf := { s.azf with segTx := s.azf.segTx.filterMap (fun x =>
      if x = g then some { x with next := x.acked, stall := 0, resends := x.resends + 1 } else some x) } } : State).incSat
        R.AZF_MBX_MRETX := by
  simp only [State.mailboxResend, hseg, State.setSeg, if_neg (Nat.not_lt.mpr hstall), if_pos hres]

theorem answers_mailboxResend {s : State} {r : Fin 16} {g : SegTx} (hrun : s.phase = .run) (hact : s.actS = true)
    (hseg : s.segOf r = some g) :
    (3 ≤ g.stall → g.resends < 8 → Answers (.mailboxResend r) s (fun t =>
      OnlyFields [R.AZF_MBX_MRETX] { s with azf := t.azf } t ∧
      t.get R.AZF_MBX_MRETX = min (s.get R.AZF_MBX_MRETX + 1) (2 ^ R.AZF_MBX_MRETX.width - 1) ∧
      { g with next := g.acked, stall := 0, resends := g.resends + 1 } ∈ t.azf.segTx)) ∧
    (g.stall < 3 → Answers (.mailboxResend r) s (fun t => t = s)) := by
  have hexec : exec (.mailboxResend r) s = .next (live s (s.mailboxResend r)) := by
    show execMailboxResend r s = _
    rw [execMailboxResend, hact, State.when_true]
  refine ⟨fun hstall hres => ?_, fun hstall => ?_⟩
  · refine answers_live hexec hrun ?_
    rw [State.mailboxResend_stalled hseg hstall hres]
    refine ⟨onlyFields_incSat (by simp) (onlyFields_refl _ _), State.get_incSat_self _ _, ?_⟩
    refine List.mem_filterMap.mpr ⟨g, List.mem_of_find?_eq_some hseg, ?_⟩
    rw [if_pos rfl]
  · refine answers_live hexec hrun ?_
    simp [State.mailboxResend, hseg, hstall]

/-- The outbox with message `g` about to be sent again. -/
def State.outboxAgain (s : State) (g : MboxOut) : State :=
  { s with azf := { s.azf with
      outbox := s.azf.outbox.map (fun x => if x = g then { x with age := 0, resends := x.resends + 1 } else x) } }

/-- The Mailbox frame of a message that is sent again. -/
def State.frameAgain (s : State) (dst : Nat) (g : MboxOut) : Frame :=
  s.frame { s.hdr tyMailbox with dst := dst, ring := s.laneRing g.lane } (mailboxBody g.seq Option.none g.data)

/-- A message sent again leaves over its lane where that carries frames and the node may launch, and not otherwise. -/
theorem State.launchAgain {s : State} {d : Nat} {g : MboxOut} (ha : s.azfOn = true) (hk : s.isK = false)
    (hfree : s.laneOk g.lane = true → s.Free g.lane) :
    (s.outboxAgain g).launch g.lane (s.frameAgain d g) =
      if s.laneOk g.lane = true ∧ s.mayLaunch = true then
        (s.outboxAgain g).startTx g.lane Option.none false true s.now10 0 (s.frameAgain d g)
      else s.outboxAgain g := by
  obtain ⟨hty, -⟩ := mailboxFrame_header s d (s.laneRing g.lane) g.seq Option.none g.data
  split
  · rename_i h
    obtain ⟨hlane, hmay⟩ := h
    exact State.launch_member (s := s.outboxAgain g) hk ha hmay hlane (hfree hlane) (by rw [State.frameAgain, hty]; decide)
  · rename_i h
    have hoff : ((s.outboxAgain g).azfOn && (s.outboxAgain g).mayLaunch && (s.outboxAgain g).laneOk g.lane) = false := by
      refine Bool.eq_false_iff.mpr fun hon => h ?_
      simp only [Bool.and_eq_true] at hon
      obtain ⟨⟨-, hmay⟩, hlane⟩ := hon
      exact ⟨hlane, hmay⟩
    rw [State.launch, hoff]
    exact if_neg (by rw [State.not_unassigned (s := s.outboxAgain g) hk]; decide)

theorem answers_mailboxFrameResend {s : State} {d : Fin 16384} {g : MboxOut} (hrun : s.phase = .run) (ha : s.azfOn = true)
    (hk : s.isK = false) (hfind : s.azf.outbox.find? (fun x => x.dst == d.val && decide (4 ≤ x.age)) = some g) :
    (g.resends < 8 → (s.laneOk g.lane = true → s.Free g.lane) → Answers (.mailboxFrameResend d) s (fun t => t.mem = s.mem ∧
      KeepsFieldsBut [R.AZF_MBX_MRETX] s t ∧ { g with age := 0, resends := g.resends + 1 } ∈ t.azf.outbox ∧
      (s.laneOk g.lane = true → s.mayLaunch = true → ∃ h, t.out = ⟨g.lane, h⟩ :: s.out ∧ fType h = tyMailbox))) ∧
    (8 ≤ g.resends → Answers (.mailboxFrameResend d) s (fun t => OnlyFields [R.AZF_MBX_MFAIL] { s with azf := t.azf } t ∧
      t.azf.outbox = s.azf.outbox.erase g)) := by
  have hexec : exec (.mailboxFrameResend d) s = .next (live s (s.mailResend d)) := by
    show execMailboxFrameResend d s = _
    simp [execMailboxFrameResend, ha, hk]
  refine ⟨fun hres hfree => ?_, fun hres => ?_⟩
  · obtain ⟨hty, -⟩ := mailboxFrame_header s d (s.laneRing g.lane) g.seq Option.none g.data
    have hresend : s.mailResend d =
        ((s.outboxAgain g).launch g.lane (s.frameAgain d g)).incSat R.AZF_MBX_MRETX := by
      simp only [State.mailResend, hfind, if_pos hres]
      rfl
    have hkeeps : ∀ x : State, x.regs = s.regs → KeepsFieldsBut [R.AZF_MBX_MRETX] s (x.incSat R.AZF_MBX_MRETX) := by
      intro x hx f hf
      rw [State.incSat, State.addSat, State.get_put_ne _ _ _ _ (fun e => hf (by simp [e])), State.get, State.get, hx]
    have hmem : { g with age := 0, resends := g.resends + 1 } ∈ (s.outboxAgain g).azf.outbox :=
      List.mem_map.mpr ⟨g, List.mem_of_find?_eq_some hfind, if_pos rfl⟩
    refine answers_live hexec hrun ?_
    rw [hresend, State.launchAgain ha hk hfree]
    split
    · exact ⟨rfl, hkeeps _ rfl, hmem, fun _ _ => ⟨s.frameAgain d g, rfl, hty⟩⟩
    · rename_i h
      exact ⟨rfl, hkeeps _ rfl, hmem, fun hlane hmay => absurd ⟨hlane, hmay⟩ h⟩
  · refine answers_live hexec hrun ?_
    simp only [State.mailResend, hfind, if_neg (Nat.not_lt.mpr hres)]
    exact ⟨onlyFields_incSat (by simp) (onlyFields_refl _ _), rfl⟩

/-- The state that has sent cell `i` its Leave. -/
def State.leaveTold (s : State) (node i : Nat) : State :=
  ((s.setEnt i { s.ent i with leaveSent := true, leaveAgain := false }).sendMessage node [0x41]).put
    (R.RSE_FLG_LEAVE (armOf (i / 64))) 1

/-- The entry of a cell is named by the low bits of its NodeID. -/
theorem State.cellIdx_mod (s : State) {node i : Nat} (h : s.cellIdx node = some i) : node % 1024 = i := by
  unfold State.cellIdx at h
  split at h
  · exact Option.some.inj h
  · cases h

/-- A cell that has been sent a Leave is not sent another. -/
theorem State.leaveSend_told {s : State} {node i : Nat} (h : (s.ent i).leaveSent = true) (hi : node % 1024 = i) :
    s.leaveSend node = s := by
  unfold State.leaveSend
  split
  · rfl
  · rename_i j hj
    obtain rfl : i = j := hi.symm.trans (s.cellIdx_mod hj)
    simp [h]

theorem answers_leaveSend {s : State} {d : Fin 16384} {i : Nat} (hrun : s.phase = .run) (hact : s.actS = true)
    (hidx : s.cellIdx d = some i) (hconf : s.azf.conf.contains i = true) (hreach : s.reachable i = true)
    (hlim : s.get (R.RSE_LOST_LOSTLIM (armOf (i / 64))) ≠ 0)
    (hlost : s.get (R.RSE_LOST_LOSTLIM (armOf (i / 64))) ≤ (s.ent i).lost) (hsent : (s.ent i).leaveSent = false) :
    Answers (.leaveSend d) s (fun t =>
      t.azf.segTx = s.azf.segTx ++ [⟨d, (s.azf.mseq + 1) % 256, [0x41], 0, 0, 0, 0⟩] ∧ (t.ent i).leaveSent = true ∧
      OnlyFields [R.RSE_FLG_LEAVE (armOf (i / 64))] { s with azf := t.azf, rse := t.rse } t ∧
      Answers (.leaveSend d) t (fun u => u = t)) := by
  have hcond : (s.azf.conf.contains i && s.reachable i && s.get (R.RSE_LOST_LOSTLIM (armOf (i / 64))) != 0 &&
      ((s.ent i).leaveAgain || decide (s.get (R.RSE_LOST_LOSTLIM (armOf (i / 64))) ≤ (s.ent i).lost)) &&
      !(s.ent i).leaveSent) = true := by
    rw [hconf, hreach, hsent]
    simp [hlim, hlost]
  have hsend : s.leaveSend d = s.leaveTold d i := by
    simp only [State.leaveSend, hidx]
    exact if_pos hcond
  have hexec : exec (.leaveSend d) s = .next (live s (s.leaveTold d i)) := by
    show execLeaveSend d s = _
    rw [execLeaveSend, hact, State.when_true, hsend]
  have htold : ((s.leaveTold d i).ent i).leaveSent = true := by
    have hent : (s.leaveTold d i).ent i = { s.ent i with leaveSent := true, leaveAgain := false } :=
      alGet_alPut_self _ _ _ _
    rw [hent]
  refine answers_live hexec hrun ⟨rfl, htold, onlyFields_put (by simp) (onlyFields_refl _ _), ?_⟩
  refine answers_live (t := s.leaveTold d i) ?_ hrun rfl
  show execLeaveSend d (s.leaveTold d i) = _
  rw [execLeaveSend, State.leaveSend_told htold (s.cellIdx_mod hidx), State.when, ite_self]

/-! ### The statement -/

/-- Settles O45: a relay is `passOn`, which sends at once over a free transmitter and stores behind a busy one; a frame that is
kept takes one buffer, and everything else is a change of the frame unit's own lists. -/
theorem framesAreRelayedAndKept : Obligations.FramesAreRelayedAndKept := by
  unfold Obligations.FramesAreRelayedAndKept
  intro s n m f r d i hrun hinv
  refine ⟨fun ha hnm hn hm hlen => ?_, fun ha hknown => ?_, fun hdel hmine hsrc hcut hfirst => ?_,
    fun hdel hc hact hlen hsrc hfirst hmay => answers_reportReceive hinv hdel hc hact hlen hsrc hfirst hmay,
    fun hdel hmember hlen hpos hle hdst hsrc hack hmay heve => ?_, fun g hact hseg => answers_mailboxResend hrun hact hseg,
    fun g ha hk hfind => answers_mailboxFrameResend hrun ha hk hfind,
    fun hact hidx hconf hreach hlim hlost hsent => answers_leaveSend hrun hact hidx hconf hreach hlim hlost hsent⟩
  · have hnm' : n.val ≠ m.val := fun h => hnm (Fin.ext h)
    exact ⟨fun hact hk hfw => answers_frameRelay hrun hinv ha hnm' hn hm hlen hact hk hfw,
      fun hknown hfree => answers_unknownFrame hrun ha hnm' hn hm hlen hknown hfree⟩
  · refine answers_live (t := s) ?_ hrun rfl
    show execUnknownFrame n m f s = _
    simp [execUnknownFrame, hknown]
  · exact answers_trajectoryReceive hdel hmine hsrc hcut hfirst
  · obtain ⟨-, ha, hlane, -⟩ := id hdel
    have hexec := exec_mailboxFrameReceive hdel hmember hlen hle hdst hsrc hack
    refine ⟨fun hcell => answers_live hexec hrun (State.mailReply_cell hinv hcell hlen hle hmay _ _), fun hcell hfree => ?_⟩
    obtain ⟨hkept, hout⟩ := State.mailReply_node hinv (State.not_cell_of_member hmember) ha hlane hfree heve hcell hlen hle
      hmay (0x20 + n) (tyMailbox * 2 ^ 16)
    obtain ⟨hty, hto, hseq, hbit⟩ := mailboxFrame_header s (fSrc f) (s.laneRing n) 0 (some (byteAt f 12)) []
    refine answers_live hexec hrun ⟨hkept, _, hout, hty, hto.trans (Nat.mod_mod _ _), hseq.trans ?_, ?_⟩
    · exact Nat.mod_eq_of_lt (byteAt_lt f 12)
    · rw [State.ackFrame, hbit, Option.isSome_some]
      decide

end Sys2Proof.Machine
end

/-! O42, first part: an event keeps FCU.TIME and the sticky bits. -/

section
namespace Sys2Proof.Machine

/-! ### What an event at the FCU or the dispatcher keeps of the FCU -/

/-- FCU.TIME stands, and no sticky bit of the sources 0 to 31 is cleared. -/
structure KeepsSticky (s t : State) : Prop where
  time : t.fcu.timeNs = s.fcu.timeNs
  bits : ∀ k < 32, s.bit (R.FCU_STK_STK 0) k = true → t.bit (R.FCU_STK_STK 0) k = true

theorem keepsSticky_refl (s : State) : KeepsSticky s s := ⟨rfl, fun _ _ h => h⟩

theorem keepsSticky_trans {s t u : State} (h : KeepsSticky s t) (k : KeepsSticky t u) : KeepsSticky s u :=
  ⟨k.time.trans h.time, fun b hb hs => k.bits b hb (h.bits b hb hs)⟩

/-- An update of neither. -/
theorem keepsSticky_of_eq {s t : State} (htime : t.fcu.timeNs = s.fcu.timeNs) (hregs : t.regs = s.regs) : KeepsSticky s t :=
  ⟨htime, fun k _ h => by rw [State.bit, State.get, hregs]; exact h⟩

/-- Another field put. -/
theorem keepsSticky_put (s : State) {f : Fld} (v : Nat) (hf : f.key ≠ (R.FCU_STK_STK 0).key) : KeepsSticky s (s.put f v) :=
  ⟨rfl, fun k _ h => by rw [State.bit, State.get_put_ne _ _ _ _ hf]; exact h⟩

theorem keepsSticky_when {s t : State} {b : Bool} (h : KeepsSticky s t) : KeepsSticky s (s.when b t) := by
  unfold State.when
  split
  · exact h
  · exact keepsSticky_refl s

/-- A bit that is clear is added without a carry. -/
theorem testBit_add_two_pow_ne {v k n : Nat} (hn : v.testBit n = false) (hk : k ≠ n) :
    (v + 2 ^ n).testBit k = v.testBit k := by
  induction n generalizing v k with
  | zero =>
    have heven : v % 2 = 0 := by simpa using hn
    obtain ⟨k, rfl⟩ : ∃ j, k = j + 1 := ⟨k - 1, by omega⟩
    rw [Nat.testBit_add_one, Nat.testBit_add_one]
    congr 1
    omega
  | succ n ih =>
    have hdiv : (v + 2 ^ (n + 1)) / 2 = v / 2 + 2 ^ n := by omega
    rw [Nat.testBit_add_one] at hn
    cases k with
    | zero =>
      simp only [Nat.testBit_zero]
      congr 1
      exact propext ⟨fun h => by omega, fun h => by omega⟩
    | succ k => rw [Nat.testBit_add_one, Nat.testBit_add_one, hdiv, ih hn (by omega)]

theorem bitOf_eq_testBit (v n : Nat) : bitOf v n = v.testBit n := by
  rw [bitOf, Nat.testBit_eq_decide_div_mod_eq]

/-- A bit set reads 1, and every other bit as before. -/
theorem bitOf_setBitN (v n k : Nat) : bitOf (setBitN v n) k = (decide (k = n) || bitOf v k) := by
  unfold setBitN
  by_cases hn : bitOf v n = true
  · rw [if_pos hn]
    by_cases hk : k = n
    · rw [hk, hn]
      simp
    · simp [hk]
  · have hclear : v.testBit n = false := by simpa [bitOf_eq_testBit] using hn
    rw [if_neg hn, bitOf_eq_testBit, bitOf_eq_testBit]
    by_cases hk : k = n
    · subst hk
      rw [Nat.add_comm, Nat.testBit_two_pow_add_eq, hclear]
      simp
    · simp [hk, testBit_add_two_pow_ne hclear hk]

/-- Bit `k` of a 32-bit field reads 1 once it is set, and so does every bit that read 1 before. -/
theorem State.bit_putBit {s : State} {f : Fld} {k n : Nat} (hf : f.width = 32) (hk : k < 32)
    (h : k = n ∨ s.bit f k = true) : (s.putBit f n true).bit f k = true := by
  have hset : bitOf (setBitN (s.get f) n) k = true := by
    rw [bitOf_setBitN, Bool.or_eq_true, decide_eq_true_eq]
    exact h
  rw [State.bit, State.putBit, if_pos rfl, State.get_put_self, hf, bitOf_eq_testBit, Nat.testBit_mod_two_pow,
    ← bitOf_eq_testBit, hset]
  simpa using hk

/-! ### The chain of an event -/

theorem dsxIssueCore_keepsSticky (s : State) (n a : Nat) : KeepsSticky s (s.dsxIssueCore n a).1 := by
  have hsrc : ∀ x : State, KeepsSticky x (x.put (R.DSX_SRC_DROPF n) 1) :=
    fun x => keepsSticky_put x 1 (by simp only [R.DSX_SRC_DROPF, R.FCU_STK_STK, fld]; omega)
  have hdrop : KeepsSticky s ((s.incSat R.DSX_DROP_POOL).put (R.DSX_SRC_DROPF n) 1) :=
    keepsSticky_trans (keepsSticky_put s _ (by decide)) (hsrc _)
  unfold State.dsxIssueCore
  split
  · exact keepsSticky_refl s
  · split
    · exact hdrop
    · split
      · exact hsrc s
      · split
        · exact keepsSticky_of_eq rfl rfl
        · split
          · exact hdrop
          · refine keepsSticky_trans ?_ (keepsSticky_when (keepsSticky_put _ _ (by decide)))
            exact keepsSticky_of_eq rfl rfl

theorem fcuLog_keepsSticky (s : State) (a b c d : Nat) : KeepsSticky s (s.fcuLog a b c d) := by
  have hlog : ∀ l v, KeepsSticky s (({ s with fcu := { s.fcu with log := l } } : State).put R.FCU_LOGWR_IDX v) := fun l v =>
    keepsSticky_trans (keepsSticky_of_eq rfl rfl : KeepsSticky s { s with fcu := { s.fcu with log := l } })
      (keepsSticky_put _ _ (by decide))
  simp only [State.fcuLog]
  split
  · exact keepsSticky_trans (hlog _ _) (keepsSticky_trans (keepsSticky_put _ _ (by decide)) (keepsSticky_put _ _ (by decide)))
  · exact keepsSticky_trans (hlog _ _) (keepsSticky_put _ _ (by decide))

theorem putSticky_keepsSticky (s : State) (n : Nat) : KeepsSticky s (s.putBit (R.FCU_STK_STK (n / 32)) (n % 32) true) := by
  by_cases hn : n / 32 = 0
  · rw [hn]
    exact ⟨rfl, fun k hk h => State.bit_putBit rfl hk (.inr h)⟩
  · exact keepsSticky_put s _ (by simp only [R.FCU_STK_STK, fld]; omega)

/-- What an event of a defined source does after its sticky bit is set. -/
theorem fcuEventCore_keepsSticky_put (s : State) {n : Nat} (hd : fcuIsDefined n = true) :
    KeepsSticky (s.putBit (R.FCU_STK_STK (n / 32)) (n % 32) true) (s.fcuEventCore n).1 := by
  have hsst : ∀ (x : State) v, KeepsSticky x (x.put (R.FCU_SST_STATE n) v) :=
    fun x v => keepsSticky_put x v (by simp only [R.FCU_SST_STATE, R.FCU_STK_STK, fld]; omega)
  have hsrc : ∀ (x : State) y, KeepsSticky x (x.setFcuSrc n y) := fun _ _ => keepsSticky_of_eq rfl rfl
  unfold State.fcuEventCore
  rw [if_neg (by simp [hd])]
  dsimp only
  split
  · exact keepsSticky_refl _
  · split
    · exact keepsSticky_refl _
    · exact hsrc _ _
    · split
      · refine keepsSticky_trans ?_ (fcuLog_keepsSticky _ _ _ _ _)
        exact keepsSticky_trans (keepsSticky_trans (hsrc _ _) (hsst _ _)) (keepsSticky_of_eq rfl rfl)
      · exact keepsSticky_trans (hsrc _ _) (hsst _ _)

theorem fcuEventCore_keepsSticky (s : State) (n : Nat) : KeepsSticky s (s.fcuEventCore n).1 := by
  by_cases hd : fcuIsDefined n = true
  · exact keepsSticky_trans (putSticky_keepsSticky s n) (fcuEventCore_keepsSticky_put s hd)
  · rw [State.fcuEventCore, if_pos (by simpa using hd)]
    exact keepsSticky_refl s

theorem leave_keepsSticky (s : State) : KeepsSticky s s.leave := by
  have h : KeepsSticky s { s with cell := { s.cell with leavePend := true } } := keepsSticky_of_eq rfl rfl
  unfold State.leave
  split
  · exact keepsSticky_refl s
  · refine keepsSticky_trans h (keepsSticky_when ?_)
    exact keepsSticky_trans (keepsSticky_trans (keepsSticky_put _ _ (by decide)) (keepsSticky_put _ _ (by decide)))
      (keepsSticky_put _ _ (by decide))

theorem fcuAct_keepsSticky (s : State) (r : Nat) : KeepsSticky s (s.fcuAct r) := by
  have hyield : KeepsSticky s s.fcuYield := keepsSticky_when (keepsSticky_of_eq rfl rfl)
  unfold State.fcuAct
  split
  · exact hyield
  · split
    · exact leave_keepsSticky s
    · exact hyield
  · exact keepsSticky_of_eq rfl rfl
  · exact keepsSticky_refl s

/-- What a step of an event does after the source's own state: its reaction keeps the sticky bits. -/
theorem fcuStep_keepsSticky_core (s : State) (n : Nat) : KeepsSticky (s.fcuEventCore n).1 (s.fcuStep n).1 := by
  unfold State.fcuStep
  generalize s.fcuEventCore n = p
  obtain ⟨t, r⟩ := p
  dsimp only
  split
  · exact keepsSticky_refl t
  · have hreact : KeepsSticky t { t with fcu := { t.fcu with reacted := n :: t.fcu.reacted } } := keepsSticky_of_eq rfl rfl
    generalize hu : (if ({ t with fcu := { t.fcu with reacted := n :: t.fcu.reacted } } : State).on (R.FCU_SCFG_GATE n) then
      ({ t with fcu := { t.fcu with reacted := n :: t.fcu.reacted } } : State).redHalt
      else { t with fcu := { t.fcu with reacted := n :: t.fcu.reacted } }) = u
    have hgate : KeepsSticky t u := by
      subst hu
      split
      · exact keepsSticky_trans hreact (keepsSticky_when (keepsSticky_put _ _ (by decide)))
      · exact hreact
    split
    · exact hgate
    · have hissue := dsxIssueCore_keepsSticky u 0x40 n
      generalize u.dsxIssueCore 0x40 n = q at *
      obtain ⟨v, full⟩ := q
      exact keepsSticky_trans hgate (keepsSticky_trans hissue (fcuAct_keepsSticky _ _))

theorem fcuStep_keepsSticky (s : State) (n : Nat) : KeepsSticky s (s.fcuStep n).1 :=
  keepsSticky_trans (fcuEventCore_keepsSticky s n) (fcuStep_keepsSticky_core s n)

/-- An event is its step, or its step and one of the dispatch-overflow source. -/
theorem fcuEvent_keepsSticky_step (s : State) (n : Nat) : KeepsSticky (s.fcuStep n).1 (s.fcuEvent n) := by
  unfold State.fcuEvent
  generalize s.fcuStep n = p
  obtain ⟨t, full⟩ := p
  dsimp only
  split
  · exact fcuStep_keepsSticky t 8
  · exact keepsSticky_refl t

theorem fcuEvent_keepsSticky (s : State) (n : Nat) : KeepsSticky s (s.fcuEvent n) :=
  keepsSticky_trans (fcuStep_keepsSticky s n) (fcuEvent_keepsSticky_step s n)

/-- After an event of a defined source below 32 its sticky bit reads 1 (R331). -/
theorem fcuEvent_sticky (s : State) {n : Nat} (hn : n < 32) (hd : fcuIsDefined n = true) :
    (s.fcuEvent n).bit (R.FCU_STK_STK 0) n = true := by
  have hcore : (s.fcuEventCore n).1.bit (R.FCU_STK_STK 0) n = true := by
    have hput := State.bit_putBit (s := s) (f := R.FCU_STK_STK 0) rfl hn (.inl rfl)
    have hstk := fcuEventCore_keepsSticky_put s hd
    rw [Nat.div_eq_of_lt hn, Nat.mod_eq_of_lt hn] at hstk
    exact hstk.bits n hn hput
  exact (fcuEvent_keepsSticky_step s n).bits n hn ((fcuStep_keepsSticky_core s n).bits n hn hcore)

end Sys2Proof.Machine
end

/-! O42, second part: what putting a frame of the node's own on a lane leaves alone. -/

section
namespace Sys2Proof.Machine

/-! ### Memory in any form -/

/-- The first listed address from `a` on is `a` itself, so that no address below it is looked for any further. -/
def Memory.Fenced (a : Nat) : List Host.Cell → Prop
  | [] => False
  | c :: t => c.1 = a ∨ (c.1 < a ∧ Memory.Fenced a t)

/-- An address reads the same after a write to one below it. -/
theorem Memory.read_write_above (d : Byte) (m : List Host.Cell) {a x : Nat} (b : Byte) (hx : a < x) :
    Memory.read d (Memory.write d m a b) x = Memory.read d m x := by
  have hnew : ∀ t, Memory.read d ((a, b) :: t) x = Memory.read d t x := fun t => by
    rw [Memory.read, if_neg (by simp; omega), if_neg (by simp; omega)]
  induction m with
  | nil =>
    rw [Memory.write]
    split
    · rfl
    · exact hnew []
  | cons c t ih =>
    have hskip : c.1 = a → Memory.read d (c :: t) x = Memory.read d t x := fun h => by
      rw [Memory.read, if_neg (by omega), if_neg (by omega)]
    rw [Memory.write]
    split
    · split
      · rfl
      · exact hnew _
    · split
      · rename_i h
        rw [hskip h.symm]
        split
        · rfl
        · exact hnew _
      · rw [Memory.read, Memory.read, ih]

/-- A byte other than 0 fences its address, and changes nothing below. -/
theorem Memory.write_fenced (m : List Host.Cell) (a : Nat) {b : Byte} (hb : b ≠ 0) :
    Memory.Fenced a (Memory.write 0 m a b) ∧
      ∀ x < a, Memory.read 0 (Memory.write 0 m a b) x = Memory.read 0 m x := by
  have hzero : ∀ t, ∀ x < a, Memory.read 0 ((a, b) :: t) x = 0 := fun t x hx => by
    rw [Memory.read, if_neg (by simp; omega), if_pos (by simpa using hx)]
  induction m with
  | nil =>
    rw [Memory.write, if_neg hb]
    exact ⟨.inl rfl, fun x hx => hzero [] x hx⟩
  | cons c t ih =>
    have hread : ∀ x, a ≤ c.1 → x < a → Memory.read 0 (c :: t) x = 0 := fun x h hx => by
      rw [Memory.read, if_neg (by omega), if_pos (by omega)]
    obtain ⟨hfence, hsame⟩ := ih
    rw [Memory.write]
    split
    · rename_i h
      exact ⟨.inl rfl, fun x hx => (hzero _ x hx).trans (hread x (by omega) hx).symm⟩
    · split
      · rename_i h
        exact ⟨.inl rfl, fun x hx => (hzero _ x hx).trans (hread x (by omega) hx).symm⟩
      · refine ⟨.inr ⟨by omega, hfence⟩, fun x hx => ?_⟩
        rw [Memory.read, Memory.read, hsame x hx]

/-- Behind a fence a write changes nothing before it. -/
theorem Memory.Fenced.write {m : List Host.Cell} {a w : Nat} (h : Memory.Fenced a m) (hw : a < w) (b : Byte) :
    Memory.Fenced a (Memory.write 0 m w b) ∧
      ∀ x < a, Memory.read 0 (Memory.write 0 m w b) x = Memory.read 0 m x := by
  induction m with
  | nil => exact h.elim
  | cons c t ih =>
    rw [Memory.write, if_neg, if_neg]
    · rcases h with h | ⟨h, ht⟩
      · refine ⟨.inl h, fun x hx => ?_⟩
        rw [Memory.read, Memory.read, if_neg (by omega), if_pos (by omega), if_neg (by omega), if_pos (by omega)]
      · obtain ⟨hfence, hsame⟩ := ih ht
        refine ⟨.inr ⟨h, hfence⟩, fun x hx => ?_⟩
        rw [Memory.read, Memory.read, hsame x hx]
    · rcases h with h | ⟨h, -⟩ <;> omega
    · rcases h with h | ⟨h, -⟩ <;> omega

/-- Bytes written behind a fence leave every address before it and after them alone. -/
theorem Memory.Fenced.read_writeBytes {m : List Host.Cell} {a w x : Nat} (h : Memory.Fenced a m) (hw : a < w) (l : List Byte)
    (hx : x < a ∨ w + l.length ≤ x) : Memory.read 0 (Memory.writeBytes 0 m w l) x = Memory.read 0 m x := by
  induction l generalizing m w with
  | nil => rfl
  | cons b t ih =>
    obtain ⟨hfence, hsame⟩ := h.write hw b
    rw [List.length_cons] at hx
    rw [Memory.writeBytes, ih hfence (by omega) (by omega)]
    rcases hx with hx | hx
    · exact hsame x hx
    · exact Memory.read_write_above 0 m b (by omega)

/-- Bytes of which the first is not 0 leave every address outside them alone, in whatever form the memory is. -/
theorem Memory.read_writeBytes_headed (m : List Host.Cell) {a x : Nat} {b : Byte} (l : List Byte) (hb : b ≠ 0)
    (hx : x < a ∨ a + (b :: l).length ≤ x) : Memory.read 0 (Memory.writeBytes 0 m a (b :: l)) x = Memory.read 0 m x := by
  obtain ⟨hfence, hsame⟩ := Memory.write_fenced m a hb
  rw [List.length_cons] at hx
  rw [Memory.writeBytes, hfence.read_writeBytes (by omega) l (by omega)]
  rcases hx with hx | hx
  · exact hsame x hx
  · exact Memory.read_write_above 0 m b (by omega)

/-! ### What sending leaves alone -/

/-- The register fields that show how the Frame Pool stands. -/
def poolFields : List Fld :=
  [R.AZF_POOLSTA_FREE, R.AZF_POOLSTA_MINFREE, R.AZF_DROP_TLM, R.AZF_DROP_MBX, R.AZF_DROPC_TRUNC, R.AZF_DROPC_CTL]

/-- The register fields that a Section's commands can change: those of an event, of page RSE and of the pool. -/
def sendKey (k : Nat) : Bool :=
  faultKey k || decide (0x20000 * 15 ≤ k ∧ k < 0x20000 * 16) || (poolFields.map Fld.key).contains k

/-- `t` is `s` after a Section has accounted its cells and put frames on the lanes of `P`: every other lane, the configured map,
memory outside the Frame Pool and the time are as before, and so is which arms have been served. -/
structure Sends (P : Nat → Prop) (s t : State) : Prop where
  rest : { t with
    regs := s.regs, dsx := s.dsx, fcu := s.fcu, alm := s.alm, red := s.red, cell := s.cell, azf := s.azf, lanes := s.lanes
    out := s.out, mem := s.mem, freeCtr := s.freeCtr, rse := s.rse } = s
  get : ∀ g : Fld, sendKey g.key = false → t.get g = s.get g
  time : t.fcu.timeNs = s.fcu.timeNs
  mem : ∀ x, x < 0x44000000 ∨ 0x44400000 ≤ x → Memory.read 0 t.mem x = Memory.read 0 s.mem x
  pres : ∀ i, (t.ent i).pres = (s.ent i).pres
  marks : t.rse.downs = s.rse.downs ∧ t.rse.reps = s.rse.reps
  lane : ∀ l, ¬ P l → t.lane l = s.lane l
  queue : ∀ q ∈ t.azf.queue, P q.lane ∨ q ∈ s.azf.queue
  out : ∀ l f, ¬ P l → ⟨l, f⟩ ∈ s.out → ⟨l, f⟩ ∈ t.out

section
variable {P : Nat → Prop}

theorem sends_refl (s : State) : Sends P s s where
  rest := rfl
  get _ _ := rfl
  time := rfl
  mem _ _ := rfl
  pres _ := rfl
  marks := ⟨rfl, rfl⟩
  lane _ _ := rfl
  queue _ hq := .inr hq
  out _ _ _ h := h

theorem sends_trans {s t u : State} (h : Sends P s t) (k : Sends P t u) : Sends P s u where
  rest := (congrArg (fun x : State => { x with
    regs := s.regs, dsx := s.dsx, fcu := s.fcu, alm := s.alm, red := s.red, cell := s.cell, azf := s.azf, lanes := s.lanes
    out := s.out, mem := s.mem, freeCtr := s.freeCtr, rse := s.rse }) k.rest :).trans h.rest
  get g hg := (k.get g hg).trans (h.get g hg)
  time := k.time.trans h.time
  mem x hx := (k.mem x hx).trans (h.mem x hx)
  pres i := (k.pres i).trans (h.pres i)
  marks := by
    obtain ⟨hdowns, hreps⟩ := h.marks
    obtain ⟨kdowns, kreps⟩ := k.marks
    exact ⟨kdowns.trans hdowns, kreps.trans hreps⟩
  lane l hl := (k.lane l hl).trans (h.lane l hl)
  queue q hq := (k.queue q hq).elim .inl (h.queue q)
  out l f hl hf := k.out l f hl (h.out l f hl hf)

/-- An event at the FCU or the dispatcher sends nothing. -/
theorem sends_fault {s t : State} (h : FaultFrame s t) (k : KeepsSticky s t) : Sends P s t := by
  have hmem : t.mem = s.mem := (congrArg State.mem h.rest :)
  have hrse : t.rse = s.rse := (congrArg State.rse h.rest :)
  have hlanes : t.lanes = s.lanes := (congrArg State.lanes h.rest :)
  have hazf : t.azf = s.azf := (congrArg State.azf h.rest :)
  have hout : t.out = s.out := (congrArg State.out h.rest :)
  refine ⟨?_, fun g hg => h.get g ?_, k.time, fun x _ => by rw [hmem], fun i => by rw [State.ent, hrse, State.ent],
    by rw [hrse]; exact ⟨rfl, rfl⟩, fun l _ => by rw [State.lane, hlanes, State.lane], fun q hq => .inr (hazf ▸ hq),
    fun l f _ hf => hout ▸ hf⟩
  · exact (congrArg (fun x : State => { x with
      azf := s.azf, lanes := s.lanes, out := s.out, mem := s.mem, freeCtr := s.freeCtr, rse := s.rse }) h.rest :)
  · simp only [sendKey, Bool.or_eq_false_iff] at hg
    obtain ⟨⟨hg, -⟩, -⟩ := hg
    exact hg

theorem sends_fcuEvent (s : State) (n : Nat) : Sends P s (s.fcuEvent n) :=
  sends_fault (fcuEvent_frame s n) (fcuEvent_keepsSticky s n)

/-- A field that a Section's commands may change is put. -/
theorem sends_put (s : State) {f : Fld} (v : Nat) (hf : sendKey f.key = true) : Sends P s (s.put f v) where
  rest := rfl
  get g hg := State.get_put_ne _ _ _ _ (fun e => by rw [e, hg] at hf; cases hf)
  time := rfl
  mem _ _ := rfl
  pres _ := rfl
  marks := ⟨rfl, rfl⟩
  lane _ _ := rfl
  queue _ hq := .inr hq
  out _ _ _ h := h

theorem sends_incSat (s : State) {f : Fld} (hf : sendKey f.key = true) : Sends P s (s.incSat f) := sends_put s _ hf

/-- The records of the frame unit and of the Section's account are replaced. -/
theorem sends_records (s : State) {a : AzfState} {r : RseState} {c : Nat} (hq : ∀ q ∈ a.queue, P q.lane ∨ q ∈ s.azf.queue)
    (hpres : ∀ i, (alGet r.cells i CellEnt.init).pres = (s.ent i).pres) (hdowns : r.downs = s.rse.downs)
    (hreps : r.reps = s.rse.reps) : Sends P s { s with azf := a, rse := r, freeCtr := c } where
  rest := rfl
  get _ _ := rfl
  time := rfl
  mem _ _ := rfl
  pres := hpres
  marks := ⟨hdowns, hreps⟩
  lane _ _ := rfl
  queue := hq
  out _ _ _ h := h

/-- The frame unit's record is replaced, its queue shorter or longer by frames for the lanes of `P`. -/
theorem sends_azf (s : State) {a : AzfState} (hq : ∀ q ∈ a.queue, P q.lane ∨ q ∈ s.azf.queue) :
    Sends P s { s with azf := a } :=
  sends_records (c := s.freeCtr) (r := s.rse) s hq (fun _ => rfl) rfl rfl

theorem sends_fresh (s : State) (w : Nat) : Sends P s (s.fresh w).2 :=
  sends_records (a := s.azf) (r := s.rse) s (fun _ hq => .inr hq) (fun _ => rfl) rfl rfl

/-- Another record of an arm. -/
theorem sends_setInst (s : State) (a : Nat) (x : RseInst) : Sends P s (s.setInst a x) :=
  sends_records (a := s.azf) (c := s.freeCtr) s (fun _ hq => .inr hq) (fun _ => rfl) rfl rfl

/-- An entry of the cell table that says the same of the map. -/
theorem sends_setEnt (s : State) {i : Nat} {e : CellEnt} (he : e.pres = (s.ent i).pres) : Sends P s (s.setEnt i e) := by
  refine sends_records (a := s.azf) (c := s.freeCtr) s (fun _ hq => .inr hq) (fun j => ?_) rfl rfl
  by_cases hj : i = j
  · subst hj
    rw [alGet_alPut_self, he]
  · rw [alGet_alPut_ne _ _ _ _ _ hj]
    rfl

theorem sends_forEach {α : Type} {f : α → State → State} {l : List α} {s : State} (h : ∀ a ∈ l, ∀ x, Sends P x (f a x)) :
    Sends P s (forEach l f s) := by
  induction l generalizing s with
  | nil => exact sends_refl s
  | cons a t ih =>
    exact sends_trans (h a (by simp) s) (ih fun b hb => h b (by simp [hb]))

theorem sends_when {s t : State} {b : Bool} (h : Sends P s t) : Sends P s (s.when b t) := by
  unfold State.when
  split
  · exact h
  · exact sends_refl s

/-! ### The Frame Pool -/

/-- A frame of this node's own that one buffer holds: its first byte, which names the version, is not 0. -/
def OneBuffer (f : Frame) : Prop := ∃ b l, f = b :: l ∧ b ≠ 0 ∧ f.length ≤ 256

theorem sends_poolCount (s : State) : Sends P s s.poolCount :=
  sends_trans (sends_put s _ (by decide)) (sends_put _ _ (by decide))

theorem sends_poolDropNewest {s t : State} {cls : Nat} (h : s.poolDropNewest cls = some t) : Sends P s t := by
  unfold State.poolDropNewest at h
  split at h
  · cases h
  · rename_i q hq
    have hdrop : Sends P s ({ s with azf := { s.azf with queue := (s.azf.queue.reverse.erase q).reverse } } : State).poolCount := by
      refine sends_trans (sends_azf s fun x hx => .inr ?_) (sends_poolCount _)
      exact List.mem_reverse.mp (List.mem_of_mem_erase (List.mem_reverse.mp hx))
    obtain rfl := Option.some.inj h
    dsimp only
    split
    · exact sends_trans hdrop (sends_put _ _ (by decide))
    · exact sends_trans hdrop (sends_put _ _ (by decide))

theorem sends_poolRoom {s t : State} {cls : Nat} (h : s.poolRoom cls = some t) : Sends P s t := by
  unfold State.poolRoom at h
  split at h
  · cases h
  · exact sends_poolDropNewest h
  · split at h
    · rename_i u hu
      obtain rfl := Option.some.inj h
      exact sends_poolDropNewest hu
    · exact sends_poolDropNewest h

theorem sends_poolAsk (s : State) (cls k fuel : Nat) : Sends P s (s.poolAsk cls k fuel).1 := by
  induction fuel generalizing s with
  | zero => exact sends_refl s
  | succ fuel ih =>
    rw [State.poolAsk]
    split
    · exact sends_refl s
    · split
      · exact sends_refl s
      · rename_i t ht
        exact sends_trans (sends_poolRoom ht) (ih t)

/-- A frame that is refused a buffer is counted by its class. -/
theorem sends_poolAskAll (s : State) (cls k n : Nat) : Sends P s (s.poolAskAll cls k n).1 := by
  induction n generalizing s k with
  | zero => exact sends_refl s
  | succ n ih =>
    rw [State.poolAskAll]
    have hask := sends_poolAsk (P := P) s cls k (s.azf.queue.length + 1)
    generalize s.poolAsk cls k (s.azf.queue.length + 1) = p at *
    obtain ⟨t, ok⟩ := p
    dsimp only at *
    split
    · have htrunc : Sends P s (if k = 0 then t else t.incSat R.AZF_DROPC_TRUNC) := by
        split
        · exact hask
        · exact sends_trans hask (sends_put _ _ (by decide))
      split
      · exact sends_trans htrunc (sends_put _ _ (by decide))
      · exact sends_trans htrunc (sends_put _ _ (by decide))
      · dsimp only
        exact sends_trans htrunc (sends_trans (sends_incSat _ (f := R.AZF_DROPC_CTL) (by decide)) (sends_fcuEvent _ _))
    · exact sends_trans hask (ih _ _)

/-- Bytes of one buffer written into the pool. -/
theorem sends_setMem (s : State) {f : Frame} (hf : OneBuffer f) {b : Nat} (hb : b < 16384) :
    Sends P s (s.setMem (0x44000000 + 256 * b) f) where
  rest := rfl
  get _ _ := rfl
  time := rfl
  mem x hx := by
    obtain ⟨c, l, rfl, hc, hlen⟩ := hf
    exact Memory.read_writeBytes_headed s.mem l hc (by omega)
  pres _ := rfl
  marks := ⟨rfl, rfl⟩
  lane _ _ := rfl
  queue _ hq := .inr hq
  out _ _ _ h := h

theorem sends_poolStore (s : State) (cls : Nat) {f : Frame} (hf : OneBuffer f) : Sends P s (s.poolStore cls f).1 := by
  have hone : (f.length + 255) / 256 = 1 := by
    obtain ⟨c, l, rfl, -, hlen⟩ := hf
    rw [List.length_cons] at hlen ⊢
    omega
  have hlen : f.length ≤ 256 := by
    obtain ⟨c, l, -, -, hlen⟩ := hf
    exact hlen
  have hask := sends_poolAskAll (P := P) s cls 0 1
  rw [State.poolStore, hone, State.poolTake]
  generalize s.poolAskAll cls 0 1 = p at *
  obtain ⟨t, k⟩ := p
  dsimp only at *
  split
  · rename_i heq
    split at heq
    · obtain rfl := congrArg Prod.fst heq
      exact hask
    · cases heq
  · rename_i u l heq
    split at heq
    · cases heq
    · obtain ⟨rfl, hl⟩ := Prod.mk.inj heq
      obtain rfl := Except.ok.inj hl
      have hlt := pickRun_lt (t.fresh 14).2.poolUsed 1 (t.fresh 14).1 16384
      have hrun : bufRun (pickRun (t.fresh 14).2.poolUsed 1 (t.fresh 14).1 16384) 1 =
          [pickRun (t.fresh 14).2.poolUsed 1 (t.fresh 14).1 16384] := by
        simp [bufRun, Nat.mod_eq_of_lt hlt]
      rw [hrun]
      dsimp only [State.poolFill]
      rw [List.take_of_length_le hlen]
      exact sends_trans hask (sends_trans (sends_fresh t 14) (sends_setMem _ hf hlt))

/-- What stands in a queue into which an entry is put. -/
theorem mem_queueIn {q x : Queued} {l : List Queued} (h : x ∈ queueIn q l) : x = q ∨ x ∈ l := by
  induction l with
  | nil => simpa [queueIn] using h
  | cons y t ih =>
    rw [queueIn] at h
    split at h
    · simpa using h
    · rcases List.mem_cons.mp h with h | h
      · exact .inr (by simp [h])
      · exact (ih h).imp_right (List.mem_cons_of_mem y)

theorem sends_queued (s : State) {q : Queued} (hq : P q.lane) : Sends P s (s.queued q) := by
  refine sends_trans (sends_azf s fun x hx => ?_) (sends_poolCount _)
  rcases mem_queueIn hx with rfl | hx
  · exact .inl hq
  · exact .inr hx

theorem sends_enqueue (s : State) {q : Queued} (hq : P q.lane) (hf : OneBuffer q.f) : Sends P s (s.enqueue q) := by
  have hstore := sends_poolStore (P := P) s q.cls hf
  unfold State.enqueue
  generalize s.poolStore q.cls q.f = p at *
  obtain ⟨t, r⟩ := p
  cases r with
  | ok l => exact sends_trans hstore (sends_queued t hq)
  | error k => exact sends_trans hstore (sends_when (sends_queued t hq))

/-! ### The transmitters -/

/-- A record of lane `n`. -/
theorem sends_setLane (s : State) {n : Nat} (hn : P n) (l : LaneState) : Sends P s (s.setLane n l) where
  rest := rfl
  get _ _ := rfl
  time := rfl
  mem _ _ := rfl
  pres _ := rfl
  marks := ⟨rfl, rfl⟩
  lane _ hm := State.lane_setLane_ne _ _ _ _ fun e => hm (e ▸ hn)
  queue _ hq := .inr hq
  out _ _ _ h := h

/-- What has been sent on the other lanes stands. -/
theorem sends_out (s : State) {l : List Sent} (hl : ∀ n f, ¬ P n → ⟨n, f⟩ ∈ s.out → ⟨n, f⟩ ∈ l) :
    Sends P s { s with out := l } where
  rest := rfl
  get _ _ := rfl
  time := rfl
  mem _ _ := rfl
  pres _ := rfl
  marks := ⟨rfl, rfl⟩
  lane _ _ := rfl
  queue _ hq := .inr hq
  out := hl

theorem sends_startTx (s : State) {n : Nat} (hn : P n) (src : Option Nat) (app own : Bool) (t0 whole : Nat) (f : Frame) :
    Sends P s (s.startTx n src app own t0 whole f) := by
  unfold State.startTx
  exact sends_trans (sends_setLane s hn _) (sends_out _ fun _ _ _ h => List.mem_cons_of_mem _ h)

/-- A frame cut off on lane `n` leaves what other lanes have sent. -/
theorem mem_cutOut {n k m : Nat} {f : Frame} {l : List Sent} (hm : m ≠ n) (h : ⟨m, f⟩ ∈ l) : ⟨m, f⟩ ∈ cutOut n k l := by
  induction l with
  | nil => cases h
  | cons x t ih =>
    rw [cutOut]
    rcases List.mem_cons.mp h with rfl | h
    · rw [if_neg hm]
      exact List.mem_cons_self
    · split
      · split
        · exact h
        · exact List.mem_cons_of_mem _ h
      · exact List.mem_cons_of_mem _ (ih h)

theorem sends_cutTxAt (s : State) {n : Nat} (hn : P n) (z : Nat) : Sends P s (s.cutTxAt n z) := by
  unfold State.cutTxAt
  split
  · exact sends_refl s
  · split
    · exact sends_refl s
    · exact sends_trans (sends_setLane s hn _) (sends_out _ fun m f hm h => mem_cutOut (fun e => hm (e ▸ hn)) h)

theorem sends_depart (s : State) (src : Option Nat) {q : Queued} (hq : P q.lane) : Sends P s (s.depart src q) := by
  unfold State.depart
  dsimp only
  split
  · exact sends_refl s
  · refine sends_trans ?_ (sends_startTx _ hq _ _ _ _ _ _)
    split
    · exact sends_azf s fun _ hx => .inr hx
    · exact sends_refl s

theorem sends_startQueued (s : State) {q : Queued} (hq : P q.lane) : Sends P s (s.startQueued q) := by
  unfold State.startQueued
  split
  · exact sends_depart s _ hq
  · exact sends_when (sends_trans (sends_depart s _ hq) (sends_cutTxAt _ hq _))

/-- The frame that a transmitter starts next waits for it. -/
theorem nextQueued_lane {l : List Queued} {n : Nat} {q : Queued} (h : nextQueued l n = some q) : q.lane = n := by
  have hfind : ∀ {c : Nat} {x : Queued}, l.find? (fun x => x.lane == n && x.cls == c) = some x → x.lane = n := by
    intro c x hx
    have := List.find?_some hx
    simp only [Bool.and_eq_true, beq_iff_eq] at this
    obtain ⟨hlane, -⟩ := this
    exact hlane
  unfold nextQueued at h
  dsimp only at h
  split at h
  · rename_i hx
    exact hfind (hx.trans h)
  · rename_i hx
    exact hfind (hx.trans h)
  · rename_i hx
    exact hfind (hx.trans h)
  · exact hfind h

theorem sends_settle (s : State) {n : Nat} (hn : P n) (k : Nat) : Sends P s (s.settle n k) := by
  induction k generalizing s with
  | zero => exact sends_refl s
  | succ k ih =>
    rw [State.settle]
    split
    · exact sends_refl s
    · split
      · exact sends_refl s
      · rename_i q hq
        have hlane : P q.lane := nextQueued_lane hq ▸ hn
        have htaken : Sends P s ({ s with azf := { s.azf with queue := s.azf.queue.erase q } } : State).poolCount :=
          sends_trans (sends_azf s fun x hx => .inr (List.mem_of_mem_erase hx)) (sends_poolCount _)
        exact sends_trans htaken (sends_trans (sends_startQueued _ hlane) (ih _))

theorem sends_offer (s : State) {n : Nat} (hn : P n) (src : Option Nat) (app own : Bool) {f : Frame} (hf : OneBuffer f) :
    Sends P s (s.offer n src app own f) := by
  have hgaps : Sends P s (s.gaps n) := sends_settle s hn _
  unfold State.offer
  dsimp only
  split
  · exact sends_trans hgaps (sends_enqueue _ hn hf)
  · exact sends_trans hgaps (sends_depart _ _ hn)

/-- A frame of this node's own put on a lane of `P`. -/
theorem sends_launch (s : State) {n : Nat} (hn : P n) {f : Frame} (hf : OneBuffer f) : Sends P s (s.launch n f) := by
  have hoffer : Sends P s (s.when (s.azfOn && s.mayLaunch && s.laneOk n) (s.offer n Option.none false true f)) :=
    sends_when (sends_offer s hn _ _ _ hf)
  unfold State.launch
  exact sends_trans hoffer (sends_when (sends_records (a := State.azf _) (r := State.rse _) _ (fun _ hq => .inr hq)
    (fun _ => rfl) rfl rfl))

end

end Sys2Proof.Machine
end

/-! O42, third part: what a Section's command frames and its account leave alone. -/

section
namespace Sys2Proof.Machine

/-! ### The frames -/

/-- A frame of this node's own with at most 240 bytes of body fits one buffer. -/
theorem oneBuffer_frame (s : State) (h : Hdr) (body : List Byte) (hty : h.ty < 64) (hlen : body.length ≤ 240) :
    OneBuffer (s.frame h body) := by
  have hlen' : (s.frame h body).length = body.length + 16 := by
    simp only [State.frame, mkFrame, sealCrc, List.length_append, bytesBE_length]
    omega
  have hhead : BitVec.ofNat 8 (64 + h.ty) ≠ 0 := by
    intro e
    rw [← BitVec.toNat_inj] at e
    simp only [BitVec.toNat_ofNat, BitVec.ofNat_eq_ofNat] at e
    omega
  refine ⟨BitVec.ofNat 8 (64 + h.ty), (s.frame h body).tail, ?_, hhead, by omega⟩
  simp [State.frame, mkFrame, sealCrc, bytesBE]

theorem padTo_length {n : Nat} {l : List Byte} (h : l.length ≤ n) : (padTo n l).length = n := by
  simp only [padTo, zeros, List.length_append, List.length_replicate]
  omega

theorem segBytes_length (g : Segment) : (segBytes g).length = 22 := by
  simp only [segBytes, List.length_append, bytesBE_length, padTo_length (List.length_take_le 16 g.data)]

theorem downBody_length (c : ArmCmd) (split : Nat) (holds : List Nat) (g : Segment) : (downBody c split holds g).length = 80 := by
  have hnames : ((holds.take 16).flatMap (bytesBE 2)).length ≤ 32 := by
    rw [List.length_flatMap, List.map_congr_left (g := fun _ => 2) fun x _ => bytesBE_length 2 x, List.map_const',
      List.sum_replicate]
    have := List.length_take_le 16 holds
    simp only [smul_eq_mul]
    omega
  simp only [downBody, zeros, List.length_append, bytesBE_length, List.length_replicate, padTo_length hnames, segBytes_length]

theorem repeatBody_length (split : Nat) : (repeatBody split).length = 80 := by
  simp only [repeatBody, zeros, List.length_append, bytesBE_length, List.length_replicate]

theorem reportBody_length (fresh : Nat) (rep fold : Bool) (p : ArmRep) : (reportBody fresh rep fold p).length = 24 := by
  simp only [reportBody, zeros, List.length_append, bytesBE_length, List.length_replicate]

/-- TYPE and RING of a frame of this node's own. -/
theorem frame_header (s : State) (h : Hdr) (body : List Byte) (hty : h.ty < 64) (hring : h.ring < 16) :
    fType (s.frame h body) = h.ty ∧ fRing (s.frame h body) = h.ring := by
  constructor
  · simp [fType, byteAt, fieldBE, slice, natBE, State.frame, mkFrame, sealCrc, bytesBE]
    omega
  · simp [fRing, byteAt, fieldBE, slice, natBE, State.frame, mkFrame, sealCrc, bytesBE]
    omega

section
variable {P : Nat → Prop}

/-! ### A ring's command frame -/

/-- The lane that relays a ring's frames is a partner lane. -/
theorem State.partnerLane_eq {s : State} {r p : Nat} (h : s.partnerLane r = some p) : p = 16 ∨ p = 17 := by
  have hfirst : (if r < 8 then 16 else 17) = 16 ∨ (if r < 8 then 16 else 17) = 17 := by
    split
    · exact .inl rfl
    · exact .inr rfl
  unfold State.partnerLane at h
  generalize (if r < 8 then 16 else 17) = k at h hfirst
  dsimp only at h
  split at h
  · obtain rfl := Option.some.inj h
    exact hfirst
  · split at h
    · have := Option.some.inj h
      omega
    · cases h

theorem sends_sendRing (s : State) {r : Nat} (hr : P r) (h16 : P 16) (h17 : P 17) {f : Frame} (hf : OneBuffer f) :
    Sends P s (s.sendRing r f) := by
  have hlaunch : Sends P s (s.launch r f) := sends_launch s hr hf
  unfold State.sendRing
  dsimp only
  split
  · exact hlaunch
  · rename_i p hp
    have hlane : P p := by
      rcases State.partnerLane_eq hp with rfl | rfl
      · exact h16
      · exact h17
    exact sends_trans hlaunch (sends_launch _ hlane hf)

theorem sends_takeAck (s : State) (r : Nat) : Sends P s (s.takeAck r).2 := by
  unfold State.takeAck
  split
  · exact sends_refl s
  · exact sends_azf s fun _ hq => .inr hq

theorem sends_setSeg (s : State) (r : Nat) (g : SegTx → Option SegTx) : Sends P s (s.setSeg r g) := by
  unfold State.setSeg
  split
  · exact sends_refl s
  · exact sends_azf s fun _ hq => .inr hq

theorem sends_takeSegment (s : State) (r : Nat) : Sends P s (s.takeSegment r).2 := by
  unfold State.takeSegment
  split
  · split
    · exact sends_takeAck s r
    · have hseg : ∀ g a, Sends P s { s.setSeg r g with azf := { (s.setSeg r g).azf with acks := a } } := fun g a =>
        sends_trans (sends_setSeg s r g) (sends_azf _ fun _ hq => .inr hq)
      dsimp only
      split
      · exact sends_trans (hseg _ _) (sends_setEnt _ rfl)
      · exact hseg _ _
  · exact sends_takeAck s r

/-- The SPLIT of a Repeat frame: that of the last Down frame, or one the spec leaves free. -/
theorem sends_repeatRing (s : State) {r : Nat} (hr : P r) (h16 : P 16) (h17 : P 17) : Sends P s (s.repeatRing r) := by
  unfold State.repeatRing
  split
  rename_i x sp t heq
  have hframe : OneBuffer (t.frame { t.hdr tyRepeat with arm := armOf r, ring := r } (repeatBody sp)) :=
    oneBuffer_frame _ _ _ (by simp [State.hdr, tyRepeat]) (by rw [repeatBody_length]; decide)
  refine sends_trans ?_ (sends_sendRing t hr h16 h17 hframe)
  split at heq
  · obtain ⟨-, rfl⟩ := Prod.mk.inj heq
    exact sends_refl s
  · obtain ⟨-, rfl⟩ := Prod.mk.inj heq
    exact sends_fresh s 16

/-- The state that has taken a ring's segment and noted its SPLIT. -/
def State.downReady (s : State) (r : Nat) : State :=
  { (s.takeSegment r).2 with azf := { (s.takeSegment r).2.azf with
      splits := alPut (s.takeSegment r).2.azf.splits r (s.splitOf r) } }

/-- The Down frame of a ring. -/
def State.downFrame (s : State) (c : ArmCmd) (r : Nat) : Frame :=
  (s.downReady r).frame { (s.downReady r).hdr tyDown with arm := armOf r, ring := r }
    (downBody c (s.splitOf r) ((alGet c.names r []).map (cellId (s.takeSegment r).2.pair)) (s.takeSegment r).1)

theorem State.downRing_eq (s : State) (c : ArmCmd) (r : Nat) : s.downRing c r =
    if c.rhold.contains r then s.repeatRing r else (s.downReady r).sendRing r (s.downFrame c r) := rfl

theorem sends_downReady (s : State) (r : Nat) : Sends P s (s.downReady r) :=
  sends_trans (sends_takeSegment s r) (sends_azf _ fun _ hq => .inr hq)

theorem State.downFrame_oneBuffer (s : State) (c : ArmCmd) (r : Nat) : OneBuffer (s.downFrame c r) :=
  oneBuffer_frame _ _ _ (by simp [State.hdr, tyDown]) (by rw [downBody_length]; decide)

theorem sends_downRing (s : State) (c : ArmCmd) {r : Nat} (hr : P r) (h16 : P 16) (h17 : P 17) :
    Sends P s (s.downRing c r) := by
  rw [State.downRing_eq]
  split
  · exact sends_repeatRing s hr h16 h17
  · exact sends_trans (sends_downReady s r) (sends_sendRing _ hr h16 h17 (s.downFrame_oneBuffer c r))

/-- The state that has counted the Report of an arm. -/
def State.reportCounted (s : State) (a : Nat) : State :=
  { s with azf := { s.azf with freshTx := setNth s.azf.freshTx a ((nth s.azf.freshTx a 0 + 1) % 256) 0 } }

/-- The Report of an arm. -/
def State.reportFrame (s : State) (a : Nat) (rep : Bool) (p : ArmRep) : Frame :=
  (s.reportCounted a).frame
    { (s.reportCounted a).hdr tyReport with arm := a, ring := (s.reportCounted a).laneRing 18 }
    (reportBody ((nth s.azf.freshTx a 0 + 1) % 256) rep
      ((List.range 16).any (fun r => (s.reportCounted a).ringLen r != 0 && (s.reportCounted a).breaks r != [])) p)

theorem State.report_eq (s : State) (a : Nat) (rep : Bool) (p : ArmRep) :
    s.report a rep p = (s.reportCounted a).launchAll [18, 19] (s.reportFrame a rep p) := rfl

/-- A Report goes out on the lanes toward the Conductors. -/
theorem sends_report (s : State) (a : Nat) (rep : Bool) (p : ArmRep) (h18 : P 18) (h19 : P 19) :
    Sends P s (s.report a rep p) := by
  have hframe : OneBuffer (s.reportFrame a rep p) :=
    oneBuffer_frame _ _ _ (by simp [State.hdr, tyReport]) (by rw [reportBody_length]; decide)
  have hcount : Sends P s (s.reportCounted a) := sends_azf s fun _ hq => .inr hq
  rw [State.report_eq]
  refine sends_trans hcount (sends_forEach fun n hn x => ?_)
  have hlane : P n := by
    rcases List.mem_cons.mp hn with rfl | hn
    · exact h18
    · obtain rfl := List.mem_singleton.mp hn
      exact h19
  exact sends_launch x hlane hframe

/-! ### The account of an arm -/

/-- The fields in which the account and the command of an arm show. -/
def rseShown (a : Nat) : List Fld :=
  [R.RSE_RHO_RHO a, R.RSE_THR_KSEL a, R.RSE_THR_TRV a, R.RSE_THR_THR a, R.RSE_IDS_TRIM a, R.RSE_IDS_TIE a, R.RSE_TOFF_TOFF a,
    R.RSE_LEV_NINS a, R.RSE_LEV_LEVEL a, R.RSE_RHOLD_RINGS a, R.RSE_CNT_NHELD a, R.RSE_CNT_NCAND a, R.RSE_ERR_NMISS a,
    R.RSE_ERR_EPS a, R.RSE_FLG_EPS a, R.RSE_FLG_RHOLD a, R.RSE_STCNT_RHC a]

theorem sendKey_rseShown {a : Nat} (ha : a < 2) : ∀ f ∈ rseShown a, sendKey f.key = true := by
  have hall : ∀ a : Fin 2, ∀ f ∈ rseShown a, sendKey f.key = true := by decide
  exact hall ⟨a, ha⟩

theorem sends_putShown (s : State) {a : Nat} (ha : a < 2) {f : Fld} (v : Nat) (hf : f ∈ rseShown a) : Sends P s (s.put f v) :=
  sends_put s v (sendKey_rseShown ha f hf)

theorem sends_showRingHolds (s : State) {a : Nat} (ha : a < 2) (l : List Nat) : Sends P s (s.showRingHolds a l) := by
  have hrings : ∀ v, Sends P s (s.put (R.RSE_RHOLD_RINGS a) v) := fun v => sends_putShown s ha v (by simp [rseShown])
  unfold State.showRingHolds
  dsimp only
  split
  · exact hrings _
  · exact sends_trans (hrings _) (sends_trans (sends_putShown _ ha 1 (f := R.RSE_FLG_RHOLD a) (by simp [rseShown]))
      (sends_putShown _ ha _ (f := R.RSE_STCNT_RHC a) (by simp [rseShown])))

/-- The accounting of a cell changes its entry, and not what the map says of it. -/
theorem sends_account (s : State) (a i : Nat) : Sends P s (s.account a i) := by
  unfold State.account
  extract_lets e e'
  have he : e'.pres = (s.ent i).pres := by
    show (if e.left then { e with est := 0 } else e).pres = _
    split <;> rfl
  clear_value e'
  have hshown : ∀ {b c : Bool} {x y z : CellEnt}, x.pres = e'.pres → y.pres = e'.pres → z.pres = e'.pres →
      (if b then x else if c then y else z).pres = (s.ent i).pres := by
    intro b c x y z hx hy hz
    split
    · exact hx.trans he
    · split
      · exact hy.trans he
      · exact hz.trans he
  split
  · exact sends_setEnt s (hshown rfl rfl rfl)
  · split
    · exact sends_setEnt s he
    · split
      · exact sends_setEnt s he
      · exact sends_setEnt s he

theorem sends_residue (s : State) {a : Nat} (ha : a < 2) : Sends P s (s.residue a).1 := by
  have hmiss : ∀ x v, Sends P s ((s.setInst a x).put (R.RSE_ERR_NMISS a) v) := fun x v =>
    sends_trans (sends_setInst s a x) (sends_putShown _ ha v (by simp [rseShown]))
  unfold State.residue
  dsimp only
  split
  · exact hmiss _ _
  · have heps : ∀ (x : State) v, Sends P x (x.put (R.RSE_ERR_EPS a) v) := fun x v => sends_putShown x ha v (by simp [rseShown])
    dsimp only
    split
    · exact sends_trans (hmiss _ _) (heps _ _)
    · exact sends_trans (hmiss _ _) (sends_trans (heps _ _) (sends_putShown _ ha 1 (by simp [rseShown])))

theorem sends_showLast (s : State) {a : Nat} (ha : a < 2) (l : List Nat) : Sends P s (s.showLast a l) := by
  refine sends_forEach fun p hp x => sends_putShown x ha p.2 ?_
  obtain ⟨hfield, -⟩ := List.of_mem_zip hp
  simp only [List.mem_cons, List.not_mem_nil, or_false] at hfield
  simp only [rseShown, List.mem_cons]
  tauto

theorem sends_showNone (s : State) {a : Nat} (ha : a < 2) (l : List Nat) : Sends P s (s.showNone a l) := by
  have hcells : Sends P s (forEach (s.armCells a) (fun i x => x.setEnt i { x.ent i with cand := l.contains i, held := false }) s) :=
    sends_forEach fun i _ x => sends_setEnt x rfl
  refine sends_trans hcells (sends_trans (sends_trans ?_ (sends_putShown _ ha 0 (f := R.RSE_CNT_NHELD a) ?_))
    (sends_putShown _ ha l.length (f := R.RSE_CNT_NCAND a) ?_))
  · exact sends_putShown _ ha 0 (by simp [rseShown])
  · simp [rseShown]
  · simp [rseShown]

/-- The account of an overrun arm. -/
theorem sends_overrun (s : State) {a : Nat} (ha : a < 2) : Sends P s (s.overrun a) := by
  have hrho : ∀ (x : State) y v, Sends P x ((x.setInst a y).putS (R.RSE_RHO_RHO a) v) := fun x y v =>
    sends_trans (sends_setInst x a y) (sends_putShown _ ha _ (by simp [rseShown]))
  unfold State.overrun
  dsimp only
  refine sends_trans (sends_trans ?_ (sends_showNone _ ha _)) (sends_setInst _ a _)
  split
  · refine sends_trans ?_ (hrho _ _ _)
    split
    · exact sends_showLast s ha _
    · exact sends_refl s
  · refine sends_trans ?_ (hrho _ _ _)
    refine sends_trans ?_ (sends_forEach fun i _ x => sends_account x a i)
    split
    · exact sends_residue s ha
    · exact sends_refl s

end

end Sys2Proof.Machine
end

/-! O42, fourth part: the Broadcast and the command deadline. -/

section
namespace Sys2Proof.Machine

/-! ### A lane that is spared stays free -/

section
variable {P : Nat → Prop} {s t : State}

theorem Sends.role (h : Sends P s t) : t.role = s.role := by
  simp only [State.role, State.on, h.get R.SYS_STRAP_BAD (by decide), h.get R.SYS_STRAP_ROLE (by decide)]
  rfl

theorem Sends.gated (h : Sends P s t) (p : Nat) : t.gated p = s.gated p := by
  have hsec : t.sec = s.sec := (congrArg State.sec h.rest :)
  simp only [State.gated, State.heldPage, State.imgFail, State.isK, State.isC, State.isS, h.role,
    h.get R.SEC_STA_BSTAGE (by decide), hsec]

theorem Sends.azfOn (h : Sends P s t) : t.azfOn = s.azfOn := by
  simp only [State.azfOn, State.runs, State.en, State.on, h.gated, h.get (R.EN 0x34) (by decide)]

theorem Sends.tickNs (h : Sends P s t) : t.tickNs = s.tickNs := (congrArg State.tickNs h.rest :)

theorem Sends.eveNs (h : Sends P s t) : t.eveNs = s.eveNs :=
  congrArg (fun p => p * 10 - 500) (h.get R.TCK_PER_PER (by decide))

/-- No register of a lane is among those that a Section's commands change. -/
theorem sendKey_lane : ∀ m : Fin 20, sendKey (R.EN (lanePage m)).key = false ∧ sendKey (R.AZL_LSTAT_STATE m).key = false ∧
    sendKey (R.AZL_LSTAT_INSVC m).key = false ∧ sendKey (R.AZL_LCTL_TXOFF m).key = false := by decide

theorem Sends.laneOk (h : Sends P s t) (m : Fin 20) : t.laneOk m = s.laneOk m := by
  obtain ⟨hen, hst, hsvc, -⟩ := sendKey_lane m
  simp only [State.laneOk, State.runs, State.en, State.laneUp, State.laneSt, State.inSvc, State.on, h.gated, h.get _ hen,
    h.get _ hst, h.get _ hsvc]

/-- A lane outside `P` that was free is still free. -/
theorem Sends.free (h : Sends P s t) {m : Fin 20} (hm : ¬ P m) (hfree : s.Free m) : t.Free m := by
  obtain ⟨-, hst, -, hoff⟩ := sendKey_lane m
  obtain ⟨hidle, hbusy, hgap, hqueue⟩ := hfree
  have hnow : t.now10 = s.now10 := by rw [State.now10, h.time, State.now10]
  refine ⟨?_, ?_, ?_, fun q hq => ?_⟩
  · rw [← hidle]
    simp only [State.txIdle, State.laneSt, State.on, h.get _ hst, h.get _ hoff]
  · rw [← hbusy]
    simp only [State.busy, h.lane m hm, hnow]
  · rw [h.lane m hm, hnow]
    exact hgap
  · rcases h.queue q hq with hq | hq
    · exact fun e => hm (e ▸ hq)
    · exact hqueue q hq

/-- What is sent leaves memory outside the Frame Pool. -/
theorem Sends.outsidePool (h : Sends P s t) : SameOutsidePool s t := by
  have hflash : t.flash = s.flash := (congrArg State.flash h.rest :)
  exact fun x => ⟨h.mem x, by rw [hflash]⟩

theorem Sends.armRings (h : Sends P s t) (a : Nat) : t.armRings a = s.armRings a := by
  have hlen : t.ringLen = s.ringLen := funext fun r => by simp only [State.ringLen, h.pres]
  simp only [State.armRings, hlen]

end

/-! ### The Broadcast -/

/-- A frame of type `ty` for ring `r` has been put on the ring's lane. -/
def State.SentOn (s : State) (r ty : Nat) : Prop := ∃ f, ⟨r, f⟩ ∈ s.out ∧ fRing f = r ∧ fType f = ty

theorem State.SentOn.mono {P : Nat → Prop} {s t : State} {r ty : Nat} (h : s.SentOn r ty) (hs : Sends P s t) (hr : ¬ P r) :
    t.SentOn r ty := by
  obtain ⟨f, hf, hring, hty⟩ := h
  exact ⟨f, hs.out r f hr hf, hring, hty⟩

/-- A ring's frame leaves at once over a free lane in service. -/
theorem State.sendRing_sent {s : State} {r : Nat} {f : Frame} (hr : r < 16) (hk : s.isK = false) (ha : s.azfOn = true)
    (heve : s.tickNs < s.eveNs) (hn : s.laneOk r = true) (hfree : s.Free r) (hf : OneBuffer f)
    (hty : fType f ≠ tyProbeReply) : ⟨r, f⟩ ∈ (s.sendRing r f).out := by
  have hlaunch : s.launch r f = s.startTx r Option.none false true s.now10 0 f :=
    State.launch_member hk ha (State.mayLaunch_before_eve heve) hn hfree hty
  have hout : ⟨r, f⟩ ∈ (s.startTx r Option.none false true s.now10 0 f).out := List.mem_cons_self
  unfold State.sendRing
  dsimp only
  rw [hlaunch]
  split
  · exact hout
  · rename_i p hp
    have hne : p ≠ r := by
      rcases State.partnerLane_eq hp with rfl | rfl <;> omega
    exact (sends_launch (P := fun l => l ≠ r) _ hne hf).out r f (fun h => h rfl) hout

/-- The lane of a ring can carry its frame at once. -/
structure State.RingReady (s : State) (r : Nat) : Prop where
  ring : r < 16
  member : s.isK = false
  on : s.azfOn = true
  eve : s.tickNs < s.eveNs
  lane : s.laneOk r = true
  free : s.Free r

theorem State.RingReady.of_sends {s t : State} {r : Nat} (h : s.RingReady r) (hs : Sends (fun l => l ≠ r) s t) : t.RingReady r where
  ring := h.ring
  member := by rw [State.isK, hs.role]; exact h.member
  on := hs.azfOn.trans h.on
  eve := by rw [hs.tickNs, hs.eveNs]; exact h.eve
  lane := (hs.laneOk ⟨r, by have := h.ring; omega⟩).trans h.lane
  free := hs.free (m := ⟨r, by have := h.ring; omega⟩) (fun e => e rfl) h.free

theorem State.repeatRing_sent {s : State} {r : Nat} (h : s.RingReady r) : (s.repeatRing r).SentOn r tyRepeat := by
  unfold State.repeatRing
  split
  rename_i x sp t heq
  have hframe : OneBuffer (t.frame { t.hdr tyRepeat with arm := armOf r, ring := r } (repeatBody sp)) :=
    oneBuffer_frame _ _ _ (by simp [State.hdr, tyRepeat]) (by rw [repeatBody_length]; decide)
  obtain ⟨hty, hring⟩ := frame_header t { t.hdr tyRepeat with arm := armOf r, ring := r } (repeatBody sp)
    (by simp [State.hdr, tyRepeat]) h.ring
  have hs : Sends (fun l => l ≠ r) s t := by
    split at heq
    · obtain ⟨-, rfl⟩ := Prod.mk.inj heq
      exact sends_refl s
    · obtain ⟨-, rfl⟩ := Prod.mk.inj heq
      exact sends_fresh s 16
  have ht := h.of_sends hs
  exact ⟨_, State.sendRing_sent ht.ring ht.member ht.on ht.eve ht.lane ht.free hframe (by rw [hty]; simp [State.hdr, tyRepeat, tyProbeReply]),
    hring, hty⟩

/-- The command frame of a ring whose lane is ready is sent: a Down frame, or a Repeat frame for a ring hold. -/
theorem State.downRing_sent {s : State} {c : ArmCmd} {r : Nat} (h : s.RingReady r) :
    (s.downRing c r).SentOn r (if c.rhold.contains r then tyRepeat else tyDown) := by
  rw [State.downRing_eq]
  split
  · exact State.repeatRing_sent h
  · have ht := h.of_sends (sends_downReady s r)
    obtain ⟨hty, hring⟩ := frame_header (s.downReady r) { (s.downReady r).hdr tyDown with arm := armOf r, ring := r }
      (downBody c (s.splitOf r) ((alGet c.names r []).map (cellId (s.takeSegment r).2.pair)) (s.takeSegment r).1)
      (by simp [State.hdr, tyDown]) h.ring
    refine ⟨s.downFrame c r, ?_, hring, hty⟩
    exact State.sendRing_sent ht.ring ht.member ht.on ht.eve ht.lane ht.free (s.downFrame_oneBuffer c r)
      (by rw [State.downFrame, hty]; simp [State.hdr, tyDown, tyProbeReply])

/-- Of several rings each whose lane is ready is sent its frame, whatever the others do. -/
theorem State.downRings_sent {s : State} {c : ArmCmd} {l : List Nat} {r : Nat} (hl : r ∈ l) (hnodup : l.Nodup)
    (h : s.RingReady r) : (forEach l (fun r x => x.downRing c r) s).SentOn r (if c.rhold.contains r then tyRepeat else tyDown) := by
  have hr := h.ring
  have h16 : 16 ≠ r := by omega
  have h17 : 17 ≠ r := by omega
  induction l generalizing s with
  | nil => cases hl
  | cons k t ih =>
    obtain ⟨hk, hnodup⟩ := List.nodup_cons.mp hnodup
    rcases List.mem_cons.mp hl with rfl | hl
    · have hrest : Sends (fun l => l ≠ r) (s.downRing c r) (forEach t (fun r x => x.downRing c r) (s.downRing c r)) :=
        sends_forEach fun j hj x => sends_downRing x c (fun e => hk (e ▸ hj)) h16 h17
      exact (State.downRing_sent h).mono hrest (fun e => e rfl)
    · have hfirst : Sends (fun l => l ≠ r) s (s.downRing c k) := sends_downRing s c (fun e => hk (e ▸ hl)) h16 h17
      exact ih hl hnodup (h.of_sends hfirst)

/-- The rings of an arm are among the 16, and each is named once. -/
theorem State.armRings_spec (s : State) (a : Nat) : (∀ r ∈ s.armRings a, r < 16) ∧ (s.armRings a).Nodup := by
  refine ⟨fun r hr => ?_, List.Nodup.filter _ List.nodup_range⟩
  obtain ⟨hr, -⟩ := List.mem_filter.mp hr
  exact List.mem_range.mp hr

/-- The Section after the frames and the Report of a command, before it notes that the arm is served. -/
def State.commanded (s : State) (a : Nat) (c : ArmCmd) : State :=
  let t := (forEach (s.armRings a) (fun r x => x.downRing c r) (s.showRingHolds a c.rhold)).report a false c.rep
  let u := forEach c.after (fun p x => x.setEnt p.1 { x.ent p.1 with est := p.2 }) t
  u.setInst a { u.inst a with
    ksel := c.ksel, trimNext := if c.trv then c.trim else 0
    dirNext := if c.trv then (if c.level < 0 then -1 else 1) else 0, expNext := some c.nins }

/-- The record of an arm reads what was put into it. -/
theorem State.inst_setInst (s : State) (a : Nat) (x : RseInst) : (s.setInst a x).inst a = x := nth_setNth_self _ _ _ _

/-- The sum expected at the next Strike and KSEL are those of the command. -/
theorem State.commanded_inst (s : State) (a : Nat) (c : ArmCmd) :
    ((s.commanded a c).inst a).expNext = some c.nins ∧ ((s.commanded a c).inst a).ksel = c.ksel := by
  unfold State.commanded
  dsimp only
  rw [State.inst_setInst]
  exact ⟨rfl, rfl⟩

/-- The arm is noted as served now. -/
def State.downServed (s : State) (a : Nat) : State :=
  { s with azf := { s.azf with cmdat := s.tickNs }, rse := { s.rse with downs := setBitN s.rse.downs a } }

theorem State.broadcast_eq {s : State} {a : Nat} {c : ArmCmd} (h : (s.inst a).cmd = some c) :
    s.broadcast a = ((s.commanded a c).downServed a).allLaunched := by
  simp only [State.broadcast, h]
  rfl

/-- What follows the frames of the rings sends nothing on a ring's lane. -/
theorem sends_afterRings {P : Nat → Prop} (s : State) (a : Nat) (c : ArmCmd) (h18 : P 18) (h19 : P 19) :
    Sends P (forEach (s.armRings a) (fun r x => x.downRing c r) (s.showRingHolds a c.rhold)) (s.commanded a c) := by
  refine sends_trans (sends_report _ a false c.rep h18 h19) (sends_trans ?_ (sends_setInst _ a _))
  exact sends_forEach fun p _ x => sends_setEnt x rfl

theorem sends_commanded {P : Nat → Prop} (s : State) {a : Nat} (ha : a < 2) (c : ArmCmd) (hP : ∀ l < 20, P l) :
    Sends P s (s.commanded a c) := by
  obtain ⟨hrings, -⟩ := s.armRings_spec a
  refine sends_trans (sends_showRingHolds s ha c.rhold) (sends_trans (sends_forEach fun r hr x => ?_)
    (sends_afterRings s a c (hP 18 (by decide)) (hP 19 (by decide))))
  have := hrings r hr
  exact sends_downRing x c (hP r (by omega)) (hP 16 (by decide)) (hP 17 (by decide))

/-- Each ring of the arm whose lane is ready has been sent its frame. -/
theorem State.commanded_sent {s : State} {a : Nat} (ha : a < 2) (c : ArmCmd) {r : Nat} (hr : r ∈ s.armRings a)
    (h : s.RingReady r) : (s.commanded a c).SentOn r (if c.rhold.contains r then tyRepeat else tyDown) := by
  obtain ⟨hrings, hnodup⟩ := s.armRings_spec a
  have hlt := hrings r hr
  have hshown : (s.showRingHolds a c.rhold).RingReady r := h.of_sends (sends_showRingHolds s ha c.rhold)
  have hafter := sends_afterRings (P := fun l => l ≠ r) s a c (by omega) (by omega)
  exact (State.downRings_sent hr hnodup hshown).mono hafter (fun e => e rfl)

/-- Noting that every arm is served issues a descriptor at most. -/
theorem allLaunched_frame (s : State) : FaultFrame s s.allLaunched :=
  faultFrame_when (faultFrame_refl s) (dsxIssue_frame s _ _)

theorem State.not_cell_of_sect {s : State} (h : s.isS = true) : s.isK = false := State.not_cell_of_member (.inl h)

theorem answers_broadcast {s : State} {a : Fin 2} {c : ArmCmd} (hrun : s.phase = .run) (hact : s.actS = true)
    (hlock : s.lock = true) (hcounted : bitOf s.rse.counted a = true) (hdowns : bitOf s.rse.downs a = false)
    (hreps : bitOf s.rse.reps a = false) (htime : s.tickNs < s.cdlNs) (hcmd : (s.inst a).cmd = some c) :
    Answers (.broadcast a) s (fun t => bitOf t.rse.downs a = true ∧ t.azf.cmdat = s.tickNs ∧ SameOutsidePool s t ∧
      t.tickNs = s.tickNs ∧ (t.inst a).expNext = some c.nins ∧ (t.inst a).ksel = c.ksel ∧
      (s.tickNs < s.eveNs → ∀ r ∈ s.armRings a, s.laneOk r = true → s.Free r → ∃ f, ⟨r, f⟩ ∈ t.out ∧ fRing f = r ∧
        fType f = (if c.rhold.contains r then tyRepeat else tyDown))) := by
  have hexec : exec (.broadcast a) s = .next (live s ((s.commanded a c).downServed a).allLaunched) := by
    show execBroadcast a s = _
    simp [execBroadcast, hact, hlock, hcounted, hdowns, hreps, htime, State.broadcast_eq hcmd]
  have hsends : Sends (fun _ => True) s (s.commanded a c) := sends_commanded s a.isLt c fun _ _ => trivial
  have hrest := (allLaunched_frame ((s.commanded a c).downServed a)).rest
  generalize ((s.commanded a c).downServed a).allLaunched = t at hexec hrest
  have hrse : t.rse = ((s.commanded a c).downServed a).rse := (congrArg State.rse hrest :)
  have hazf : t.azf = ((s.commanded a c).downServed a).azf := (congrArg State.azf hrest :)
  have hmem : t.mem = (s.commanded a c).mem := (congrArg State.mem hrest :)
  have hflash : t.flash = (s.commanded a c).flash := (congrArg State.flash hrest :)
  have hout : t.out = (s.commanded a c).out := (congrArg State.out hrest :)
  have htick : t.tickNs = (s.commanded a c).tickNs := (congrArg State.tickNs hrest :)
  have hinst : t.inst a = (s.commanded a c).inst a := by
    rw [State.inst, hrse]
    rfl
  obtain ⟨hexp, hksel⟩ := s.commanded_inst a c
  refine answers_live hexec hrun ⟨?_, ?_, fun x => ?_, htick.trans hsends.tickNs, hinst ▸ hexp, hinst ▸ hksel,
    fun heve r hr hlane hfree => ?_⟩
  · rw [hrse]
    exact (bitOf_setBitN _ _ _).trans (by simp)
  · rw [hazf]
    exact hsends.tickNs
  · rw [hmem, hflash]
    exact hsends.outsidePool x
  · obtain ⟨hrings, -⟩ := s.armRings_spec a
    have hsect : s.isS = true ∧ s.azfOn = true := by
      simp only [State.actS, Bool.and_eq_true] at hact
      obtain ⟨⟨hsect, -⟩, hon⟩ := hact
      exact ⟨hsect, hon⟩
    obtain ⟨hsect, hon⟩ := hsect
    rw [hout]
    exact State.commanded_sent a.isLt c hr ⟨hrings r hr, State.not_cell_of_sect hsect, hon, heve, hlane, hfree⟩

/-! ### The command deadline -/

/-- Time that passes up to an instant of the tick changes the clocks, and nothing else. -/
theorem State.toInstant_frame (s : State) (n : Nat) :
    { s.toInstant n with
      tickNs := s.tickNs, tck := s.tck, tbs := s.tbs, pwm := s.pwm, fcu := s.fcu, dsx := s.dsx, field := s.field } = s ∧
    (s.toInstant n).tck.cons = s.tck.cons ∧ (s.toInstant n).tickNs = max s.tickNs n := by
  have htbs : ∀ dt, { s.tbsAdvance dt with tck := s.tck, tbs := s.tbs } = s ∧ (s.tbsAdvance dt).tck.cons = s.tck.cons ∧
      (s.tbsAdvance dt).tickNs = s.tickNs := by
    intro dt
    unfold State.tbsAdvance
    split
    · exact ⟨rfl, rfl, rfl⟩
    · exact ⟨rfl, rfl, rfl⟩
  unfold State.toInstant
  split
  · rename_i h
    obtain ⟨hrest, hcons, htick⟩ := htbs (n - s.tickNs)
    have hrest' := congrArg (fun x : State =>
      { x with tickNs := s.tickNs, pwm := s.pwm, fcu := s.fcu, dsx := s.dsx, field := s.field }) hrest
    have hns : (s.tbsAdvance (n - s.tickNs)).tickNs + (n - s.tickNs) = max s.tickNs n := by omega
    unfold State.elapse
    dsimp only
    split
    · exact ⟨hrest', hcons, hns⟩
    · exact ⟨hrest', hcons, hns⟩
  · exact ⟨rfl, rfl, by omega⟩

/-- `t` is `s` after the overrun of the arms of `l`: each is noted as repeated, and its consecutive Repeats count one more. -/
structure Overran (l : List Nat) (s t : State) : Prop where
  pool : SameOutsidePool s t
  tickNs : t.tickNs = s.tickNs
  downs : t.rse.downs = s.rse.downs
  repeated : ∀ b, bitOf t.rse.reps b = true ↔ b ∈ l ∨ bitOf s.rse.reps b = true
  armRings : ∀ b, t.armRings b = s.armRings b
  cons : ∀ b ∈ l, s.armRings b ≠ [] → nth t.tck.cons b 0 = nth s.tck.cons b 0 + 1
  others : ∀ b, b ∉ l → nth t.tck.cons b 0 = nth s.tck.cons b 0

theorem overran_nil (s : State) : Overran [] s s where
  pool _ := ⟨fun _ => rfl, rfl⟩
  tickNs := rfl
  downs := rfl
  repeated _ := by simp
  armRings _ := rfl
  cons _ hb := nomatch hb
  others _ _ := rfl

theorem overran_cons {a : Nat} {l : List Nat} {s t u : State} (ha : a ∉ l) (h : Overran [a] s t) (k : Overran l t u) :
    Overran (a :: l) s u where
  pool x := by
    obtain ⟨hmem, hflash⟩ := h.pool x
    obtain ⟨kmem, kflash⟩ := k.pool x
    exact ⟨fun hx => (kmem hx).trans (hmem hx), kflash.trans hflash⟩
  tickNs := k.tickNs.trans h.tickNs
  downs := k.downs.trans h.downs
  repeated b := by 
    rw [k.repeated, h.repeated]
    simp only [List.mem_cons, List.not_mem_nil, or_false]
    tauto
  armRings b := (k.armRings b).trans (h.armRings b)
  cons b hb hne := by
    rcases List.mem_cons.mp hb with rfl | hb
    · rw [k.others b ha, h.cons b (by simp) hne]
    · rw [k.cons b hb (by rw [h.armRings]; exact hne), h.others b (by simp only [List.mem_singleton]; exact fun e => ha (e ▸ hb))]
  others b hb := by
    rw [List.mem_cons, not_or] at hb
    obtain ⟨hba, hbl⟩ := hb
    rw [k.others b hbl, h.others b (by simpa using hba)]

/-- The Section after the Repeat frames and the Report of an overrun arm. -/
def State.repeatedRings (s : State) (a : Nat) : State :=
  let t := forEach ((s.overrun a).armRings a) (fun r x => x.repeatRing r) (s.overrun a)
  t.report a true (t.reportOf a (t.estSum (t.armCells a) (fun _ => true)) (t.candsOf a).length 0)

/-- The arm is noted as repeated now. -/
def State.repServed (s : State) (a : Nat) : State :=
  { s with azf := { s.azf with cmdat := s.tickNs }, rse := { s.rse with reps := setBitN s.rse.reps a } }

theorem State.overrunArm_eq (s : State) (a : Nat) :
    s.overrunArm a = if ((s.repeatedRings a).repServed a).armRings a = [] then ((s.repeatedRings a).repServed a, false)
      else ((s.repeatedRings a).repServed a).countRepeat a := by
  delta State.overrunArm State.repServed State.repeatedRings
  dsimp only

theorem sends_repeatedRings (s : State) {a : Nat} (ha : a < 2) : Sends (fun _ => True) s (s.repeatedRings a) := by
  refine sends_trans (sends_overrun s ha) (sends_trans (sends_forEach fun r _ x => ?_) (sends_report _ a true _ trivial trivial))
  exact sends_repeatRing x trivial trivial trivial

/-- The count of a Repeat changes the counters of the tick. -/
theorem State.countRepeat_spec (s : State) (a : Nat) :
    { (s.countRepeat a).1 with regs := s.regs, tck := s.tck } = s ∧
    (s.countRepeat a).1.tck.cons = setNth s.tck.cons a (nth s.tck.cons a 0 + 1) 0 := by
  unfold State.countRepeat
  dsimp only
  split
  · exact ⟨rfl, rfl⟩
  · exact ⟨rfl, rfl⟩

/-- Whatever has been sent, noting and counting the Repeat makes it an overrun of the arm. -/
theorem overran_of_sends {s u : State} {a : Nat} (hs : Sends (fun _ => True) s u) :
    Overran [a] s (if (u.repServed a).armRings a = [] then (u.repServed a, false) else (u.repServed a).countRepeat a).1 := by
  have hrings : (u.repServed a).armRings = s.armRings := funext hs.armRings
  have htck : u.tck = s.tck := (congrArg State.tck hs.rest :)
  obtain ⟨hdowns, hreps⟩ := hs.marks
  obtain ⟨hrest, hcons⟩ := (u.repServed a).countRepeat_spec a
  have hbits : ∀ b, bitOf (setBitN u.rse.reps a) b = true ↔ b ∈ [a] ∨ bitOf s.rse.reps b = true := by
    intro b
    rw [bitOf_setBitN, hreps]
    simp
  rw [hrings]
  split
  · rename_i hnone
    refine ⟨hs.outsidePool, hs.tickNs, hdowns, hbits, hs.armRings, fun b hb hne => ?_, fun b _ => ?_⟩
    · obtain rfl := List.mem_singleton.mp hb
      exact absurd hnone hne
    · exact congrArg (fun x : TckState => nth x.cons b 0) htck
  · generalize ((u.repServed a).countRepeat a).1 = t at hrest hcons
    have hrse : t.rse = (u.repServed a).rse := (congrArg State.rse hrest :)
    have hmem : t.mem = u.mem := (congrArg State.mem hrest :)
    have hflash : t.flash = u.flash := (congrArg State.flash hrest :)
    have htick : t.tickNs = u.tickNs := (congrArg State.tickNs hrest :)
    have hcons' : t.tck.cons = setNth s.tck.cons a (nth s.tck.cons a 0 + 1) 0 := by
      rw [hcons]
      exact congrArg (fun x : TckState => setNth x.cons a (nth x.cons a 0 + 1) 0) htck
    refine ⟨fun x => ?_, htick.trans hs.tickNs, ?_, fun b => ?_, fun b => ?_, fun b hb _ => ?_, fun b hb => ?_⟩
    · rw [hmem, hflash]
      exact hs.outsidePool x
    · rw [hrse]
      exact hdowns
    · rw [hrse]
      exact hbits b
    · refine Eq.trans ?_ (congrFun hrings b)
      simp only [State.armRings, State.ringLen, State.ent, hrse]
    · obtain rfl := List.mem_singleton.mp hb
      rw [hcons', nth_setNth_self]
    · rw [hcons', nth_setNth_ne _ _ _ _ _ (fun e => hb (by simp [e]))]

theorem overran_overrunArm (s : State) {a : Nat} (ha : a < 2) : Overran [a] s (s.overrunArm a).1 := by
  rw [State.overrunArm_eq]
  exact overran_of_sends (sends_repeatedRings s ha)

end Sys2Proof.Machine
end

/-! O42, last part: the command deadline, Decide begin, and the statement. -/

section
namespace Sys2Proof.Machine

/-! ### All arms at the command deadline -/

/-- One overrun arm after the other, and whether one of them escalates. -/
def overrunArms (l : List Nat) (p : State × Bool) : State × Bool :=
  l.foldl (fun p a => ((p.1.overrunArm a).1, p.2 || (p.1.overrunArm a).2)) p

theorem overran_overrunArms {l : List Nat} (hl : ∀ a ∈ l, a < 2) (hnodup : l.Nodup) (p : State × Bool) :
    Overran l p.1 (overrunArms l p).1 := by
  induction l generalizing p with
  | nil => exact overran_nil p.1
  | cons a t ih =>
    obtain ⟨ha, hnodup⟩ := List.nodup_cons.mp hnodup
    exact overran_cons ha (overran_overrunArm p.1 (hl a (by simp)))
      (ih (fun b hb => hl b (by simp [hb])) hnodup ((p.1.overrunArm a).1, p.2 || (p.1.overrunArm a).2))

/-- The arms of the Section's mode, of at most two, each once. -/
theorem arms_spec : (∀ a ∈ arms, a < 2) ∧ arms.Nodup := by
  rcases arms_cases with h | h
  · rw [h]; decide
  · rw [h]; decide

/-- The arms that have no command frame. -/
def State.lateArms (s : State) : List Nat := arms.filter (fun a => !bitOf s.rse.downs a && !bitOf s.rse.reps a)

theorem State.mem_lateArms {s : State} {b : Nat} :
    b ∈ s.lateArms ↔ b ∈ arms ∧ bitOf s.rse.downs b = false ∧ bitOf s.rse.reps b = false := by
  simp [State.lateArms, List.mem_filter]

/-- With every arm served the deadline is an instant that passes; otherwise each late arm is overrun, and events follow. -/
theorem State.deadline_cases (s : State) :
    (s.lateArms = [] ∧ s.deadline = s.toInstant s.cdlNs) ∨
    (s.lateArms ≠ [] ∧ FaultFrame (overrunArms s.lateArms (s.toInstant s.cdlNs, false)).1 s.deadline) := by
  obtain ⟨hrest, -, -⟩ := s.toInstant_frame s.cdlNs
  have hrse : (s.toInstant s.cdlNs).rse = s.rse := (congrArg State.rse hrest :)
  have hlate : arms.filter (fun a => !bitOf (s.toInstant s.cdlNs).rse.downs a && !bitOf (s.toInstant s.cdlNs).rse.reps a) =
      s.lateArms := by rw [hrse]; rfl
  have heq : s.deadline = if s.lateArms = [] then s.toInstant s.cdlNs
      else if (overrunArms s.lateArms (s.toInstant s.cdlNs, false)).2 then
        (overrunArms s.lateArms (s.toInstant s.cdlNs, false)).1.allLaunched.fcuEvent 3
      else (overrunArms s.lateArms (s.toInstant s.cdlNs, false)).1.allLaunched := by
    rw [← hlate]
    rfl
  by_cases h : s.lateArms = []
  · exact .inl ⟨h, heq.trans (if_pos h)⟩
  · refine .inr ⟨h, ?_⟩
    rw [heq, if_neg h]
    split
    · exact faultFrame_trans (allLaunched_frame _) (fcuEvent_frame _ _)
    · exact allLaunched_frame _

theorem answers_commandDeadline {s : State} (hrun : s.phase = .run) (hact : s.actS = true) (hlock : s.lock = true) :
    Answers .commandDeadline s (fun t => SameOutsidePool s t ∧ t.tickNs = max s.tickNs s.cdlNs ∧
      (∀ b ∈ arms, bitOf t.rse.downs b = true ∨ bitOf t.rse.reps b = true) ∧
      (∀ b ∈ arms, bitOf s.rse.downs b = false → bitOf s.rse.reps b = false → s.armRings b ≠ [] →
        nth t.tck.cons b 0 = nth s.tck.cons b 0 + 1) ∧
      ((∀ b ∈ arms, bitOf s.rse.downs b = true ∨ bitOf s.rse.reps b = true) → t.regs = s.regs ∧ t.out = s.out ∧
        t.mem = s.mem ∧ t.flash = s.flash)) := by
  have hexec : exec .commandDeadline s = .next (live s s.deadline) := by
    show execCommandDeadline s = _
    rw [execCommandDeadline, hact, hlock]
    rfl
  refine answers_live hexec hrun ?_
  obtain ⟨hrest, hcons, htick⟩ := s.toInstant_frame s.cdlNs
  have hserved : ∀ b ∈ arms, b ∉ s.lateArms → bitOf s.rse.downs b = true ∨ bitOf s.rse.reps b = true := by
    intro b hb hlate
    by_contra h
    rw [not_or, Bool.not_eq_true, Bool.not_eq_true] at h
    exact hlate (State.mem_lateArms.mpr ⟨hb, h⟩)
  have hmem : (s.toInstant s.cdlNs).mem = s.mem := (congrArg State.mem hrest :)
  have hflash : (s.toInstant s.cdlNs).flash = s.flash := (congrArg State.flash hrest :)
  have hrse : (s.toInstant s.cdlNs).rse = s.rse := (congrArg State.rse hrest :)
  rcases s.deadline_cases with ⟨hnone, heq⟩ | ⟨hsome, hevents⟩
  · rw [heq]
    refine ⟨fun x => by rw [hmem, hflash]; exact ⟨fun _ => rfl, rfl⟩, htick, fun b hb => ?_, fun b hb hdown hrep _ => ?_,
      fun _ => ⟨(congrArg State.regs hrest :), (congrArg State.out hrest :), hmem, hflash⟩⟩
    · rw [hrse]
      exact hserved b hb (by simp [hnone])
    · exact absurd (State.mem_lateArms.mpr ⟨hb, hdown, hrep⟩) (by simp [hnone])
  · obtain ⟨harms, hnodup⟩ := arms_spec
    have hlt : ∀ a ∈ s.lateArms, a < 2 := fun a ha => by
      obtain ⟨ha, -⟩ := State.mem_lateArms.mp ha
      exact harms a ha
    have hover := overran_overrunArms (l := s.lateArms) hlt (hnodup.filter _) (s.toInstant s.cdlNs, false)
    generalize (overrunArms s.lateArms (s.toInstant s.cdlNs, false)).1 = u at hover hevents
    have hlast := hevents.rest
    have hmem' : s.deadline.mem = u.mem := (congrArg State.mem hlast :)
    have hflash' : s.deadline.flash = u.flash := (congrArg State.flash hlast :)
    have hrse' : s.deadline.rse = u.rse := (congrArg State.rse hlast :)
    have htck' : s.deadline.tck = u.tck := (congrArg State.tck hlast :)
    have htick' : s.deadline.tickNs = u.tickNs := (congrArg State.tickNs hlast :)
    refine ⟨fun x => ?_, htick'.trans (hover.tickNs.trans htick), fun b hb => ?_, fun b hb hdown hrep hne => ?_, fun hall => ?_⟩
    · rw [hmem', hflash', ← hmem, ← hflash]
      exact hover.pool x
    · rw [hrse', hover.downs, hover.repeated, hrse]
      by_cases hlate : b ∈ s.lateArms
      · exact .inr (.inl hlate)
      · exact (hserved b hb hlate).imp_right .inr
    · have hrings : (s.toInstant s.cdlNs).armRings b = s.armRings b := by
        simp only [State.armRings, State.ringLen, State.ent, hrse]
      rw [htck', hover.cons b (State.mem_lateArms.mpr ⟨hb, hdown, hrep⟩) (by rw [hrings]; exact hne), hcons]
    · obtain ⟨b, hb⟩ := List.exists_mem_of_ne_nil _ hsome
      obtain ⟨hb, hdown, hrep⟩ := State.mem_lateArms.mp hb
      have := hall b hb
      rw [hdown, hrep] at this
      simp at this

/-! ### Decide begin -/

/-- `t` is `s` after a part of Decide: memory, time, the frame unit's record and the arms begun are as before. -/
structure Decides (s t : State) : Prop where
  mem : t.mem = s.mem
  flash : t.flash = s.flash
  tickNs : t.tickNs = s.tickNs
  azf : t.azf = s.azf
  begun : t.rse.begun = s.rse.begun

theorem decides_refl (s : State) : Decides s s := ⟨rfl, rfl, rfl, rfl, rfl⟩

theorem decides_trans {s t u : State} (h : Decides s t) (k : Decides t u) : Decides s u :=
  ⟨k.mem.trans h.mem, k.flash.trans h.flash, k.tickNs.trans h.tickNs, k.azf.trans h.azf, k.begun.trans h.begun⟩

theorem decides_put (s : State) (f : Fld) (v : Nat) : Decides s (s.put f v) := ⟨rfl, rfl, rfl, rfl, rfl⟩

theorem decides_fault {s t : State} (h : FaultFrame s t) : Decides s t :=
  ⟨(congrArg State.mem h.rest :), (congrArg State.flash h.rest :), (congrArg State.tickNs h.rest :),
    (congrArg State.azf h.rest :), (congrArg (fun x : State => x.rse.begun) h.rest :)⟩

theorem decides_forEach {α : Type} {f : α → State → State} (h : ∀ a x, Decides x (f a x)) (l : List α) (s : State) :
    Decides s (forEach l f s) := by
  induction l generalizing s with
  | nil => exact decides_refl s
  | cons a t ih => exact decides_trans (h a s) (ih (f a s))

theorem decides_cleTrig (s : State) (n : Nat) : Decides s (s.cleTrig n) := by
  unfold State.cleTrig
  split
  · exact decides_refl s
  · split
    · exact ⟨rfl, rfl, rfl, rfl, rfl⟩
    · split
      · exact ⟨rfl, rfl, rfl, rfl, rfl⟩
      · exact ⟨rfl, rfl, rfl, rfl, rfl⟩

/-- The rings' state follows the breaks, and nothing else changes. -/
theorem State.ringFold_spec (s : State) : OnlyFields [R.AZF_RINGSTA_RSr] s s.ringFold := by
  unfold State.ringFold
  refine forUpTo_keeps (P := OnlyFields [R.AZF_RINGSTA_RSr] s) (fun r x hx => ?_) 16 (onlyFields_refl _ s)
  dsimp only
  split
  · exact onlyFields_put (by simp) hx
  · exact hx

theorem decides_only {l : List Fld} {s t : State} (h : OnlyFields l s t) : Decides s t := by
  obtain ⟨hrest, -⟩ := h
  exact ⟨(congrArg State.mem hrest :), (congrArg State.flash hrest :), (congrArg State.tickNs hrest :),
    (congrArg State.azf hrest :), (congrArg (fun x : State => x.rse.begun) hrest :)⟩

theorem decides_residue (s : State) (a : Nat) : Decides s (s.residue a).1 := by
  unfold State.residue
  dsimp only
  split
  · exact ⟨rfl, rfl, rfl, rfl, rfl⟩
  · dsimp only
    split
    · exact ⟨rfl, rfl, rfl, rfl, rfl⟩
    · exact ⟨rfl, rfl, rfl, rfl, rfl⟩

theorem decides_setEnt (s : State) (i : Nat) (e : CellEnt) : Decides s (s.setEnt i e) := ⟨rfl, rfl, rfl, rfl, rfl⟩

theorem decides_account (s : State) (a i : Nat) : Decides s (s.account a i) := by
  unfold State.account
  extract_lets e e'
  split
  · exact decides_setEnt s i _
  · split
    · exact decides_setEnt s i _
    · split
      · exact decides_setEnt s i _
      · exact decides_setEnt s i _

theorem decides_setInst (s : State) (a : Nat) (x : RseInst) : Decides s (s.setInst a x) := ⟨rfl, rfl, rfl, rfl, rfl⟩

theorem decides_if {s t u : State} {c : Prop} [Decidable c] (h : Decides s t) (k : Decides s u) :
    Decides s (if c then t else u) := by
  split
  · exact h
  · exact k

/-- Three fields put. -/
theorem decides_put3 (s : State) (f g h : Fld) (u v w : Nat) : Decides s (((s.put f u).put g v).put h w) :=
  decides_trans (decides_put s f u) (decides_trans (decides_put _ g v) (decides_put _ h w))

/-- The level count of an arm is noted, and nothing of the frame unit, of memory or of the time changes. -/
theorem decides_levelCount (s : State) (a : Nat) :
    Decides s (s.levelCount a) ∧ bitOf (s.levelCount a).rse.counted a = true := by
  generalize hr : s.levelCount a = r
  unfold State.levelCount at hr
  have hres := decides_residue s a
  generalize s.residue a = p at hr hres
  obtain ⟨t, rho⟩ := p
  have hacc := decides_trans hres (decides_forEach (fun i x => decides_account x a i) (t.armCells a) t)
  dsimp -zeta only at hr hacc
  extract_lets accounted v x vm vref x shown cells rows1 rows2 rows3 rows4 last at hr
  have hshown : Decides accounted shown := by
    refine decides_trans ?_ (decides_setInst _ a _)
    generalize vm = o
    split
    · exact decides_refl _
    · split
      · exact ⟨rfl, rfl, rfl, rfl, rfl⟩
      · exact decides_refl _
  have hcells : Decides shown cells := decides_forEach (fun i y => decides_setEnt y i _) _ shown
  have hrows1 : Decides cells rows1 := decides_put3 _ _ _ _ _ _ _
  have hrows2 : Decides rows1 rows2 := decides_put3 _ _ _ _ _ _ _
  have hrows3 : Decides rows2 rows3 := decides_put3 _ _ _ _ _ _ _
  have hrows4 : Decides rows3 rows4 := decides_put3 _ _ _ _ _ _ _
  have hlast : Decides rows4 last :=
    decides_if (decides_trans (decides_put _ _ _) (decides_put _ _ _)) (decides_refl _)
  clear_value last
  subst hr
  refine ⟨?_, (bitOf_setBitN _ _ _).trans (by simp)⟩
  refine decides_trans hacc (decides_trans hshown (decides_trans hcells (decides_trans hrows1 (decides_trans hrows2
    (decides_trans hrows3 (decides_trans hrows4 (decides_trans hlast ?_)))))))
  exact ⟨rfl, rfl, rfl, rfl, rfl⟩

theorem decides_decideStep (s : State) (a : Nat) : Decides s (s.decideStep a) := by
  unfold State.decideStep State.when
  split
  · obtain ⟨h, -⟩ := decides_levelCount s a
    exact h
  · exact decides_refl s

/-- The instant at which Decide of an arm may begin is reached (R38). -/
def State.decideInstant (s : State) (a : Nat) : State :=
  if s.expectsNone a then s.toInstant 400 else if s.allIn a then s else s.toInstant s.cutNs

/-- The instant of Decide begin is recorded, and that the arm has begun. -/
def State.decideBegun (s : State) (a : Nat) : State :=
  { s with azf := { s.azf with hdone := s.tickNs }, rse := { s.rse with begun := setBitN s.rse.begun a } }

/-- The arm has begun, the event is issued and the rings' state follows the breaks. -/
def State.decideIssued (s : State) (a : Nat) : State :=
  (((s.decideInstant a).decideBegun a).dsxIssue (0x11 + a) 1).ringFold

theorem State.decideBegin_eq {s : State} {a : Nat} (hs : s.isS = true) (hlock : s.lock = true)
    (hallowed : bitOf s.rse.allowed a = true) (hbegun : bitOf s.rse.begun a = false) :
    s.decideBegin a = ((s.decideIssued a).cleDecide a).decideStep a := by
  rw [State.decideBegin, hs, hlock, hallowed, hbegun]
  rfl

theorem State.decideInstant_spec (s : State) (a : Nat) :
    { s.decideInstant a with
      tickNs := s.tickNs, tck := s.tck, tbs := s.tbs, pwm := s.pwm, fcu := s.fcu, dsx := s.dsx, field := s.field } = s ∧
    (s.decideInstant a).tickNs =
      (if s.expectsNone a then max s.tickNs 400 else if s.allIn a then s.tickNs else max s.tickNs s.cutNs) := by
  obtain ⟨hnone, -, hnoneNs⟩ := s.toInstant_frame 400
  obtain ⟨hcut, -, hcutNs⟩ := s.toInstant_frame s.cutNs
  unfold State.decideInstant
  split
  · exact ⟨hnone, hnoneNs⟩
  · split
    · exact ⟨rfl, rfl⟩
    · exact ⟨hcut, hcutNs⟩

/-- From the instant on nothing of it changes before the level count. -/
theorem decides_decideIssued (s : State) (a : Nat) : Decides ((s.decideInstant a).decideBegun a) (s.decideIssued a) :=
  decides_trans (decides_fault (dsxIssue_frame _ _ _)) (decides_only (State.ringFold_spec _))

/-- A field that no event and no ring's state shows reads as before Decide. -/
theorem State.decideIssued_get (s : State) (a : Nat) {g : Fld} (hg : faultKey g.key = false)
    (hring : g.key ≠ R.AZF_RINGSTA_RSr.key) : (s.decideIssued a).get g = s.get g := by
  obtain ⟨-, hfold⟩ := (((s.decideInstant a).decideBegun a).dsxIssue (0x11 + a) 1).ringFold_spec
  obtain ⟨hinstant, -⟩ := s.decideInstant_spec a
  have hregs : (s.decideInstant a).regs = s.regs := (congrArg State.regs hinstant :)
  refine (hfold g (by simpa using hring)).trans (((dsxIssue_frame _ _ _).get g hg).trans ?_)
  show ((s.decideInstant a).decideBegun a).get g = s.get g
  rw [State.get, State.get]
  exact congrArg (fun l => alGet l g.key g.reset % 2 ^ g.width) hregs

/-- The configuration of the channels is not among the fields that Decide begin changes. -/
theorem cleConfig_keys (n : Nat) :
    (faultKey (R.CLE_CCFG_TRG n).key = false ∧ (R.CLE_CCFG_TRG n).key ≠ R.AZF_RINGSTA_RSr.key) ∧
    (faultKey (R.CLE_CCFG_ARM n).key = false ∧ (R.CLE_CCFG_ARM n).key ≠ R.AZF_RINGSTA_RSr.key) := by
  simp [faultKey, R.CLE_CCFG_TRG, R.CLE_CCFG_ARM, R.AZF_RINGSTA_RSr, R.RED_STA_STATE, R.PWM_IDEC_ROW, R.PWM_IDEC_NEXT,
    R.PWM_IDEC_TRIMP, fld]
  omega

theorem cleDue_keys : ∀ n : Fin 32,
    (faultKey (R.CLE_CCFG_EN n).key = false ∧ (R.CLE_CCFG_EN n).key ≠ R.AZF_RINGSTA_RSr.key) ∧
    (faultKey (R.CLE_CCFG_PHASE n).key = false ∧ (R.CLE_CCFG_PHASE n).key ≠ R.AZF_RINGSTA_RSr.key) ∧
    (faultKey (R.CLE_CCFG_DM1 n).key = false ∧ (R.CLE_CCFG_DM1 n).key ≠ R.AZF_RINGSTA_RSr.key) := by decide

/-- The channels that Decide begin triggers are those due before. -/
theorem State.decideIssued_channels (s : State) (a b : Nat) : (s.decideIssued a).decideChannels b = s.decideChannels b := by
  refine List.filter_congr fun n hn => ?_
  obtain ⟨⟨htrg, htrg'⟩, harm, harm'⟩ := cleConfig_keys n
  obtain ⟨⟨hen, hen'⟩, ⟨hph, hph'⟩, hdm, hdm'⟩ := cleDue_keys ⟨n, List.mem_range.mp hn⟩
  have htick : (s.decideIssued a).tick = s.tick := s.decideIssued_get a (by decide) (by decide)
  simp only [State.cleDue, State.on, htick, s.decideIssued_get a htrg htrg', s.decideIssued_get a harm harm',
    s.decideIssued_get a hen hen', s.decideIssued_get a hph hph', s.decideIssued_get a hdm hdm']

/-- What Decide begin leaves of the engine's and the Section's records. -/
theorem State.decideIssued_records (s : State) (a : Nat) :
    (s.decideIssued a).cle = s.cle ∧ (s.decideIssued a).rse = { s.rse with begun := setBitN s.rse.begun a } := by
  obtain ⟨hfold, -⟩ := (((s.decideInstant a).decideBegun a).dsxIssue (0x11 + a) 1).ringFold_spec
  have hissue := (dsxIssue_frame ((s.decideInstant a).decideBegun a) (0x11 + a) 1).rest
  obtain ⟨hinstant, -⟩ := s.decideInstant_spec a
  constructor
  · exact ((congrArg State.cle hfold :).trans (congrArg State.cle hissue :)).trans (congrArg State.cle hinstant :)
  · exact ((congrArg State.rse hfold :).trans (congrArg State.rse hissue :)).trans
      (congrArg (fun x : State => { x.rse with begun := setBitN x.rse.begun a }) hinstant :)

/-- An evaluation is waited for after Decide begin as before it. -/
theorem State.decideIssued_waits (s : State) (a b : Nat) : (s.decideIssued a).decideWaits b = s.decideWaits b := by
  obtain ⟨hcle, -⟩ := s.decideIssued_records a
  have hcfg : ∀ n, (s.decideIssued a).get (R.CLE_CCFG_TRG n) = s.get (R.CLE_CCFG_TRG n) ∧
      (s.decideIssued a).get (R.CLE_CCFG_ARM n) = s.get (R.CLE_CCFG_ARM n) := by
    intro n
    obtain ⟨⟨htrg, htrg'⟩, harm, harm'⟩ := cleConfig_keys n
    exact ⟨s.decideIssued_get a htrg htrg', s.decideIssued_get a harm harm'⟩
  simp only [State.decideWaits, hcle, hcfg]

/-- An arm that has begun and waits for nothing is counted. -/
theorem State.decideStep_counts {s : State} {a : Nat} (hbegun : bitOf s.rse.begun a = true)
    (hcounted : bitOf s.rse.counted a = false) (hreps : bitOf s.rse.reps a = false) (hwaits : s.decideWaits a = false) :
    s.decideStep a = s.levelCount a := by
  simp [State.decideStep, hbegun, hcounted, hreps, hwaits]

theorem answers_decideBegin {s : State} {a : Fin 2} (hrun : s.phase = .run) (hs : s.isS = true) (hlock : s.lock = true)
    (hallowed : bitOf s.rse.allowed a = true) (hbegun : bitOf s.rse.begun a = false) :
    Answers (.decideBegin a) s (fun t => bitOf t.rse.begun a = true ∧ (t.mem = s.mem ∧ t.flash = s.flash) ∧
      t.azf.hdone = t.tickNs ∧
      t.tickNs = (if s.expectsNone a then max s.tickNs 400 else if s.allIn a then s.tickNs else max s.tickNs s.cutNs) ∧
      (bitOf s.rse.counted a = false → bitOf s.rse.reps a = false → s.decideChannels a = [] → s.decideWaits a = false →
        bitOf t.rse.counted a = true)) := by
  refine answers_live (t := s.decideBegin a) rfl hrun ?_
  rw [State.decideBegin_eq hs hlock hallowed hbegun]
  obtain ⟨hinstant, htick⟩ := s.decideInstant_spec a
  obtain ⟨-, hrse⟩ := s.decideIssued_records a
  have hchannels : Decides (s.decideIssued a) ((s.decideIssued a).cleDecide a) :=
    decides_forEach (fun n x => decides_cleTrig x n) _ _
  have hall := decides_trans (decides_decideIssued s a) (decides_trans hchannels (decides_decideStep _ a))
  have hset : bitOf (setBitN s.rse.begun a) a = true := (bitOf_setBitN _ _ _).trans (by simp)
  refine ⟨?_, ⟨hall.mem.trans (congrArg State.mem hinstant :), hall.flash.trans (congrArg State.flash hinstant :)⟩, ?_,
    hall.tickNs.trans htick, fun hcounted hreps hnone hwaits => ?_⟩
  · rw [hall.begun]
    exact (congrArg (fun x : State => bitOf (setBitN x.rse.begun a) a) hinstant :).trans hset
  · rw [hall.azf, hall.tickNs]
    exact Eq.refl (s.decideInstant a).tickNs
  · have hstill : (s.decideIssued a).cleDecide a = s.decideIssued a := by
      rw [State.cleDecide, s.decideIssued_channels a, hnone]
      rfl
    obtain ⟨-, hcount⟩ := decides_levelCount (s.decideIssued a) a
    rw [hstill, State.decideStep_counts (by rw [hrse]; exact hset) (by rw [hrse]; exact hcounted) (by rw [hrse]; exact hreps)
      ((s.decideIssued_waits a a).trans hwaits)]
    exact hcount

/-! ### The loss of a trajectory -/

theorem answers_trajectoryLoss {s : State} {a : Fin 2} {j : Traj} (hrun : s.phase = .run) (hs : s.isS = true)
    (hlock : s.lock = true) (htraj : s.traj a = some j) (hheld : s.trajHeld j = true) (hraised : j.raised = false) :
    Answers (.trajectoryLoss a) s (fun t => t.traj a = some { j with raised := true } ∧
      t.bit (R.FCU_STK_STK 0) 2 = true ∧ FaultsAnd [] { s with azf := t.azf } t ∧
      Answers (.trajectoryLoss a) t (fun u => u = t)) := by
  let u : State := { s with azf := { s.azf with trajs := alPut s.azf.trajs a { j with raised := true } } }
  have hexec : exec (.trajectoryLoss a) s = .next (live s (u.fcuEvent 2)) := by
    show execTrajectoryLoss a s = _
    rw [execTrajectoryLoss, hs, hlock, State.trajLoss, htraj]
    simp [hheld, hraised, u]
  have hframe := fcuEvent_frame u 2
  have hazf : (u.fcuEvent 2).azf = u.azf := (congrArg State.azf hframe.rest :)
  have htold : (u.fcuEvent 2).traj a = some { j with raised := true } := by
    rw [State.traj, hazf]
    show alGet ((alPut s.azf.trajs a { j with raised := true }).map (fun p => (p.1, some p.2))) a Option.none = _
    rw [map_alPut, alGet_alPut_self]
  have hphase : (u.fcuEvent 2).phase = .run := (congrArg State.phase hframe.rest :).trans hrun
  refine answers_live hexec hrun ⟨htold, fcuEvent_sticky u (by decide) (by decide), ?_, ?_⟩
  · rw [hazf]
    exact faultsAnd_frame (faultsAnd_refl [] u) hframe
  · refine answers_live (t := u.fcuEvent 2) ?_ hphase rfl
    show execTrajectoryLoss a (u.fcuEvent 2) = _
    have honce : (u.fcuEvent 2).trajLoss a = u.fcuEvent 2 := by
      simp [State.trajLoss, htold]
    rw [execTrajectoryLoss, honce, State.when, ite_self]

/-! ### The statement -/

/-- Settles O42: Decide begin ends in the level count, the frames of the Broadcast and of the overrun leave memory outside the
Frame Pool and every other lane alone, and the deadline overruns exactly the arms that have no command frame. -/
theorem sectionDecidesAndBroadcasts : Obligations.SectionDecidesAndBroadcasts := by
  unfold Obligations.SectionDecidesAndBroadcasts
  intro s a hrun
  refine ⟨fun hs hlock hallowed hbegun => answers_decideBegin hrun hs hlock hallowed hbegun, fun hnot => ?_,
    fun c hact hlock hcounted hdowns hreps htime hcmd =>
      answers_broadcast hrun hact hlock hcounted hdowns hreps htime hcmd,
    fun hserved => ?_, fun hact hlock => answers_commandDeadline hrun hact hlock, fun hs hlock => ?_,
    fun j hs hlock htraj hheld hraised => answers_trajectoryLoss hrun hs hlock htraj hheld hraised⟩
  · refine answers_live (t := s.decideBegin a) rfl hrun ?_
    rcases hnot with h | h | h
    · simp [State.decideBegin, h]
    · simp [State.decideBegin, h]
    · simp [State.decideBegin, h]
  · refine answers_live (t := s) ?_ hrun rfl
    show execBroadcast a s = _
    rcases hserved with h | h
    · simp [execBroadcast, h]
    · simp [execBroadcast, h]
  · obtain ⟨hrest, -, htick⟩ := s.toInstant_frame s.cutNs
    generalize hu : s.toInstant s.cutNs = u at hrest htick
    refine answers_live (t := u) ?_ hrun ⟨htick, (congrArg State.regs hrest :), (congrArg State.rse hrest :),
      (congrArg State.out hrest :), (congrArg State.mem hrest :), (congrArg State.flash hrest :)⟩
    show execHarvestCutoff s = _
    rw [execHarvestCutoff, hs, hlock, Bool.and_self, State.when_true, hu]

end Sys2Proof.Machine
end

/-! Reading bits of a field, several FLT bits raised in one cycle, and time that passes. -/

section
namespace Sys2Proof.Machine

/-! ### Bits of a field -/

/-- A bit cleared reads 0, and every other bit as before. -/
theorem bitOf_clrBitN (v n k : Nat) : bitOf (clrBitN v n) k = (!decide (k = n) && bitOf v k) := by
  unfold clrBitN
  by_cases hn : bitOf v n = true
  · have hle : 2 ^ n ≤ v := Nat.ge_two_pow_of_testBit (by rwa [← bitOf_eq_testBit])
    obtain ⟨w, rfl⟩ : ∃ w, v = w + 2 ^ n := ⟨v - 2 ^ n, by omega⟩
    have hclear : w.testBit n = false := by
      rw [bitOf_eq_testBit, Nat.add_comm, Nat.testBit_two_pow_add_eq] at hn
      simpa using hn
    rw [if_pos hn, Nat.add_sub_cancel, bitOf_eq_testBit, bitOf_eq_testBit]
    by_cases hk : k = n
    · simp [hk, hclear]
    · simp [hk, testBit_add_two_pow_ne hclear hk]
  · rw [if_neg hn]
    by_cases hk : k = n
    · simpa [hk] using hn
    · simp [hk]

/-- A bit within the width of a field reads what was put there. -/
theorem State.bit_put_self (s : State) {f : Fld} (v : Nat) {k : Nat} (hk : k < f.width) : (s.put f v).bit f k = bitOf v k := by
  rw [State.bit, State.get_put_self, bitOf_eq_testBit, Nat.testBit_mod_two_pow, bitOf_eq_testBit]
  simp [hk]

/-- A bit set or cleared reads so, and the others of the field as before. -/
theorem State.bit_putBit_eq (s : State) {f : Fld} (n : Nat) (b : Bool) {k : Nat} (hk : k < f.width) :
    (s.putBit f n b).bit f k = if k = n then b else s.bit f k := by
  rw [State.putBit, State.bit_put_self _ _ hk]
  cases b with
  | true => by_cases h : k = n <;> simp [bitOf_setBitN, State.bit, h]
  | false => by_cases h : k = n <;> simp [bitOf_clrBitN, State.bit, h]

/-- A bit that reads as a field does which has not changed. -/
theorem State.bit_congr {s t : State} {f : Fld} (h : t.get f = s.get f) (k : Nat) : t.bit f k = s.bit f k := by
  rw [State.bit, State.bit, h]

/-! ### FLT bits raised in one cycle -/

/-- The FLT bits `ks` of page `p` are set, before they are counted and routed. -/
def State.fltSet (s : State) (p : Nat) (ks : List Nat) : State := forEach ks (fun k x => x.putBit (R.FLT p) k true) s

theorem State.fltSet_cons (s : State) (p k : Nat) (ks : List Nat) :
    s.fltSet p (k :: ks) = (s.putBit (R.FLT p) k true).fltSet p ks := rfl

theorem State.fltSet_only (s : State) (p : Nat) (ks : List Nat) : OnlyFields [R.FLT p] s (s.fltSet p ks) := by
  unfold State.fltSet forEach
  refine List.foldlRecOn ks _ (onlyFields_refl _ s) fun t ht k _ => ?_
  exact onlyFields_putBit List.mem_cons_self ht

/-- A bit once set stays set, and each of those named is. -/
theorem State.fltSet_bit {s : State} {p : Nat} {ks : List Nat} {k : Nat} (hk : k < 32)
    (h : k ∈ ks ∨ s.bit (R.FLT p) k = true) : (s.fltSet p ks).bit (R.FLT p) k = true := by
  induction ks generalizing s with
  | nil => exact h.resolve_left List.not_mem_nil
  | cons a t ih =>
    rw [State.fltSet_cons]
    rcases h with h | h
    · rcases List.mem_cons.mp h with rfl | h
      · exact ih (.inr (State.bit_putBit rfl hk (.inl rfl)))
      · exact ih (.inl h)
    · exact ih (.inr (State.bit_putBit rfl hk (.inr h)))

theorem fltKey_ne_fctKey (p : Nat) : (R.FCT p).key ≠ (R.FLT p).key := by
  simp only [R.FCT, R.FLT, fld]
  omega

/-- The bits raised are set, and the ones that FEN names are counted and make one event. -/
theorem raiseFlts_cases (s : State) (p : Nat) (ks : List Nat) : s.raiseFlts p ks = s.fltSet p ks ∨
    ∃ m, s.raiseFlts p ks = ((s.fltSet p ks).addSat (R.FCT p) m).fcuEvent (0x40 + p) := by
  unfold State.raiseFlts
  dsimp only
  split
  · exact .inl rfl
  · exact .inr ⟨_, rfl⟩

theorem raiseFlts_faults (s : State) (p : Nat) (ks : List Nat) : FaultsAnd [R.FLT p, R.FCT p] s (s.raiseFlts p ks) := by
  obtain ⟨hrest, hget⟩ := s.fltSet_only p ks
  have hset : FaultsAnd [R.FLT p, R.FCT p] s (s.fltSet p ks) :=
    faultsAnd_only ⟨hrest, fun g hg => hget g fun h => hg (List.mem_cons.mpr (.inl (by simpa using h)))⟩
  rcases raiseFlts_cases s p ks with h | ⟨m, h⟩
  · rw [h]
    exact hset
  · rw [h]
    exact faultsAnd_fcuEvent (faultsAnd_put (by simp) hset)

/-- The FLT bits raised are set, whatever the event behind them does (pages other than the FCU's and the dispatcher's). -/
theorem raiseFlts_bit {s : State} {p : Nat} {ks : List Nat} {k : Nat} (hp : faultKey (R.FLT p).key = false) (hk : k < 32)
    (hmem : k ∈ ks) : (s.raiseFlts p ks).bit (R.FLT p) k = true := by
  have hset : (s.fltSet p ks).bit (R.FLT p) k = true := State.fltSet_bit hk (.inl hmem)
  rcases raiseFlts_cases s p ks with h | ⟨m, h⟩
  · rw [h]
    exact hset
  · have hget : (s.raiseFlts p ks).get (R.FLT p) = (s.fltSet p ks).get (R.FLT p) := by
      rw [h, (fcuEvent_frame _ _).get _ hp, State.addSat, State.get_put_ne _ _ _ _ (fltKey_ne_fctKey p)]
    rw [State.bit_congr hget]
    exact hset

/-- One FLT bit raised is a cycle with that bit alone. -/
theorem raiseFlt_eq_raiseFlts (s : State) (p k : Nat) : s.raiseFlt p k = s.raiseFlts p [k] := by
  have hne : (R.FLT p).key ≠ (R.FEN p).key := by
    simp only [R.FEN, R.FLT, fld]
    omega
  have hfen : (s.putBit (R.FLT p) k true).bit (R.FEN p) k = s.bit (R.FEN p) k := State.bit_congr (State.get_put_ne _ _ _ _ hne) k
  simp only [State.raiseFlt, State.raiseFlts, hfen, forEach, List.foldl_cons, List.foldl_nil]
  cases hb : s.bit (R.FEN p) k with
  | true => simp [hb, State.incSat]
  | false => simp [hb]

/-- What a condition selects of one FLT bit. -/
theorem chosen_one (b : Bool) (k : Nat) : chosen [(b, k)] = if b then [k] else [] := by cases b <;> rfl

/-! ### Time -/

/-- Time that passes changes the clocks, and nothing else. -/
theorem State.elapse_frame (s : State) (dt : Nat) :
    { s.elapse dt with
      tickNs := s.tickNs, tck := s.tck, tbs := s.tbs, pwm := s.pwm, fcu := s.fcu, dsx := s.dsx, field := s.field } = s ∧
    (s.elapse dt).fcu.timeNs = s.fcu.timeNs + dt := by
  have htbs : { s.tbsAdvance dt with tck := s.tck, tbs := s.tbs } = s ∧ (s.tbsAdvance dt).fcu = s.fcu := by
    unfold State.tbsAdvance
    split
    · exact ⟨rfl, rfl⟩
    · exact ⟨rfl, rfl⟩
  obtain ⟨hrest, hfcu⟩ := htbs
  have hrest' := congrArg (fun x : State =>
    { x with tickNs := s.tickNs, pwm := s.pwm, fcu := s.fcu, dsx := s.dsx, field := s.field }) hrest
  have htime : (s.tbsAdvance dt).fcu.timeNs + dt = s.fcu.timeNs + dt := by rw [hfcu]
  unfold State.elapse
  dsimp only
  split
  · exact ⟨hrest', htime⟩
  · exact ⟨hrest', htime⟩

end Sys2Proof.Machine
end

/-! O14, first part: the supply and the die temperature. -/

section
namespace Sys2Proof.Machine

/-! ### VIN -/

/-- The fields of PWR.VIN. -/
def vinFields : List Fld := [R.PWR_VIN_VIN, R.PWR_VIN_VMIN]

/-- Beside the record of the supply, VIN changes its own two fields. -/
theorem State.setVin_only (s : State) (v : Nat) : OnlyFields vinFields { s with pwr := (s.setVin v).pwr } (s.setVin v) :=
  onlyFields_put (by simp [vinFields]) (onlyFields_put (by simp [vinFields]) (onlyFields_refl _ _))

theorem State.setVin_vin (s : State) (v : Nat) : (s.setVin v).get R.PWR_VIN_VIN = v % 2 ^ 16 := by
  unfold State.setVin
  dsimp only
  rw [State.get_put_ne _ _ _ _ (by decide), State.get_put_self]
  rfl

/-- The lowest value follows VIN down. -/
theorem State.setVin_vmin (s : State) (v : Nat) :
    (s.setVin v).get R.PWR_VIN_VMIN = min v (s.get R.PWR_VIN_VMIN) % 2 ^ 16 := by
  unfold State.setVin
  dsimp only
  rw [State.get_put_self, State.get_put_ne _ _ _ _ (by decide)]
  rfl

/-- The excursion of VIN counted and raised. -/
def State.vinRaised (s : State) : State :=
  ((s.hourly (fun a => { a with vinx := a.vinx + 1 })).fcuEvent 0x13).raiseFlt 2 Flt.PWR_VINX

theorem State.vinRaised_faults (s : State) : FaultsAnd [R.FLT 2, R.FCT 2] s s.vinRaised :=
  faultsAnd_raiseFlt (by simp) (by simp) (faultsAnd_fcuEvent (faultsAnd_hourly (faultsAnd_refl _ s)))

/-- A chain that changes fewer fields. -/
theorem FaultsAnd.mono {l m : List Fld} {s t : State} (h : FaultsAnd l s t) (hlm : l ⊆ m) : FaultsAnd m s t :=
  ⟨h.1, fun g hg => h.2 g fun hl => hg (List.map_subset _ hlm hl)⟩

theorem OnlyFields.mono {l m : List Fld} {s t : State} (h : OnlyFields l s t) (hlm : l ⊆ m) : OnlyFields m s t :=
  ⟨h.1, fun g hg => h.2 g fun hl => hg (List.map_subset _ hlm hl)⟩

/-- A report of VIN between 8 V and 20 V. -/
theorem exec_vinExcursion {s : State} {vin : Nat} (hrun : s.phase = .run) (hlow : 2048 ≤ vin) (hhigh : vin ≤ 5120) :
    exec (.vinExcursion vin) s =
      .next (if vin < 2304 ∨ 4608 < vin then (s.setVin vin).vinRaised else s.setVin vin) := by
  show execVinExcursion vin s = _
  rw [execVinExcursion, if_neg (by omega), if_neg (by omega)]
  dsimp only
  rw [live_run (show (s.setVin vin).phase = .run from hrun)]
  rfl

theorem answers_vinOutside {s : State} {vin : Nat} (hrun : s.phase = .run)
    (hout : (2048 ≤ vin ∧ vin < 2304) ∨ (4608 < vin ∧ vin ≤ 5120)) :
    Answers (.vinExcursion vin) s (fun t => t.get R.PWR_VIN_VIN = vin % 2 ^ 16 ∧
      t.get R.PWR_VIN_VMIN = min vin (s.get R.PWR_VIN_VMIN) % 2 ^ 16 ∧ t.bit (R.FLT 2) Flt.PWR_VINX = true ∧
      FaultsAnd [R.PWR_VIN_VIN, R.PWR_VIN_VMIN, R.FLT 2, R.FCT 2] { s with pwr := t.pwr } t) := by
  obtain ⟨hrest, hget⟩ := (s.setVin vin).vinRaised_faults
  have hpwr : (s.setVin vin).vinRaised.pwr = (s.setVin vin).pwr := (congrArg State.pwr hrest :)
  refine ⟨(s.setVin vin).vinRaised, ?_, ?_, ?_, raiseFlt_bit _ _ _ (by decide) (by decide), ?_⟩
  · rw [exec_vinExcursion hrun (by omega) (by omega), if_pos (by omega)]
  · rw [hget _ (by decide) (by decide), State.setVin_vin]
  · rw [hget _ (by decide) (by decide), State.setVin_vmin]
  · rw [hpwr]
    exact faultsAnd_trans (faultsAnd_only ((s.setVin_only vin).mono (by simp [vinFields])))
      (FaultsAnd.mono ⟨hrest, hget⟩ (by simp))

theorem answers_vinInside {s : State} {vin : Nat} (hrun : s.phase = .run) (hlow : 2304 ≤ vin) (hhigh : vin ≤ 4608) :
    Answers (.vinExcursion vin) s (fun t => t.get R.PWR_VIN_VIN = vin % 2 ^ 16 ∧
      OnlyFields [R.PWR_VIN_VIN, R.PWR_VIN_VMIN] { s with pwr := t.pwr } t) := by
  refine ⟨s.setVin vin, ?_, s.setVin_vin vin, s.setVin_only vin⟩
  rw [exec_vinExcursion hrun (by omega) (by omega), if_neg (by omega)]

/-! ### Rails -/

theorem answers_railBack {s : State} {rail : Fin 6} (hrun : s.phase = .run) :
    Answers (.railExcursion rail true) s (fun t => OnlyFields [R.PWR_RAIL_OK] s t ∧ t.bit R.PWR_RAIL_OK rail = true ∧
      ∀ k : Fin 6, k ≠ rail → t.bit R.PWR_RAIL_OK k = s.bit R.PWR_RAIL_OK k) := by
  refine answers_live (t := s.putBit R.PWR_RAIL_OK rail true) rfl hrun
    ⟨onlyFields_putBit (by simp) (onlyFields_refl _ s), ?_, fun k hk => ?_⟩
  · rw [State.bit_putBit_eq _ _ _ rail.isLt, if_pos rfl]
  · rw [State.bit_putBit_eq _ _ _ k.isLt, if_neg (fun h => hk (Fin.ext h))]

theorem answers_railOut {s : State} {rail : Fin 6} (hrun : s.phase = .run) (hgated : s.railGated rail = false) :
    Answers (.railExcursion rail false) s (fun t => t.bit R.PWR_RAIL_OK rail = false ∧
      (∀ k : Fin 6, k ≠ rail → t.bit R.PWR_RAIL_OK k = s.bit R.PWR_RAIL_OK k) ∧
      t.bit (R.FLT 2) Flt.PWR_RAIL = true ∧ FaultsAnd [R.PWR_RAIL_OK, R.FLT 2, R.FCT 2] s t) := by
  have hkeep : ∀ k, ((s.putBit R.PWR_RAIL_OK rail false).raiseFlt 2 Flt.PWR_RAIL).bit R.PWR_RAIL_OK k =
      (s.putBit R.PWR_RAIL_OK rail false).bit R.PWR_RAIL_OK k :=
    State.bit_congr (raiseFlt_get _ _ _ _ (by decide) (by decide) (by decide))
  refine answers_live (t := (s.putBit R.PWR_RAIL_OK rail false).raiseFlt 2 Flt.PWR_RAIL) ?_ hrun
    ⟨?_, fun k hk => ?_, raiseFlt_bit _ _ _ (by decide) (by decide),
      faultsAnd_raiseFlt (by simp) (by simp) (faultsAnd_only (onlyFields_putBit (by simp) (onlyFields_refl _ s)))⟩
  · show execRailExcursion rail false s = _
    rw [execRailExcursion, hgated, if_neg Bool.false_ne_true, Bool.not_false, State.when_true]
  · rw [hkeep, State.bit_putBit_eq _ _ _ rail.isLt, if_pos rfl]
  · rw [hkeep, State.bit_putBit_eq _ _ _ k.isLt, if_neg (fun h => hk (Fin.ext h))]

theorem exec_railGated {s : State} {rail : Fin 6} (hgated : s.railGated rail = true) :
    exec (.railExcursion rail false) s = .next (live s s) := by
  show execRailExcursion rail false s = _
  rw [execRailExcursion, hgated, if_neg Bool.false_ne_true, Bool.not_true, State.when_false]

/-! ### The die temperature -/

/-- The state as it takes a die temperature, before that is held against TLIM. -/
def State.dieTold (s : State) (d : Int) : State :=
  ({ s with pwr := { s.pwr with thHold := s.pwr.thHold && decide (1600 ≤ d) } } : State).putS R.ALM_TDIE_TDIE d

theorem State.dieTold_only (s : State) (d : Int) : OnlyFields [R.ALM_TDIE_TDIE] { s with pwr := (s.dieTold d).pwr } (s.dieTold d) :=
  onlyFields_putS (by simp) (onlyFields_refl _ _)

theorem State.dieTold_tdie (s : State) (d : Int) : (s.dieTold d).get R.ALM_TDIE_TDIE = ofSigned 16 d % 2 ^ 16 :=
  State.get_put_self ..

theorem exec_dieTemperature {s : State} {d : Int} (hrun : s.phase = .run) : exec (.dieTemperatureLimit d) s =
    .next ((s.dieTold d).when (s.getS R.ALM_TDIE_TLIM < d) (((s.dieTold d).fcuEvent 0x14).raiseFlt 4 Flt.ALM_TLIM)) := by
  have htlim : (s.dieTold d).getS R.ALM_TDIE_TLIM = s.getS R.ALM_TDIE_TLIM :=
    congrArg (toSigned 16) (State.get_put_ne _ _ _ _ (by decide))
  rw [← htlim]
  show execDieTemperatureLimit d s = _
  rw [execDieTemperatureLimit]
  dsimp only
  rw [live_run (by exact hrun)]
  rfl

theorem answers_dieOver {s : State} {d : Int} (hrun : s.phase = .run) (hover : s.getS R.ALM_TDIE_TLIM < d) :
    Answers (.dieTemperatureLimit d) s (fun t =>
      t.get R.ALM_TDIE_TDIE = ofSigned 16 d % 2 ^ 16 ∧ t.bit (R.FLT 4) Flt.ALM_TLIM = true ∧
      FaultsAnd [R.ALM_TDIE_TDIE, R.FLT 4, R.FCT 4] { s with pwr := t.pwr } t) := by
  have hraised : FaultsAnd [R.FLT 4, R.FCT 4] (s.dieTold d) (((s.dieTold d).fcuEvent 0x14).raiseFlt 4 Flt.ALM_TLIM) :=
    faultsAnd_raiseFlt (by simp) (by simp) (faultsAnd_fcuEvent (faultsAnd_refl _ _))
  obtain ⟨hrest, hget⟩ := hraised
  have hpwr : (((s.dieTold d).fcuEvent 0x14).raiseFlt 4 Flt.ALM_TLIM).pwr = (s.dieTold d).pwr := (congrArg State.pwr hrest :)
  refine ⟨((s.dieTold d).fcuEvent 0x14).raiseFlt 4 Flt.ALM_TLIM, ?_, ?_, raiseFlt_bit _ _ _ (by decide) (by decide), ?_⟩
  · rw [exec_dieTemperature hrun, decide_eq_true hover, State.when_true]
  · rw [hget _ (by decide) (by decide), State.dieTold_tdie]
  · rw [hpwr]
    exact faultsAnd_trans (faultsAnd_only ((s.dieTold_only d).mono (by simp))) (FaultsAnd.mono ⟨hrest, hget⟩ (by simp))

theorem answers_dieWithin {s : State} {d : Int} (hrun : s.phase = .run) (hwithin : d ≤ s.getS R.ALM_TDIE_TLIM) :
    Answers (.dieTemperatureLimit d) s (fun t =>
      t.get R.ALM_TDIE_TDIE = ofSigned 16 d % 2 ^ 16 ∧ OnlyFields [R.ALM_TDIE_TDIE] { s with pwr := t.pwr } t) := by
  refine ⟨s.dieTold d, ?_, s.dieTold_tdie d, s.dieTold_only d⟩
  rw [exec_dieTemperature hrun, decide_eq_false (not_lt.mpr hwithin), State.when_false]

end Sys2Proof.Machine
end

/-! The lanes: what the operations of a transmitter, a departure and the FLT bits of its cause change. -/

section
namespace Sys2Proof.Machine

/-! ### The transmitter -/

/-- `t` is `s` but for the records of the lanes and for what has been sent. -/
def OnlyLanes (s t : State) : Prop := { t with lanes := s.lanes, out := s.out } = s

theorem onlyLanes_trans {s t u : State} (h : OnlyLanes s t) (k : OnlyLanes t u) : OnlyLanes s u :=
  (congrArg (fun x : State => { x with lanes := s.lanes, out := s.out }) k :).trans h

/-- Registers are not among what the transmitters change. -/
theorem OnlyLanes.get {s t : State} (h : OnlyLanes s t) (g : Fld) : t.get g = s.get g := by
  have hregs : t.regs = s.regs := (congrArg State.regs h :)
  rw [State.get, State.get, hregs]

/-- What a lane's transmitter puts on the line between frames changes nothing of the lane but the line. -/
def LineOnly (l m : LaneState) : Prop := { m with scr := l.scr, last := l.last, line := l.line, lineEnd := l.lineEnd } = l

theorem State.idleTo_spec (s : State) (n : Nat) :
    { s.idleTo n with lanes := s.lanes } = s ∧ LineOnly (s.lane n) ((s.idleTo n).lane n) := by
  unfold State.idleTo
  dsimp only
  split
  · exact ⟨rfl, by rw [State.lane_setLane]; rfl⟩
  · exact ⟨rfl, by rw [State.lane_setLane]; rfl⟩

theorem State.idleTo_only (s : State) (n : Nat) : OnlyLanes s (s.idleTo n) :=
  (congrArg (fun x : State => { x with out := s.out }) (s.idleTo_spec n).1 :)

theorem State.putLine_spec (s : State) (n : Nat) (b : List Block) :
    OnlyLanes s (s.putLine n b) ∧ LineOnly (s.lane n) ((s.putLine n b).lane n) := by
  unfold State.putLine State.when
  dsimp only
  split
  · exact ⟨rfl, by rw [State.lane_setLane]; rfl⟩
  · exact ⟨rfl, rfl⟩

/-- A frame cut off takes the block history of its lane along, and nothing of the lane's reception. -/
theorem State.cutTxAt_spec (s : State) (n z : Nat) :
    OnlyLanes s (s.cutTxAt n z) ∧ ((s.cutTxAt n z).lane n).badHdr = (s.lane n).badHdr := by
  unfold State.cutTxAt
  split
  · exact ⟨rfl, rfl⟩
  · split
    · exact ⟨rfl, rfl⟩
    · refine ⟨rfl, ?_⟩
      dsimp only
      show ((State.setLane _ n _).lane n).badHdr = _
      rw [State.lane_setLane]
      split
      · rfl
      · rfl

theorem State.cutTx_only (s : State) (n : Nat) : OnlyLanes s (s.cutTx n) := (s.cutTxAt_spec n _).1

theorem State.cutTx_badHdr (s : State) (n m : Nat) : ((s.cutTx m).lane n).badHdr = (s.lane n).badHdr := by
  by_cases h : m = n
  · subst h
    exact (s.cutTxAt_spec m _).2
  · unfold State.cutTx State.cutTxAt
    split
    · rfl
    · split
      · rfl
      · exact congrArg LaneState.badHdr (State.lane_setLane_ne _ _ _ _ h)

/-- Every relay of a frame cut off: transmitters change, and no lane's reception. -/
theorem State.cutRelays_spec (s : State) (n : Nat) :
    OnlyLanes s (s.cutRelays n) ∧ ∀ m, ((s.cutRelays n).lane m).badHdr = (s.lane m).badHdr := by
  unfold State.cutRelays forUpTo
  refine List.foldlRecOn (List.range 20) _ (motive := fun t => OnlyLanes s t ∧ ∀ m, (t.lane m).badHdr = (s.lane m).badHdr)
    ⟨rfl, fun _ => rfl⟩ fun t ht m _ => ?_
  obtain ⟨honly, hhdr⟩ := ht
  dsimp only
  split
  · exact ⟨onlyLanes_trans honly (t.cutTx_only m), fun k => (t.cutTx_badHdr k m).trans (hhdr k)⟩
  · exact ⟨honly, hhdr⟩

/-- Where no relay is under way from the lane, none is cut off. -/
theorem State.cutRelays_idle {s : State} {n : Nat} (h : s.arriving n = false) : s.cutRelays n = s := by
  have hnone : ∀ m ∈ List.range 20, s.relaysFrom m n = false := by simpa [State.arriving] using h
  unfold State.cutRelays forUpTo
  refine List.foldlRecOn (List.range 20) _ (motive := fun t => t = s) rfl fun t ht m hm => ?_
  dsimp only
  rw [ht, hnone m hm, if_neg Bool.false_ne_true]

/-- A frame arrives by what the transmitters send, not by what a receiver has read. -/
theorem State.arriving_setLane {s : State} {n : Nat} {l : LaneState} (hl : l.tx = (s.lane n).tx) (k : Nat) :
    (s.setLane n l).arriving k = s.arriving k := by
  have htx : ∀ m, ((s.setLane n l).lane m).tx = (s.lane m).tx := by
    intro m
    by_cases h : n = m
    · subst h
      rw [State.lane_setLane, hl]
    · rw [State.lane_setLane_ne _ _ _ _ h]
  simp only [State.arriving, State.relaysFrom, htx]
  rfl

/-! ### What the commands of a lane leave alone -/

/-- `t` is `s` after a step of a lane that changes no register fields but those of `l`: memory, flash and what the frame unit
keeps stand. -/
structure LaneFrame (l : List Fld) (s t : State) : Prop where
  mem : t.mem = s.mem
  flash : t.flash = s.flash
  azf : t.azf = s.azf
  get : KeepsFieldsBut l s t

theorem laneFrame_refl (l : List Fld) (s : State) : LaneFrame l s s := ⟨rfl, rfl, rfl, fun _ _ => rfl⟩

theorem laneFrame_trans {l : List Fld} {s t u : State} (h : LaneFrame l s t) (k : LaneFrame l t u) : LaneFrame l s u :=
  ⟨k.mem.trans h.mem, k.flash.trans h.flash, k.azf.trans h.azf, fun g hg => (k.get g hg).trans (h.get g hg)⟩

theorem LaneFrame.mono {l m : List Fld} {s t : State} (h : LaneFrame l s t) (hlm : l ⊆ m) : LaneFrame m s t :=
  ⟨h.mem, h.flash, h.azf, fun g hg => h.get g fun hl => hg (List.map_subset _ hlm hl)⟩

/-- One more field put. -/
theorem laneFrame_put {l : List Fld} {s t : State} {f : Fld} {v : Nat} (hf : f ∈ l) (h : LaneFrame l s t) :
    LaneFrame l s (t.put f v) :=
  laneFrame_trans h ⟨rfl, rfl, rfl, fun _ hg => State.get_put_ne _ _ _ _ fun e => hg (e ▸ List.mem_map_of_mem hf)⟩

theorem laneFrame_incSat {l : List Fld} {s t : State} {f : Fld} (hf : f ∈ l) (h : LaneFrame l s t) :
    LaneFrame l s (t.incSat f) := laneFrame_put hf h

theorem laneFrame_lanes {l : List Fld} {s t u : State} (h : LaneFrame l s t) (k : OnlyLanes t u) : LaneFrame l s u :=
  laneFrame_trans h ⟨(congrArg State.mem k :), (congrArg State.flash k :), (congrArg State.azf k :), fun g _ => k.get g⟩

theorem laneFrame_setLane {l : List Fld} {s t : State} {n : Nat} {x : LaneState} (h : LaneFrame l s t) :
    LaneFrame l s (t.setLane n x) := laneFrame_lanes h rfl

theorem laneFrame_elapse {l : List Fld} {s t : State} {dt : Nat} (h : LaneFrame l s t) : LaneFrame l s (t.elapse dt) := by
  obtain ⟨hrest, -⟩ := t.elapse_frame dt
  have hregs : (t.elapse dt).regs = t.regs := (congrArg State.regs hrest :)
  exact laneFrame_trans h ⟨(congrArg State.mem hrest :), (congrArg State.flash hrest :), (congrArg State.azf hrest :),
    fun g _ => by rw [State.get, State.get, hregs]⟩

/-- FLT bits raised touch neither memory nor the frame unit, and send no frame. -/
theorem raiseFlts_rest (s : State) (p : Nat) (ks : List Nat) :
    (s.raiseFlts p ks).mem = s.mem ∧ (s.raiseFlts p ks).flash = s.flash ∧
    (s.raiseFlts p ks).azf = s.azf ∧ (s.raiseFlts p ks).out = s.out := by
  obtain ⟨hrest, -⟩ := raiseFlts_faults s p ks
  exact ⟨(congrArg State.mem hrest :), (congrArg State.flash hrest :), (congrArg State.azf hrest :), (congrArg State.out hrest :)⟩

/-- The status and the counters of a lane that its departures change. -/
def laneRegs (n : Nat) : List Fld :=
  [R.AZL_LSTAT_STATE n, R.AZL_LSTAT_INSVC n, R.AZL_ABTC_ABT n, R.AZL_CNT_LOSC n, R.AZL_CNT_LOLC n]

theorem laneRegs_keys : ∀ n : Fin 20, faultKey (R.FLT (lanePage n)).key = false ∧ ∀ f ∈ laneRegs n,
    f.key ∉ [R.FLT (lanePage n), R.FCT (lanePage n)].map Fld.key ∧ faultKey f.key = false := by decide

theorem raiseFlts_lane (s : State) (n : Fin 20) (ks : List Nat) {f : Fld} (hf : f ∈ laneRegs n) :
    (s.raiseFlts (lanePage n) ks).get f = s.get f := by
  obtain ⟨-, hkeys⟩ := laneRegs_keys n
  obtain ⟨hflt, hfault⟩ := hkeys f hf
  obtain ⟨-, hget⟩ := raiseFlts_faults s (lanePage n) ks
  exact hget f hflt hfault

theorem raiseFlts_laneSt (s : State) (n : Fin 20) (ks : List Nat) : (s.raiseFlts (lanePage n) ks).laneSt n = s.laneSt n :=
  raiseFlts_lane s n ks (by simp [laneRegs])

theorem raiseFlts_inSvc (s : State) (n : Fin 20) (ks : List Nat) : (s.raiseFlts (lanePage n) ks).inSvc n = s.inSvc n := by
  rw [State.inSvc, State.on, raiseFlts_lane s n ks (by simp [laneRegs])]
  rfl

theorem raiseFlts_laneBit (s : State) (n : Fin 20) {ks : List Nat} {k : Nat} (hk : k < 32) (hmem : k ∈ ks) :
    (s.raiseFlts (lanePage n) ks).bit (R.FLT (lanePage n)) k = true := by
  obtain ⟨hflt, -⟩ := laneRegs_keys n
  exact raiseFlts_bit hflt hk hmem

/-! ### The operations of the state machine -/

theorem frameEnds_frame (s : State) (n : Nat) : LaneFrame [R.AZL_ABTC_ABT n] s (s.frameEnds n) :=
  laneFrame_incSat (by simp) (laneFrame_lanes (laneFrame_refl _ s) (s.cutRelays_spec n).1)

theorem frameEnds_abt (s : State) (n : Nat) : (s.frameEnds n).get (R.AZL_ABTC_ABT n) =
    min (s.get (R.AZL_ABTC_ABT n) + 1) (2 ^ (R.AZL_ABTC_ABT n).width - 1) := by
  rw [State.frameEnds, State.get_incSat_self, (s.cutRelays_spec n).1.get]

theorem laneEnter_frame (s : State) (n st : Nat) : LaneFrame [R.AZL_LSTAT_STATE n] s (s.laneEnter n st) :=
  laneFrame_put (by simp) (laneFrame_setLane (laneFrame_lanes (laneFrame_refl _ s) (s.idleTo_only n)))

theorem laneEnter_laneSt (s : State) (n st : Nat) : (s.laneEnter n st).laneSt n = st % 8 := State.get_put_self ..

/-- Entry to WAKE. -/
theorem laneWake_laneSt (s : State) (n : Nat) : (s.laneWake n).laneSt n = 1 := State.get_put_self ..

def wakeFields (n : Nat) : List Fld :=
  [R.AZL_TXEQ_PRE n, R.AZL_TXEQ_MAIN n, R.AZL_TXEQ_POST n, R.AZL_LSTAT_TXPREC n, R.AZL_LSTAT_RXPREC n, R.AZL_LSTAT_BLKLK n,
    R.CLK_LANELK_LK, R.AZL_LSTAT_STATE n]

theorem laneWake_frame (s : State) (n : Nat) : LaneFrame (wakeFields n) s (s.laneWake n) := by
  unfold State.laneWake
  dsimp only
  refine laneFrame_put (by simp [wakeFields]) <| laneFrame_put (by simp [wakeFields]) <| laneFrame_setLane ?_
  refine laneFrame_put (by simp [wakeFields]) <| laneFrame_put (by simp [wakeFields]) <| laneFrame_put (by simp [wakeFields]) ?_
  refine laneFrame_put (by simp [wakeFields]) <| laneFrame_put (by simp [wakeFields]) <| laneFrame_put (by simp [wakeFields]) ?_
  exact laneFrame_lanes (laneFrame_refl _ s) (s.idleTo_only n)

/-- The fields that the departure of a lane from UP changes. -/
def downFields (n : Nat) : List Fld :=
  [R.AZL_LSTAT_STATE n, R.AZL_LSTAT_INSVC n, R.AZL_LSTAT_TXPREC n, R.AZL_LSTAT_RXPREC n, R.AZL_ABTC_ABT n]

/-- A lane in UP as it enters DOWN, before the cell's count of that. -/
def State.leftUp (s : State) (n : Nat) (hit : Bool) : State :=
  (((((if hit then s.frameEnds n else s).cutTx n).laneEnter n 6).put (R.AZL_LSTAT_INSVC n) 0).put (R.AZL_LSTAT_TXPREC n) 0).put
    (R.AZL_LSTAT_RXPREC n) 0

/-- The cell's counts of DOWN transitions with one more for lane `n`. -/
def AzfState.downCounted (a : AzfState) (n : Nat) : AzfState :=
  { a with laneEvents := setNth a.laneEvents n (min 255 (nth a.laneEvents n 0 + 1)) 0 }

theorem laneDown_eq (s : State) (n : Nat) (hit : Bool) :
    s.laneDown n hit = { s.leftUp n hit with azf := (s.leftUp n hit).azf.downCounted n } := rfl

/-- A frame that arrives at the departure has ended as bad, and one that is sent is cut off. -/
theorem leftUp_cut (s : State) (n : Nat) (hit : Bool) :
    LaneFrame [R.AZL_ABTC_ABT n] s ((if hit then s.frameEnds n else s).cutTx n) := by
  refine laneFrame_lanes ?_ (State.cutTx_only _ n)
  split
  · exact frameEnds_frame s n
  · exact laneFrame_refl _ s

theorem leftUp_entered (u : State) (n : Nat) : LaneFrame [R.AZL_LSTAT_INSVC n, R.AZL_LSTAT_TXPREC n, R.AZL_LSTAT_RXPREC n] u
    (((u.put (R.AZL_LSTAT_INSVC n) 0).put (R.AZL_LSTAT_TXPREC n) 0).put (R.AZL_LSTAT_RXPREC n) 0) :=
  laneFrame_put (by simp) (laneFrame_put (by simp) (laneFrame_put (by simp) (laneFrame_refl _ u)))

theorem leftUp_frame (s : State) (n : Nat) (hit : Bool) : LaneFrame (downFields n) s (s.leftUp n hit) :=
  laneFrame_trans ((leftUp_cut s n hit).mono (by simp [downFields]))
    (laneFrame_trans ((laneEnter_frame _ n 6).mono (by simp [downFields])) ((leftUp_entered _ n).mono (by simp [downFields])))

/-- The fields of a lane's status word and of its counters are apart. -/
theorem laneKeys_apart : ∀ n : Fin 20,
    (R.AZL_LSTAT_STATE n).key ∉ [R.AZL_LSTAT_INSVC n, R.AZL_LSTAT_TXPREC n, R.AZL_LSTAT_RXPREC n].map Fld.key ∧
    (R.AZL_ABTC_ABT n).key ∉ [R.AZL_LSTAT_INSVC n, R.AZL_LSTAT_TXPREC n, R.AZL_LSTAT_RXPREC n].map Fld.key ∧
    (R.AZL_ABTC_ABT n).key ∉ [R.AZL_LSTAT_STATE n].map Fld.key ∧
    (R.AZL_LSTAT_INSVC n).key ∉ [R.AZL_LSTAT_TXPREC n, R.AZL_LSTAT_RXPREC n].map Fld.key ∧
    (R.AZL_CNT_LOSC n).key ∉ (downFields n).map Fld.key ∧ (R.AZL_CNT_LOLC n).key ∉ (downFields n).map Fld.key := by decide

theorem laneDown_frame (s : State) (n : Nat) (hit : Bool) : (s.laneDown n hit).mem = s.mem ∧ (s.laneDown n hit).flash = s.flash ∧
    KeepsFieldsBut (downFields n) s (s.laneDown n hit) ∧
    nth (s.laneDown n hit).azf.laneEvents n 0 = min 255 (nth s.azf.laneEvents n 0 + 1) := by
  obtain ⟨hmem, hflash, hazf, hget⟩ := leftUp_frame s n hit
  refine ⟨hmem, hflash, hget, ?_⟩
  rw [laneDown_eq, hazf]
  exact nth_setNth_self ..

/-- A lane that leaves UP is in DOWN and out of service, and a frame hit is counted. -/
theorem laneDown_status (s : State) (n : Fin 20) (hit : Bool) : (s.laneDown n hit).laneSt n = 6 ∧ (s.laneDown n hit).inSvc n = false ∧
    (hit = true → (s.laneDown n hit).get (R.AZL_ABTC_ABT n) =
      min (s.get (R.AZL_ABTC_ABT n) + 1) (2 ^ (R.AZL_ABTC_ABT n).width - 1)) := by
  obtain ⟨hst, habt, habt', hsvc, -⟩ := laneKeys_apart n
  generalize hu : ((if hit then s.frameEnds n else s).cutTx n) = u
  have hget : ∀ g, (s.laneDown n hit).get g =
      ((((u.laneEnter n 6).put (R.AZL_LSTAT_INSVC n) 0).put (R.AZL_LSTAT_TXPREC n) 0).put (R.AZL_LSTAT_RXPREC n) 0).get g := by
    intro g
    rw [← hu]
    rfl
  refine ⟨?_, ?_, fun hhit => ?_⟩
  · rw [State.laneSt, hget, (leftUp_entered _ _).get _ hst]
    exact laneEnter_laneSt u n 6
  · have hput : LaneFrame [R.AZL_LSTAT_TXPREC n, R.AZL_LSTAT_RXPREC n] ((u.laneEnter n 6).put (R.AZL_LSTAT_INSVC n) 0)
        ((((u.laneEnter n 6).put (R.AZL_LSTAT_INSVC n) 0).put (R.AZL_LSTAT_TXPREC n) 0).put (R.AZL_LSTAT_RXPREC n) 0) :=
      laneFrame_put (by simp) (laneFrame_put (by simp) (laneFrame_refl _ _))
    rw [State.inSvc, State.on, hget, hput.get _ hsvc, State.get_put_self]
    rfl
  · rw [hget, (leftUp_entered _ _).get _ habt, (laneEnter_frame u n 6).get _ habt', ← hu, hhit, if_pos rfl,
      (State.cutTx_only _ _).get, frameEnds_abt]

end Sys2Proof.Machine
end

/-! The departures of a lane: LOS and loss of lock, and what a lane that has gone down shows. -/

section
namespace Sys2Proof.Machine

/-! ### LOS and loss of lock -/

/-- LOS and loss of lock counted, before the departure that they cause. -/
def State.lossCounted (s : State) (n : Nat) (los lol : Bool) : State :=
  let u := if los then s.incSat (R.AZL_CNT_LOSC n) else s
  if lol then (u.incSat (R.AZL_CNT_LOLC n)).hourly (fun a => { a with llol := a.llol + 1 }) else u

/-- The FLT bits of LOS and of loss of lock. -/
def lossBits (los lol : Bool) : List Nat := chosen [(los, Flt.AZL_LOS), (lol, Flt.AZL_LOL)]

theorem lossCounted_frame (s : State) (n : Nat) (los lol : Bool) :
    LaneFrame [R.AZL_CNT_LOSC n, R.AZL_CNT_LOLC n] s (s.lossCounted n los lol) := by
  have hlos : LaneFrame [R.AZL_CNT_LOSC n, R.AZL_CNT_LOLC n] s (if los then s.incSat (R.AZL_CNT_LOSC n) else s) := by
    cases los with
    | true => exact laneFrame_incSat (by simp) (laneFrame_refl _ s)
    | false => exact laneFrame_refl _ s
  cases lol with
  | true => exact laneFrame_trans (laneFrame_incSat (by simp) hlos) ⟨rfl, rfl, rfl, fun _ _ => rfl⟩
  | false => exact hlos

/-- In UP the departure goes to DOWN. -/
theorem laneLeave_up {s : State} {n : Nat} {los lol : Bool} (fr : Bool) (hup : s.laneSt n = 5) (hloss : (los || lol) = true) :
    s.laneLeave n los lol fr = ((s.lossCounted n los lol).laneDown n (s.hears n fr),
      lossBits los lol ++ chosen [(s.hears n fr, Flt.AZL_ABT)]) := by
  unfold State.laneLeave
  dsimp only
  rw [if_neg (by simp [hup, hloss]), hup]
  rfl

/-- In TRAIN and VERIFY it goes to FAULT. -/
theorem laneLeave_training {s : State} {n : Nat} {los lol : Bool} (fr : Bool) (hst : s.laneSt n = 3 ∨ s.laneSt n = 4)
    (hloss : (los || lol) = true) :
    s.laneLeave n los lol fr = ((s.lossCounted n los lol).laneEnter n 7, lossBits los lol ++ [Flt.AZL_TRF]) := by
  unfold State.laneLeave
  dsimp only
  rcases hst with hst | hst
  · rw [if_neg (by simp [hst, hloss]), hst]
    rfl
  · rw [if_neg (by simp [hst, hloss]), hst]
    rfl

/-! ### A lane that has gone down -/

/-- `t` is `s` after lane `n` has left UP for DOWN: it is out of service, that is counted, and a frame on it, where `fr`, has
ended as bad. -/
structure WentDown (n : Nat) (fr : Bool) (s t : State) : Prop where
  state : t.laneSt n = 6
  service : t.inSvc n = false
  counted : nth t.azf.laneEvents n 0 = min 255 (nth s.azf.laneEvents n 0 + 1)
  mem : t.mem = s.mem
  flash : t.flash = s.flash
  hit : fr = true → t.bit (R.FLT (lanePage n)) Flt.AZL_ABT = true ∧
    t.get (R.AZL_ABTC_ABT n) = min (s.get (R.AZL_ABTC_ABT n) + 1) (2 ^ (R.AZL_ABTC_ABT n).width - 1)

/-- The fields in which a lane notes why it departs. -/
def causeFields (n : Nat) : List Fld :=
  [R.AZL_LSTAT_LOS n, R.AZL_LSTAT_CDRLK n, R.AZL_LSTAT_BLKLK n, R.AZL_SHERR_SHERR n, R.AZL_PPM_PPM n, R.AZL_LSTAT_REMFLT n,
    R.CLK_LLCNT_CNT, R.CLK_LANELK_LK]

theorem causeFields_apart : ∀ n : Fin 20, ∀ f ∈ laneRegs n, f.key ∉ (causeFields n).map Fld.key := by decide

/-- What is read of a lane after its cause has been noted. -/
theorem LaneFrame.laneReg {n : Fin 20} {s u : State} (h : LaneFrame (causeFields n) s u) {f : Fld} (hf : f ∈ laneRegs n) :
    u.get f = s.get f := h.get f (causeFields_apart n f hf)

theorem LaneFrame.laneSt {n : Fin 20} {s u : State} (h : LaneFrame (causeFields n) s u) : u.laneSt n = s.laneSt n :=
  h.laneReg (by simp [laneRegs])

/-- The departure from UP with its FLT bits. -/
theorem wentDown_raised {n : Fin 20} {fr hit : Bool} {s u : State} {ks : List Nat} (hmem : u.mem = s.mem) (hflash : u.flash = s.flash)
    (hazf : u.azf = s.azf) (habt : u.get (R.AZL_ABTC_ABT n) = s.get (R.AZL_ABTC_ABT n))
    (hfr : fr = true → hit = true ∧ Flt.AZL_ABT ∈ ks) :
    WentDown n fr s ((u.laneDown n hit).raiseFlts (lanePage n) ks) := by
  obtain ⟨hst, hsvc, hcount⟩ := laneDown_status u n hit
  obtain ⟨dmem, dflash, -, devents⟩ := laneDown_frame u n hit
  obtain ⟨rmem, rflash, razf, -⟩ := raiseFlts_rest (u.laneDown n hit) (lanePage n) ks
  refine ⟨?_, ?_, ?_, rmem.trans (dmem.trans hmem), rflash.trans (dflash.trans hflash), fun h => ?_⟩
  · rw [raiseFlts_laneSt, hst]
  · rw [raiseFlts_inSvc, hsvc]
  · rw [razf, devents, hazf]
  · obtain ⟨hhit, hbit⟩ := hfr h
    exact ⟨raiseFlts_laneBit _ n (by decide) hbit, by rw [raiseFlts_lane _ n ks (by simp [laneRegs]), hcount hhit, habt]⟩

/-- Loss of signal or of lock takes a lane out of UP. -/
theorem wentDown_laneDepart {n : Fin 20} {los lol : Bool} (fr : Bool) {s u : State} (hu : LaneFrame (causeFields n) s u)
    (hup : s.laneSt n = 5) (hloss : (los || lol) = true) : WentDown n fr s (u.laneDepart n los lol fr) := by
  obtain ⟨cmem, cflash, cazf, cget⟩ := lossCounted_frame u n los lol
  have hkey : ∀ n : Fin 20, (R.AZL_ABTC_ABT n).key ∉ [R.AZL_CNT_LOSC n, R.AZL_CNT_LOLC n].map Fld.key := by decide
  rw [State.laneDepart, laneLeave_up fr (hu.laneSt.trans hup) hloss]
  refine wentDown_raised (cmem.trans hu.mem) (cflash.trans hu.flash) (cazf.trans hu.azf)
    ((cget _ (hkey n)).trans (hu.laneReg (by simp [laneRegs]))) fun h => ?_
  have hhears : u.hears n fr = true := by simp [State.hears, h]
  exact ⟨hhears, by simp [hhears, chosen_one]⟩

/-- LOS together with loss of lock sets both FLT bits and counts in both counters, once. -/
theorem laneDepart_both {n : Fin 20} (fr : Bool) {s u : State} (hu : LaneFrame (causeFields n) s u) (hup : s.laneSt n = 5) :
    (u.laneDepart n true true fr).bit (R.FLT (lanePage n)) Flt.AZL_LOS = true ∧
    (u.laneDepart n true true fr).bit (R.FLT (lanePage n)) Flt.AZL_LOL = true ∧
    (u.laneDepart n true true fr).get (R.AZL_CNT_LOSC n) = min (s.get (R.AZL_CNT_LOSC n) + 1) (2 ^ (R.AZL_CNT_LOSC n).width - 1) ∧
    (u.laneDepart n true true fr).get (R.AZL_CNT_LOLC n) = min (s.get (R.AZL_CNT_LOLC n) + 1) (2 ^ (R.AZL_CNT_LOLC n).width - 1) := by
  obtain ⟨-, -, -, -, hlosc, hlolc⟩ := laneKeys_apart n
  have hne : ∀ n : Fin 20, (R.AZL_CNT_LOSC n).key ≠ (R.AZL_CNT_LOLC n).key := by decide
  rw [State.laneDepart, laneLeave_up fr (hu.laneSt.trans hup) rfl, State.raiseAll]
  dsimp only
  generalize hv : u.lossCounted n true true = v
  obtain ⟨-, -, hdown, -⟩ := laneDown_frame v n (u.hears n fr)
  refine ⟨raiseFlts_laneBit _ n (by decide) (by simp [lossBits, chosen]), raiseFlts_laneBit _ n (by decide) (by simp [lossBits, chosen]),
    ?_, ?_⟩
  · rw [raiseFlts_lane _ n _ (by simp [laneRegs]), hdown _ hlosc, ← hv, ← hu.laneReg (f := R.AZL_CNT_LOSC n) (by simp [laneRegs])]
    exact (State.get_put_ne _ _ _ _ (hne n).symm).trans (State.get_incSat_self u _)
  · rw [raiseFlts_lane _ n _ (by simp [laneRegs]), hdown _ hlolc, ← hv, ← hu.laneReg (f := R.AZL_CNT_LOLC n) (by simp [laneRegs])]
    refine (State.get_incSat_self (u.incSat (R.AZL_CNT_LOSC n)) _).trans ?_
    rw [State.incSat, State.addSat, State.get_put_ne _ _ _ _ (hne n)]

/-- A lane that enters FAULT shows it and raises TRF. -/
theorem enteredFault {n : Fin 20} (u : State) {ks : List Nat} (hks : Flt.AZL_TRF ∈ ks) :
    ((u.laneEnter n 7).raiseFlts (lanePage n) ks).laneSt n = 7 ∧
    ((u.laneEnter n 7).raiseFlts (lanePage n) ks).bit (R.FLT (lanePage n)) Flt.AZL_TRF = true ∧
    ((u.laneEnter n 7).raiseFlts (lanePage n) ks).mem = u.mem := by
  obtain ⟨rmem, -⟩ := raiseFlts_rest (u.laneEnter n 7) (lanePage n) ks
  exact ⟨by rw [raiseFlts_laneSt, laneEnter_laneSt], raiseFlts_laneBit _ n (by decide) hks,
    rmem.trans (laneEnter_frame u n 7).mem⟩

end Sys2Proof.Machine
end

/-! O14, second part: a lane PLL that loses lock, and the statement. -/

section
namespace Sys2Proof.Machine

/-- The loss of a lane PLL as the clock page notes it. -/
def State.pllNoted (s : State) (n : Nat) : State := (s.incSat R.CLK_LLCNT_CNT).putBit R.CLK_LANELK_LK n false

theorem pllNoted_frame (s : State) (n : Nat) : LaneFrame (causeFields n) s (s.pllNoted n) :=
  laneFrame_put (by simp [causeFields]) (laneFrame_incSat (by simp [causeFields]) (laneFrame_refl _ s))

theorem pllNoted_status (s : State) (n : Fin 20) : (s.pllNoted n).get R.CLK_LLCNT_CNT = min (s.get R.CLK_LLCNT_CNT + 1) 65535 ∧
    (s.pllNoted n).bit R.CLK_LANELK_LK n = false := by
  refine ⟨(State.get_put_ne _ _ _ _ (by decide)).trans (State.get_incSat_self s R.CLK_LLCNT_CNT), ?_⟩
  rw [State.pllNoted, State.bit_putBit_eq _ _ _ n.isLt, if_pos rfl]

/-- No departure from UP reaches the clock page. -/
theorem clk_apart : ∀ n : Fin 20, ∀ f ∈ [R.CLK_LLCNT_CNT, R.CLK_LANELK_LK], f.key ∉ [R.FLT (lanePage n), R.FCT (lanePage n)].map Fld.key ∧
    faultKey f.key = false ∧ f.key ∉ (downFields n).map Fld.key ∧ f.key ∉ [R.AZL_CNT_LOSC n, R.AZL_CNT_LOLC n].map Fld.key := by decide

theorem laneDepart_clk {u : State} {n : Fin 20} {los lol : Bool} (fr : Bool) (hup : u.laneSt n = 5) (hloss : (los || lol) = true)
    {f : Fld} (hf : f ∈ [R.CLK_LLCNT_CNT, R.CLK_LANELK_LK]) : (u.laneDepart n los lol fr).get f = u.get f := by
  obtain ⟨hflt, hfault, hdown, hcount⟩ := clk_apart n f hf
  rw [State.laneDepart, laneLeave_up fr hup hloss, State.raiseAll]
  obtain ⟨-, rget⟩ := raiseFlts_faults ((u.lossCounted n los lol).laneDown n (u.hears n fr)) (lanePage n)
    (lossBits los lol ++ chosen [(u.hears n fr, Flt.AZL_ABT)])
  obtain ⟨-, -, dget, -⟩ := laneDown_frame (u.lossCounted n los lol) n (u.hears n fr)
  exact (rget f hflt hfault).trans ((dget f hdown).trans ((lossCounted_frame u n los lol).get f hcount))

theorem answers_pllLoss {s : State} {n : Fin 20} {inFrame : Bool} (hrun : s.phase = .run) (hon : s.laneOn n = true) :
    Answers (.lanePllLockLoss n inFrame) s (fun t => t.get R.CLK_LLCNT_CNT = min (s.get R.CLK_LLCNT_CNT + 1) 65535 ∧
      t.bit R.CLK_LANELK_LK n = false ∧ t.laneUp n = false ∧ t.mem = s.mem ∧ t.flash = s.flash) := by
  have hframe := pllNoted_frame s n
  obtain ⟨hcount, hlock⟩ := pllNoted_status s n
  refine answers_live (t := (s.pllNoted n).when ((s.pllNoted n).laneUp n) ((s.pllNoted n).laneDepart n false true inFrame)) ?_ hrun ?_
  · show execLanePllLockLoss n inFrame s = _
    rw [execLanePllLockLoss, hon]
    rfl
  · cases hup : (s.pllNoted n).laneUp n with
    | true =>
      rw [State.when_true]
      have hst : (s.pllNoted n).laneSt n = 5 := beq_iff_eq.mp hup
      obtain ⟨hdown, -, -, hmem, hflash, -⟩ := wentDown_laneDepart (los := false) (lol := true) inFrame hframe (hframe.laneSt ▸ hst) rfl
      refine ⟨?_, ?_, ?_, hmem, hflash⟩
      · rw [laneDepart_clk inFrame hst rfl (by simp), hcount]
      · rw [State.bit_congr (laneDepart_clk inFrame hst rfl (by simp)), hlock]
      · rw [State.laneUp, hdown]
        rfl
    | false => exact ⟨hcount, hlock, hup, hframe.mem, hframe.flash⟩

/-- Settles O14: each report writes its fields and raises its fault by rules that say what else may change, and a lane whose PLL
has lost lock departs from UP as on any loss of lock. -/
theorem supplyClockAndTemperatureEvents : Obligations.SupplyClockAndTemperatureEvents := by
  unfold Obligations.SupplyClockAndTemperatureEvents
  intro s vin rail d n inFrame hrun
  refine ⟨answers_vinOutside hrun, answers_vinInside hrun, answers_railBack hrun,
    fun hgated => answers_live (exec_railGated hgated) hrun rfl, answers_railOut hrun, answers_dieOver hrun, answers_dieWithin hrun,
    answers_pllLoss hrun, fun hoff => answers_live (t := s) ?_ hrun rfl⟩
  show execLanePllLockLoss n inFrame s = _
  rw [execLanePllLockLoss, hoff, State.when_false]

end Sys2Proof.Machine
end

/-! O30, first part: a lane leaves UP and TRAIN, and the retries bring it back to WAKE. -/

section
namespace Sys2Proof.Machine

/-! ### The causes -/

/-- LOS, and the loss of lock that comes with it, as the lane notes them. -/
def State.losSeen (s : State) (n : Nat) (k : LockLoss) : State :=
  let u := s.put (R.AZL_LSTAT_LOS n) 1
  match k with
  | .none => u
  | .block => u.blockGone n
  | .freq => u.put (R.AZL_LSTAT_CDRLK n) 0

theorem blockGone_frame (s : State) (n : Nat) : LaneFrame (causeFields n) s (s.blockGone n) := by
  have hcount : ∀ b : Bool, LaneFrame (causeFields n) s
      (if b then s.addSat (R.AZL_SHERR_SHERR n) (s.shTh n - (s.lane n).badHdr.length) else s) := by
    intro b
    cases b with
    | true => exact laneFrame_put (by simp [causeFields]) (laneFrame_refl _ s)
    | false => exact laneFrame_refl _ s
  exact laneFrame_setLane (laneFrame_put (by simp [causeFields]) (hcount _))

theorem losSeen_frame (s : State) (n : Nat) (k : LockLoss) : LaneFrame (causeFields n) s (s.losSeen n k) := by
  have hlos : LaneFrame (causeFields n) s (s.put (R.AZL_LSTAT_LOS n) 1) := laneFrame_put (by simp [causeFields]) (laneFrame_refl _ s)
  cases k with
  | none => exact hlos
  | block => exact laneFrame_trans hlos (blockGone_frame _ n)
  | freq => exact laneFrame_put (by simp [causeFields]) hlos

/-- LOS out of ALIGN: a loss of lock in its cycle counts with it. -/
theorem losNow_eq {s : State} {n : Fin 20} (k : LockLoss) (fr : Bool) (hst : s.laneSt n ≠ 2) :
    s.losNow n k fr = (s.losSeen n k).laneDepart n true (decide (k ≠ .none)) fr := by
  have hkeep : (s.put (R.AZL_LSTAT_LOS n) 1).laneSt n = s.laneSt n := (losSeen_frame s n .none).laneSt
  cases k with
  | none => rfl
  | block =>
    show ((s.put (R.AZL_LSTAT_LOS n) 1).blockGone n).laneDepart n true ((s.put (R.AZL_LSTAT_LOS n) 1).laneSt n != 2) fr = _
    rw [hkeep, bne_iff_ne.mpr hst]
    rfl
  | freq => rfl

/-- Loss of block lock out of ALIGN. -/
theorem blockLoss_eq {s : State} {n : Fin 20} (fr : Bool) (hst : s.laneSt n ≠ 2) :
    s.blockLoss n fr = (s.blockGone n).laneLeave n false true fr := by
  rw [State.blockLoss, (blockGone_frame s n).laneSt, bne_iff_ne.mpr hst]

/-- A frequency beyond PPMTH as the lane notes it. -/
def State.freqSeen (s : State) (n : Nat) (ppm : Int) : State :=
  ((s.setLane n { s.lane n with
    measured := true, good := if ppm.natAbs ≤ s.ppmTh n - 200 then (s.lane n).good + 1 else 0 }).putS
      (R.AZL_PPM_PPM n) (satSigned 16 ppm)).put (R.AZL_LSTAT_CDRLK n) 0

theorem freqSeen_frame (s : State) (n : Nat) (ppm : Int) : LaneFrame (causeFields n) s (s.freqSeen n ppm) :=
  laneFrame_put (by simp [causeFields]) (laneFrame_put (by simp [causeFields]) (laneFrame_setLane (laneFrame_refl _ s)))

theorem freqWindow_beyond {s : State} {n : Nat} {ppm : Int} (fr : Bool) (h : s.ppmTh n < ppm.natAbs) :
    s.freqWindow n ppm fr = (s.freqSeen n ppm).laneDepart n false true fr := by
  unfold State.freqWindow
  dsimp only
  rw [if_pos h]
  rfl

theorem exec_losAssert {s : State} {n : Fin 20} {k : LockLoss} {mv ns : Nat} {fr : Bool} (hon : s.laneOn n = true)
    (hlos : s.on (R.AZL_LSTAT_LOS n) = false) (hmv : mv < s.losTh n) (hns : s.losDly n ≤ ns) :
    exec (.losAssert n k mv ns fr) s = .next (live s (s.losNow n k fr)) := by
  show execLosAssert n k mv ns fr s = _
  rw [execLosAssert, hon, hlos, decide_eq_true ⟨hmv, hns⟩]
  rfl

/-- RETRAIN of a lane that is on, on a page that takes command words. -/
theorem exec_retrain {s : State} {n : Fin 20} (hon : s.laneOn n = true) (hsrb : s.on (R.SRB (lanePage n)) = false) :
    exec (.retrain n) s = .next (live s (s.retrain n)) := by
  have hgated : s.gated (lanePage n) = false := by
    simp only [State.laneOn, State.runs, Bool.and_eq_true, Bool.not_eq_true'] at hon
    obtain ⟨⟨hgated, -⟩, -⟩ := hon
    exact hgated
  show execRetrain n s = _
  rw [execRetrain, State.cmd_of hgated hsrb, hon, State.when_true]

/-! ### Out of UP -/

/-- A remote fault takes a lane out of UP. -/
theorem wentDown_remoteFault {s : State} {n : Fin 20} (hup : s.laneSt n = 5) : WentDown n false s (s.remoteFault n) := by
  have hframe : LaneFrame (causeFields n) s (s.put (R.AZL_LSTAT_REMFLT n) 1) :=
    laneFrame_put (by simp [causeFields]) (laneFrame_refl _ s)
  unfold State.remoteFault
  dsimp only
  rw [if_pos (show s.laneUp n = true from beq_iff_eq.mpr hup)]
  exact wentDown_raised hframe.mem hframe.flash hframe.azf (hframe.laneReg (by simp [laneRegs])) (fun h => absurd h Bool.false_ne_true)

/-- A Train block takes a lane out of UP. -/
theorem wentDown_trainInUp (s : State) (n : Fin 20) (fr : Bool) : WentDown n fr s (s.trainInUp n fr) :=
  wentDown_raised rfl rfl rfl rfl fun h => by
    have hhears : s.hears n fr = true := by simp [State.hears, h]
    exact ⟨hhears, by simp [hhears, chosen]⟩

/-- RETRAIN takes a lane out of UP. -/
theorem wentDown_retrain {s : State} {n : Fin 20} (hup : s.laneSt n = 5) : WentDown n false s (s.retrain n) := by
  obtain ⟨b, hb⟩ : ∃ b, b = s.freeBit.2.hears n s.freeBit.1 := ⟨_, rfl⟩
  obtain ⟨hst, hsvc, hcount, hmem, hflash, -⟩ :=
    wentDown_raised (fr := false) (s := s) (u := s.freeBit.2) (n := n) (hit := b) (ks := chosen [(b, Flt.AZL_ABT)]) rfl rfl rfl rfl
      (fun h => absurd h Bool.false_ne_true)
  unfold State.retrain
  rw [hup]
  dsimp only
  rw [← hb]
  exact ⟨hst, hsvc, hcount, hmem, hflash, fun h => absurd h Bool.false_ne_true⟩

/-- What each cause of a departure makes of a lane in UP; those that tell of a frame on the lane end it as bad. -/
theorem answers_wentDown {s : State} {n : Fin 20} {ppm : Int} {k : LockLoss} {mv ns : Nat} {fr : Bool} (hrun : s.phase = .run)
    (hon : s.laneOn n = true) (hmv : mv < s.losTh n) (hns : s.losDly n ≤ ns) (hup : s.laneSt n = 5)
    (hppm : s.ppmTh n < ppm.natAbs) (hlos : s.on (R.AZL_LSTAT_LOS n) = false) :
    ∀ c ∈ [Instr.losAssert n k mv ns fr, .blockLockLoss n fr, .frequencyWindow n ppm fr, .trainBlockInUp n fr],
      Answers c s (WentDown n fr s) := by
  have hst : s.laneSt n ≠ 2 := by rw [hup]; decide
  simp only [List.mem_cons, List.not_mem_nil, or_false]
  rintro c (rfl | rfl | rfl | rfl)
  · refine answers_live (exec_losAssert hon hlos hmv hns) hrun ?_
    rw [losNow_eq k fr hst]
    exact wentDown_laneDepart fr (losSeen_frame s n k) hup rfl
  · refine answers_live (t := (s.blockGone n).laneDepart n false true fr) ?_ hrun
      (wentDown_laneDepart fr (blockGone_frame s n) hup rfl)
    show execBlockLockLoss n fr s = _
    rw [execBlockLockLoss, hon, State.when_true, blockLoss_eq fr hst]
    rfl
  · refine answers_live (t := (s.freqSeen n ppm).laneDepart n false true fr) ?_ hrun
      (wentDown_laneDepart fr (freqSeen_frame s n ppm) hup rfl)
    show execFrequencyWindow n ppm fr s = _
    rw [execFrequencyWindow, hon, State.when_true, freqWindow_beyond fr hppm]
  · refine answers_live (t := s.trainInUp n fr) ?_ hrun (wentDown_trainInUp s n fr)
    show execTrainBlockInUp n fr s = _
    rw [execTrainBlockInUp, hon, State.laneUp, hup]
    rfl

/-- A remote fault and RETRAIN, which tell of no frame. -/
theorem answers_wentDown_untold {s : State} {n : Fin 20} (hrun : s.phase = .run) (hon : s.laneOn n = true)
    (hup : s.laneSt n = 5) (hsrb : s.on (R.SRB (lanePage n)) = false) :
    ∀ c ∈ [Instr.remoteFault n, .retrain n], Answers c s (WentDown n false s) := by
  simp only [List.mem_cons, List.not_mem_nil, or_false]
  rintro c (rfl | rfl)
  · refine answers_live (t := s.remoteFault n) ?_ hrun (wentDown_remoteFault hup)
    show execRemoteFault n s = _
    rw [execRemoteFault, hon, State.when_true]
  · exact answers_live (exec_retrain hon hsrb) hrun (wentDown_retrain hup)

/-- An answer of which more is known. -/
theorem Answers.imp {c : Instr} {s : State} {P Q : State → Prop} (h : Answers c s P) (hPQ : ∀ t, P t → Q t) : Answers c s Q := by
  obtain ⟨t, hexec, hP⟩ := h
  exact ⟨t, hexec, hPQ t hP⟩

theorem answers_losWithLock {s : State} {n : Fin 20} {k : LockLoss} {mv ns : Nat} {fr : Bool} (hrun : s.phase = .run)
    (hon : s.laneOn n = true) (hmv : mv < s.losTh n) (hns : s.losDly n ≤ ns) (hup : s.laneSt n = 5)
    (hlos : s.on (R.AZL_LSTAT_LOS n) = false) (hk : k ≠ .none) : Answers (.losAssert n k mv ns fr) s (fun t =>
      t.laneSt n = 6 ∧ t.bit (R.FLT (lanePage n)) Flt.AZL_LOS = true ∧ t.bit (R.FLT (lanePage n)) Flt.AZL_LOL = true ∧
      t.get (R.AZL_CNT_LOSC n) = min (s.get (R.AZL_CNT_LOSC n) + 1) (2 ^ (R.AZL_CNT_LOSC n).width - 1) ∧
      t.get (R.AZL_CNT_LOLC n) = min (s.get (R.AZL_CNT_LOLC n) + 1) (2 ^ (R.AZL_CNT_LOLC n).width - 1)) := by
  have hframe := losSeen_frame s n k
  refine answers_live (exec_losAssert hon hlos hmv hns) hrun ?_
  rw [losNow_eq k fr (by rw [hup]; decide), decide_eq_true hk]
  exact ⟨(wentDown_laneDepart fr hframe hup rfl).state, laneDepart_both fr hframe hup⟩

/-! ### Out of TRAIN, and back to WAKE -/

/-- LOS in TRAIN and the training timeout put a lane in FAULT. -/
theorem answers_trainFails {s : State} {n : Fin 20} {k : LockLoss} {mv ns : Nat} {fr : Bool} (hrun : s.phase = .run)
    (hon : s.laneOn n = true) (hmv : mv < s.losTh n) (hns : s.losDly n ≤ ns) (hst : s.laneSt n = 3)
    (hlos : s.on (R.AZL_LSTAT_LOS n) = false) : ∀ c ∈ [Instr.losAssert n k mv ns fr, .trainTimeout n],
      Answers c s (fun t => t.laneSt n = 7 ∧ t.bit (R.FLT (lanePage n)) Flt.AZL_TRF = true ∧ t.mem = s.mem) := by
  simp only [List.mem_cons, List.not_mem_nil, or_false]
  rintro c (rfl | rfl)
  · have hframe := losSeen_frame s n k
    refine answers_live (exec_losAssert hon hlos hmv hns) hrun ?_
    rw [losNow_eq k fr (by rw [hst]; decide), State.laneDepart, laneLeave_training fr (.inl (hframe.laneSt.trans hst)) rfl]
    obtain ⟨hfault, htrf, hmem⟩ := enteredFault (n := n) ((s.losSeen n k).lossCounted n true (decide (k ≠ .none)))
      (ks := lossBits true (decide (k ≠ .none)) ++ [Flt.AZL_TRF]) (by simp)
    exact ⟨hfault, htrf, hmem.trans ((lossCounted_frame _ n _ _).mem.trans hframe.mem)⟩
  · generalize hu : s.laneUntil n (max 1 (s.get (R.AZL_TRCFG_TRTMO n)) * 1000000) = u
    have humem : u.mem = s.mem := hu ▸ (laneFrame_elapse (laneFrame_refl [] s)).mem
    obtain ⟨hfault, htrf, hmem⟩ := enteredFault (n := n) u (ks := [Flt.AZL_TRF]) (by simp)
    refine answers_live (t := (u.laneEnter n 7).raiseFlts (lanePage n) [Flt.AZL_TRF]) ?_ hrun ⟨hfault, htrf, hmem.trans humem⟩
    show execTrainTimeout n s = _
    rw [execTrainTimeout, hon, hst, hu, State.laneFail, raiseFlt_eq_raiseFlts]
    rfl

/-- The end of the holdoff with AUTO, and RETRAIN, take a lane from FAULT to WAKE. -/
theorem answers_retries {s : State} {n : Fin 20} (hrun : s.phase = .run) (hon : s.laneOn n = true) (hst : s.laneSt n = 7)
    (hauto : s.on (R.AZL_LCTL_AUTO n) = true) (hsrb : s.on (R.SRB (lanePage n)) = false) :
    ∀ c ∈ [Instr.retryHoldoffExpiry n, .retrain n], Answers c s (fun t => t.laneSt n = 1 ∧ t.mem = s.mem) := by
  simp only [List.mem_cons, List.not_mem_nil, or_false]
  rintro c (rfl | rfl)
  · generalize hu : s.laneUntil n (max 1 (s.get (R.AZL_TRCFG_RETRY n)) * 100000) = u
    have humem : u.mem = s.mem := hu ▸ (laneFrame_elapse (laneFrame_refl [] s)).mem
    refine answers_live (t := u.laneWake n) ?_ hrun ⟨laneWake_laneSt u n, (laneWake_frame u n).mem.trans humem⟩
    show execRetryHoldoffExpiry n s = _
    rw [execRetryHoldoffExpiry, hon, hst, hauto, hu]
    rfl
  · refine answers_live (exec_retrain hon hsrb) hrun ?_
    have hwake : s.retrain n = s.laneWake n := by
      unfold State.retrain
      rw [hst]
      rfl
    rw [hwake]
    exact ⟨laneWake_laneSt s n, (laneWake_frame s n).mem⟩

end Sys2Proof.Machine
end

/-! O30, second part: Aborts and the blocks that a receiver reads. -/

section
namespace Sys2Proof.Machine

/-- The state of a receiver that has read level indices. -/
def State.received (s : State) (n : Nat) (sym : List Nat) : State := (s.receive n sym).2

/-- Only what the receiver carries over from block to block changes. -/
theorem received_eq (s : State) (n : Nat) (sym : List Nat) :
    ∃ a b, s.received n sym = s.setLane n { s.lane n with rxScr := a, rxLast := b } := ⟨_, _, rfl⟩

theorem received_frame (s : State) (n : Nat) (sym : List Nat) : LaneFrame [] s (s.received n sym) :=
  laneFrame_setLane (laneFrame_refl _ s)

theorem received_rest (s : State) (n : Nat) (sym : List Nat) : (s.received n sym).out = s.out ∧
    (s.received n sym).arriving n = s.arriving n ∧ ((s.received n sym).lane n).badHdr = (s.lane n).badHdr := by
  obtain ⟨a, b, h⟩ := received_eq s n sym
  rw [h]
  exact ⟨rfl, State.arriving_setLane (by rfl) n, by rw [State.lane_setLane]⟩

/-- A block with a valid sync header. -/
theorem invalidBlock_some {s : State} {n : Nat} {sym : List Nat} {x : Block} (b : Bool) (gap : Nat)
    (hx : (s.receive n sym).1 = some x) : s.invalidBlock n sym b gap =
      ((s.received n sym).badBlock n (some x) b).1.raiseFlts (lanePage n) ((s.received n sym).badBlock n (some x) b).2 := by
  obtain ⟨w, hw⟩ : ∃ w, s.receive n sym = (some x, w) := ⟨(s.receive n sym).2, Prod.ext hx rfl⟩
  rw [State.invalidBlock, State.received, hw]

/-- A block with an invalid sync header: what it ends, then what the header does. -/
theorem invalidBlock_none {s : State} {n : Nat} {sym : List Nat} (b : Bool) (gap : Nat)
    (hx : (s.receive n sym).1 = Option.none) : s.invalidBlock n sym b gap =
      (let p := (s.received n sym).badBlock n Option.none b
       let q := p.1.badHeader n gap
       (if q.1.laneSt n == 4 then q.1.laneEnter n 7 else q.1).raiseFlts (lanePage n)
         (p.2 ++ q.2 ++ chosen [(q.1.laneSt n == 4, Flt.AZL_TRF)])) := by
  obtain ⟨w, hw⟩ : ∃ w, s.receive n sym = (Option.none, w) := ⟨(s.receive n sym).2, Prod.ext hx rfl⟩
  rw [State.invalidBlock, State.received, hw]

/-! ### Frames that end as bad -/

/-- Between frames no block is a restart. -/
theorem blockKind_between (x : Block) (h : blockKind (some x) false ≠ .valid) : blockKind (some x) false = .invalid := by
  obtain ⟨ctl, pay⟩ := x
  cases ctl with
  | true =>
    by_cases hty : blockTypeOk (pay.headD 0).toNat = true
    · exact absurd (if_pos hty) h
    · exact if_neg hty
  | false => rfl

/-- Inside a frame of a lane in UP, a block that is not valid ends the frame. -/
theorem badBlock_inside {s : State} {n : Nat} {b : Option Block} (hup : s.laneUp n = true) (hb : blockKind b true ≠ .valid) :
    s.badBlock n b true = (s.frameEnds n, [Flt.AZL_ABT]) := by
  unfold State.badBlock
  dsimp only
  cases hk : blockKind b true with
  | valid => exact absurd hk hb
  | restart => simp [hup]
  | invalid => simp [hup]

/-- Between frames an invalid block is told in FLT.CODE where the lane has block lock. -/
theorem badBlock_between {s : State} {n : Nat} {b : Option Block} (hb : blockKind b false = .invalid) :
    s.badBlock n b false = (s, chosen [(s.on (R.AZL_LSTAT_BLKLK n), Flt.AZL_CODE)]) := by
  unfold State.badBlock
  rw [hb]
  rfl

theorem abt_key : ∀ n : Fin 20, (R.AZL_LSTAT_STATE n).key ∉ [R.AZL_ABTC_ABT n].map Fld.key := by decide

/-- A frame that ends as bad on a lane in UP, after the receiver has read on. -/
theorem frameEnds_raised {n : Fin 20} {s u : State} (hu : LaneFrame [] s u) (hout : u.out = s.out)
    (harriving : u.arriving n = s.arriving n) (hup : s.laneSt n = 5) :
    let t := (u.frameEnds n).raiseFlts (lanePage n) [Flt.AZL_ABT]
    t.laneSt n = 5 ∧ t.bit (R.FLT (lanePage n)) Flt.AZL_ABT = true ∧
      t.get (R.AZL_ABTC_ABT n) = min (s.get (R.AZL_ABTC_ABT n) + 1) (2 ^ (R.AZL_ABTC_ABT n).width - 1) ∧
      (s.arriving n = false → t.out = s.out) ∧ t.mem = s.mem := by
  intro t
  obtain ⟨rmem, -, -, rout⟩ := raiseFlts_rest (u.frameEnds n) (lanePage n) [Flt.AZL_ABT]
  have hframe := frameEnds_frame u n
  refine ⟨?_, raiseFlts_laneBit _ n (by decide) (by simp), ?_, fun hidle => ?_, rmem.trans (hframe.mem.trans hu.mem)⟩
  · rw [raiseFlts_laneSt, State.laneSt, hframe.get _ (abt_key n), hu.get _ (by simp)]
    exact hup
  · rw [raiseFlts_lane _ n _ (by simp [laneRegs]), frameEnds_abt, hu.get _ (by simp)]
  · rw [rout, State.frameEnds, State.cutRelays_idle (harriving.trans hidle)]
    exact hout

theorem exec_invalidBlock {s : State} {n : Fin 20} (sym : List (Fin 4)) (b : Bool) (gap : Nat) (hon : s.laneOn n = true) :
    exec (.invalidBlock n sym b gap) s = .next (live s (s.invalidBlock n (sym.map Fin.val) b gap)) := by
  show execInvalidBlock n sym b gap s = _
  rw [execInvalidBlock, hon, State.when_true]

theorem answers_badFrame {s : State} {n : Fin 20} {sym : List (Fin 4)} {gap : Nat} {x : Block} (hrun : s.phase = .run)
    (hon : s.laneOn n = true) (hup : s.laneSt n = 5) (hx : (s.receive n (sym.map Fin.val)).1 = some x)
    (hkind : blockKind (some x) true ≠ .valid) : ∀ c ∈ [Instr.abortReceive n, .invalidBlock n sym true gap],
      Answers c s (fun t => t.laneSt n = 5 ∧ t.bit (R.FLT (lanePage n)) Flt.AZL_ABT = true ∧
        t.get (R.AZL_ABTC_ABT n) = min (s.get (R.AZL_ABTC_ABT n) + 1) (2 ^ (R.AZL_ABTC_ABT n).width - 1) ∧
        (s.arriving n = false → t.out = s.out) ∧ t.mem = s.mem) := by
  simp only [List.mem_cons, List.not_mem_nil, or_false]
  rintro c (rfl | rfl)
  · refine answers_live (t := (s.frameEnds n).raiseFlts (lanePage n) [Flt.AZL_ABT]) ?_ hrun
      (frameEnds_raised (laneFrame_refl _ s) rfl rfl hup)
    show execAbortReceive n s = _
    rw [execAbortReceive, hon, State.laneUp, hup, State.badFrame, raiseFlt_eq_raiseFlts]
    rfl
  · have hframe := received_frame s n (sym.map Fin.val)
    obtain ⟨hout, harriving, -⟩ := received_rest s n (sym.map Fin.val)
    have hstill : (s.received n (sym.map Fin.val)).laneUp n = true := beq_iff_eq.mpr ((hframe.get _ (by simp)).trans hup)
    refine answers_live (exec_invalidBlock sym true gap hon) hrun ?_
    rw [invalidBlock_some true gap hx, badBlock_inside hstill hkind]
    exact frameEnds_raised hframe hout harriving hup

theorem answers_codeBetween {s : State} {n : Fin 20} {sym : List (Fin 4)} {gap : Nat} {x : Block} (hrun : s.phase = .run)
    (hon : s.laneOn n = true) (hup : s.laneSt n = 5) (hlock : s.on (R.AZL_LSTAT_BLKLK n) = true)
    (hx : (s.receive n (sym.map Fin.val)).1 = some x) (hkind : blockKind (some x) false ≠ .valid) :
    Answers (.invalidBlock n sym false gap) s (fun t => t.laneSt n = 5 ∧
      t.bit (R.FLT (lanePage n)) Flt.AZL_CODE = true ∧ t.out = s.out) := by
  have hframe := received_frame s n (sym.map Fin.val)
  obtain ⟨hout, -⟩ := received_rest s n (sym.map Fin.val)
  have hlock' : (s.received n (sym.map Fin.val)).on (R.AZL_LSTAT_BLKLK n) = true := by
    rw [State.on, hframe.get _ (by simp)]
    exact hlock
  refine answers_live (exec_invalidBlock sym false gap hon) hrun ?_
  rw [invalidBlock_some false gap hx, badBlock_between (blockKind_between x hkind), hlock']
  obtain ⟨-, -, -, rout⟩ := raiseFlts_rest (s.received n (sym.map Fin.val)) (lanePage n) (chosen [(true, Flt.AZL_CODE)])
  refine ⟨?_, raiseFlts_laneBit _ n (by decide) (by simp [chosen]), rout.trans hout⟩
  rw [raiseFlts_laneSt, State.laneSt, hframe.get _ (by simp)]
  exact hup

/-! ### Invalid sync headers -/

/-- The ages of the invalid sync headers with a new one, `gap` blocks after the last. -/
def headerAges (l : List Nat) (gap : Nat) : List Nat := 0 :: (l.map (fun x => x + max 1 gap)).filter (fun x => decide (x < 64))

theorem headerAges_length (l : List Nat) (gap : Nat) :
    (headerAges l gap).length = (l.filter (fun x => decide (x + max 1 gap < 64))).length + 1 := by
  rw [headerAges, List.filter_map, List.length_cons, List.length_map]
  rfl

/-- The lane with a new invalid sync header counted. -/
def State.headerSeen (s : State) (n gap : Nat) : State :=
  (s.setLane n { s.lane n with badHdr := headerAges (s.lane n).badHdr gap }).incSat (R.AZL_SHERR_SHERR n)

theorem headerSeen_frame (s : State) (n gap : Nat) : LaneFrame (causeFields n) s (s.headerSeen n gap) :=
  laneFrame_incSat (by simp [causeFields]) (laneFrame_setLane (laneFrame_refl _ s))

theorem badHeader_eq {s : State} {n : Nat} (gap : Nat) (hlock : s.on (R.AZL_LSTAT_BLKLK n) = true) : s.badHeader n gap =
    if (s.headerSeen n gap).shTh n ≤ (headerAges (s.lane n).badHdr gap).length then (s.headerSeen n gap).blockLoss n false
    else (s.headerSeen n gap, []) := by
  unfold State.badHeader
  rw [hlock]
  rfl

theorem shTh_apart : ∀ n : Fin 20, (R.AZL_LOLCFG_SHTH n).key ∉ (causeFields n).map Fld.key ∧
    (R.AZL_LOLCFG_SHTH n).key ∉ [R.AZL_ABTC_ABT n].map Fld.key ∧
    (R.AZL_LSTAT_BLKLK n).key ∉ [R.AZL_ABTC_ABT n].map Fld.key := by decide

theorem frameEnds_badHdr (s : State) (n m : Nat) : ((s.frameEnds n).lane m).badHdr = (s.lane m).badHdr := by
  obtain ⟨-, hhdr⟩ := s.cutRelays_spec n
  rw [State.frameEnds, ← hhdr m]
  generalize s.cutRelays n = u
  rfl

/-- A block of an invalid sync header ends at most a frame: the count of headers, block lock and the state stand. -/
theorem badBlock_header {s : State} {n : Fin 20} (b : Bool) : LaneFrame [R.AZL_ABTC_ABT n] s (s.badBlock n Option.none b).1 ∧
    ((s.badBlock n Option.none b).1.lane n).badHdr = (s.lane n).badHdr := by
  cases b with
  | true =>
    have heq : s.badBlock n Option.none true = if s.laneUp n then (s.frameEnds n, [Flt.AZL_ABT]) else (s, []) := rfl
    rw [heq]
    split
    · exact ⟨frameEnds_frame s n, frameEnds_badHdr s n n⟩
    · exact ⟨laneFrame_refl _ s, rfl⟩
  | false =>
    rw [badBlock_between rfl]
    exact ⟨laneFrame_refl _ s, rfl⟩

/-- What the header of a block finds after the block has been read and has ended its frame. -/
structure HeaderTold (n : Fin 20) (s u : State) : Prop where
  mem : u.mem = s.mem
  state : u.laneSt n = s.laneSt n
  lock : u.on (R.AZL_LSTAT_BLKLK n) = s.on (R.AZL_LSTAT_BLKLK n)
  limit : u.shTh n = s.shTh n
  ages : (u.lane n).badHdr = (s.lane n).badHdr

theorem headerTold_of {n : Fin 20} {s w u : State} (hread : LaneFrame [] s w) (hages : (w.lane n).badHdr = (s.lane n).badHdr)
    (hended : LaneFrame [R.AZL_ABTC_ABT n] w u) (hkept : (u.lane n).badHdr = (w.lane n).badHdr) : HeaderTold n s u := by
  obtain ⟨-, hshth, hblklk⟩ := shTh_apart n
  have hget : ∀ g : Fld, g.key ∉ [R.AZL_ABTC_ABT n].map Fld.key → u.get g = s.get g := fun g hg =>
    (hended.get g hg).trans (hread.get g List.not_mem_nil)
  exact ⟨hended.mem.trans hread.mem, hget _ (abt_key n), congrArg (· == 1) (hget _ hblklk),
    congrArg (fun v => min 16 (max 4 v)) (hget _ hshth), hkept.trans hages⟩

theorem headerTold_badBlock (s : State) (n : Fin 20) (sym : List Nat) (b : Bool) :
    HeaderTold n s ((s.received n sym).badBlock n Option.none b).1 := by
  obtain ⟨-, -, hages⟩ := received_rest s n sym
  obtain ⟨hended, hkept⟩ := badBlock_header (s := s.received n sym) (n := n) b
  exact headerTold_of (received_frame s n sym) hages hended hkept

theorem headerSeen_shTh (s : State) (n : Fin 20) (gap : Nat) : (s.headerSeen n gap).shTh n = s.shTh n := by
  obtain ⟨hshth, -⟩ := shTh_apart n
  rw [State.shTh, (headerSeen_frame s n gap).get _ hshth]
  rfl

theorem answers_headersLoseLock {s : State} {n : Fin 20} {sym : List (Fin 4)} {b : Bool} {gap : Nat} (hrun : s.phase = .run)
    (hon : s.laneOn n = true) (hup : s.laneSt n = 5) (hlock : s.on (R.AZL_LSTAT_BLKLK n) = true)
    (hx : (s.receive n (sym.map Fin.val)).1 = Option.none)
    (hages : s.shTh n ≤ ((s.lane n).badHdr.filter (fun x => decide (x + max 1 gap < 64))).length + 1) :
    Answers (.invalidBlock n sym b gap) s (fun t => t.laneSt n = 6 ∧
      t.bit (R.FLT (lanePage n)) Flt.AZL_LOL = true ∧ t.mem = s.mem) := by
  obtain ⟨umem, ust, ulock, ulimit, uages⟩ := headerTold_badBlock s n (sym.map Fin.val) b
  refine answers_live (exec_invalidBlock sym b gap hon) hrun ?_
  rw [invalidBlock_none b gap hx]
  generalize (s.received n (sym.map Fin.val)).badBlock n Option.none b = p at umem ust ulock ulimit uages
  obtain ⟨u, ks⟩ := p
  dsimp only at umem ust ulock ulimit uages ⊢
  have hseen := headerSeen_frame u n gap
  have hstSeen : (u.headerSeen n gap).laneSt n = 5 := hseen.laneSt.trans (ust.trans hup)
  have hgone := blockGone_frame (u.headerSeen n gap) n
  generalize hv : ((u.headerSeen n gap).blockGone n).lossCounted n false true = v
  generalize hh : ((u.headerSeen n gap).blockGone n).hears n false = hit
  have hloss : u.badHeader n gap = (v.laneDown n hit, lossBits false true ++ chosen [(hit, Flt.AZL_ABT)]) := by
    rw [badHeader_eq gap (ulock.trans hlock), if_pos (by rw [headerSeen_shTh, ulimit, headerAges_length, uages]; exact hages),
      blockLoss_eq false (by rw [hstSeen]; decide), laneLeave_up false (hgone.laneSt.trans hstSeen) rfl, hv, hh]
  obtain ⟨hdown, -, -⟩ := laneDown_status v n hit
  obtain ⟨dmem, -⟩ := laneDown_frame v n hit
  rw [hloss]
  dsimp only
  rw [hdown]
  obtain ⟨rmem, -⟩ := raiseFlts_rest (v.laneDown n hit) (lanePage n)
    (ks ++ (lossBits false true ++ chosen [(hit, Flt.AZL_ABT)]) ++ chosen [((6 : Nat) == 4, Flt.AZL_TRF)])
  have vmem : v.mem = s.mem := by
    rw [← hv, (lossCounted_frame _ n false true).mem, hgone.mem, hseen.mem, umem]
  exact ⟨(raiseFlts_laneSt ..).trans hdown, raiseFlts_laneBit _ n (by decide) (by simp [lossBits, chosen]),
    rmem.trans (dmem.trans vmem)⟩

theorem answers_headerInVerify {s : State} {n : Fin 20} {sym : List (Fin 4)} {b : Bool} {gap : Nat} (hrun : s.phase = .run)
    (hon : s.laneOn n = true) (hst : s.laneSt n = 4) (hlock : s.on (R.AZL_LSTAT_BLKLK n) = true) (hnone : (s.lane n).badHdr = [])
    (hx : (s.receive n (sym.map Fin.val)).1 = Option.none) : Answers (.invalidBlock n sym b gap) s (fun t => t.laneSt n = 7 ∧
      t.bit (R.FLT (lanePage n)) Flt.AZL_TRF = true) := by
  obtain ⟨-, ust, ulock, ulimit, uages⟩ := headerTold_badBlock s n (sym.map Fin.val) b
  refine answers_live (exec_invalidBlock sym b gap hon) hrun ?_
  rw [invalidBlock_none b gap hx]
  generalize (s.received n (sym.map Fin.val)).badBlock n Option.none b = p at ust ulock ulimit uages
  obtain ⟨u, ks⟩ := p
  dsimp only at ust ulock ulimit uages ⊢
  have hfew : ¬ (u.headerSeen n gap).shTh n ≤ (headerAges (u.lane n).badHdr gap).length := by
    have hfour : 4 ≤ (u.headerSeen n gap).shTh n := by
      unfold State.shTh
      omega
    rw [uages, hnone]
    show ¬ (u.headerSeen n gap).shTh n ≤ 1
    omega
  have hstill : (u.headerSeen n gap).laneSt n = 4 := (headerSeen_frame u n gap).laneSt.trans (ust.trans hst)
  rw [badHeader_eq gap (ulock.trans hlock), if_neg hfew]
  dsimp only
  rw [hstill]
  obtain ⟨hfault, htrf, -⟩ := enteredFault (n := n) (u.headerSeen n gap)
    (ks := ks ++ [] ++ chosen [((4 : Nat) == 4, Flt.AZL_TRF)]) (by simp [chosen])
  exact ⟨hfault, htrf⟩

end Sys2Proof.Machine
end

/-! O30, third part: Leap sites, the admission, and the statement. -/

section
namespace Sys2Proof.Machine

/-! ### Leap sites -/

/-- With no frame under way and none waiting, a gap of the transmitter takes no time and starts nothing. -/
theorem State.gap_quiet {s : State} {n : Nat} (htx : (s.lane n).tx = Option.none) (hqueue : s.azf.queue = []) :
    (s.gapTime n).gaps n = s := by
  have htime : s.gapTime n = s := by rw [State.gapTime, htx]
  rw [htime, State.gaps, hqueue]
  rfl

theorem exec_leapSite {s : State} {n : Fin 20} (occ : Fin 33) (leaps : Nat) (lstat : Byte) (hon : s.laneOn n = true) :
    exec (.leapSite n occ false leaps lstat) s =
      .next (live s ((((s.leapRate n occ false leaps).leapSeen n leaps (lstat.getLsbD 7)).gapTime n).gaps n)) := by
  show execLeapSite n occ false leaps lstat s = _
  rw [execLeapSite, hon]
  rfl

/-- The elastic buffer between its limits, at a site where no slot is being appended. -/
theorem leapRate_gap {s : State} {n occ : Nat} (leaps : Nat) (happ : s.appending n = false) (hpos : occ ≠ 0) (hlt : occ < 32) :
    s.leapRate n occ false leaps = if occ < 12 then s.incWrap (R.AZL_LEAP_INS n)
      else if 20 < occ ∧ 2 ≤ leaps then s.incWrap (R.AZL_LEAP_DEL n) else s := by
  rw [State.leapRate, if_neg (by omega), if_neg Bool.false_ne_true, happ, if_neg Bool.false_ne_true]

/-- Leap blocks without RF clear REMFLT. -/
theorem leapSeen_clear (s : State) (n : Nat) {k : Nat} (hk : k ≠ 0) :
    s.leapSeen n k false = (s.setLane n { s.lane n with rfRun := 0 }).putB (R.AZL_LSTAT_REMFLT n) false := by
  rw [State.leapSeen, if_neg hk]
  rfl

theorem leap_keys : ∀ n : Fin 20, (R.AZL_LSTAT_REMFLT n).key ≠ (R.AZL_LEAP_DEL n).key := by decide

/-- A Leap site inserts a block at a low occupancy, deletes one at a high occupancy, and does neither between. -/
theorem answers_leapSites {s : State} {n : Fin 20} (hrun : s.phase = .run) (hon : s.laneOn n = true) (hqueue : s.azf.queue = [])
    (htx : (s.lane n).tx = Option.none) (happ : s.appending n = false) :
    Answers (.leapSite n 8 false 0 0) s (fun t => OnlyFields [R.AZL_LEAP_INS n] s t ∧
      t.get (R.AZL_LEAP_INS n) = (s.get (R.AZL_LEAP_INS n) + 1) % 2 ^ (R.AZL_LEAP_INS n).width) ∧
    Answers (.leapSite n 24 false 2 0) s (fun t =>
      OnlyFields [R.AZL_LEAP_DEL n, R.AZL_LSTAT_REMFLT n] { s with lanes := t.lanes } t ∧
      t.on (R.AZL_LSTAT_REMFLT n) = false ∧
      t.get (R.AZL_LEAP_DEL n) = (s.get (R.AZL_LEAP_DEL n) + 1) % 2 ^ (R.AZL_LEAP_DEL n).width) ∧
    Answers (.leapSite n 16 false 0 0) s (fun t => t = s) := by
  refine ⟨?_, ?_, ?_⟩
  · refine answers_live (t := s.incWrap (R.AZL_LEAP_INS n)) ?_ hrun
      ⟨onlyFields_incWrap (by simp) (onlyFields_refl _ s), State.get_put_self ..⟩
    have hrate : s.leapRate n (8 : Fin 33) false 0 = s.incWrap (R.AZL_LEAP_INS n) := leapRate_gap 0 happ (by decide) (by decide)
    have hgap : ((s.incWrap (R.AZL_LEAP_INS n)).gapTime n).gaps n = s.incWrap (R.AZL_LEAP_INS n) := State.gap_quiet htx hqueue
    rw [exec_leapSite 8 0 0 hon, hrate, State.leapSeen, if_pos rfl, hgap]
  · generalize hu : (s.incWrap (R.AZL_LEAP_DEL n)).setLane n { s.lane n with rfRun := 0 } = u
    have hframe : OnlyFields [R.AZL_LEAP_DEL n, R.AZL_LSTAT_REMFLT n] { s with lanes := u.lanes } u := by
      rw [← hu]
      exact onlyFields_incWrap (t := { s with lanes := _ }) (by simp) (onlyFields_refl _ _)
    have hdel : u.get (R.AZL_LEAP_DEL n) = (s.get (R.AZL_LEAP_DEL n) + 1) % 2 ^ (R.AZL_LEAP_DEL n).width := by
      rw [← hu]
      exact State.get_put_self ..
    have htxu : (u.lane n).tx = Option.none := by
      rw [← hu, State.lane_setLane]
      exact htx
    have hqueueu : u.azf.queue = [] := by
      rw [← hu]
      exact hqueue
    refine answers_live (t := u.putB (R.AZL_LSTAT_REMFLT n) false) ?_ hrun ⟨onlyFields_putB (by simp) hframe, ?_, ?_⟩
    · have hrate : s.leapRate n (24 : Fin 33) false 2 = s.incWrap (R.AZL_LEAP_DEL n) := leapRate_gap 2 happ (by decide) (by decide)
      have hseen : (s.incWrap (R.AZL_LEAP_DEL n)).leapSeen n 2 ((0 : Byte).getLsbD 7) = u.putB (R.AZL_LSTAT_REMFLT n) false := by
        rw [← hu]
        exact leapSeen_clear _ n (by decide)
      have hgap : ((u.putB (R.AZL_LSTAT_REMFLT n) false).gapTime n).gaps n = u.putB (R.AZL_LSTAT_REMFLT n) false :=
        State.gap_quiet htxu hqueueu
      rw [exec_leapSite 24 2 0 hon, hrate, hseen, hgap]
    · rw [State.on, State.putB, State.get_put_self]
      rfl
    · rw [State.putB, State.get_put_ne _ _ _ _ (leap_keys n), hdel]
  · have hrate : s.leapRate n (16 : Fin 33) false 0 = s := leapRate_gap 0 happ (by decide) (by decide)
    refine answers_live (t := s) ?_ hrun rfl
    rw [exec_leapSite 16 0 0 hon, hrate, State.leapSeen, if_pos rfl, State.gap_quiet htx hqueue]

/-! ### The admission -/

/-- The round on ring or chain `r` noted, before its Enum is sent. -/
def State.roundNoted (s : State) (r : Nat) : State :=
  { s with azf := { s.azf with
      enums := alPut s.azf.enums r ⟨s.get R.AZF_ENUM_ROUND, 0, [], Option.none, Option.none, false, false⟩ } }

theorem enumStart_eq (s : State) (r : Nat) : s.enumStart r = (s.roundNoted r).launch r ((s.roundNoted r).frame
    { (s.roundNoted r).hdr tyEnum with ring := r }
    (enumHead (s.roundNoted r).sideB false (s.roundNoted r).enumPair ((s.roundNoted r).enumLen r) (s.get R.AZF_ENUM_ROUND))) := rfl

theorem sends_enumStart (s : State) (r : Nat) : Sends (fun _ => True) s (s.enumStart r) := by
  have hnoted : Sends (fun _ => True) s (s.roundNoted r) := sends_azf s fun _ hq => .inr hq
  rw [enumStart_eq]
  refine sends_trans hnoted (sends_launch _ trivial (oneBuffer_frame _ _ _ (show tyEnum < 64 by decide) ?_))
  simp [enumHead]

/-- A new round on one ring or chain changes, of the registers, ROUND and what sending may. -/
theorem enumRound_get (s : State) (p : Nat → Bool) {g : Fld} (hround : g.key ≠ R.AZF_ENUM_ROUND.key) (hg : sendKey g.key = false) :
    (s.enumRound p).get g = s.get g := by
  have hall : Sends (fun _ => True) (s.incWrap R.AZF_ENUM_ROUND) (s.enumRound p) := by
    refine sends_forEach (l := List.range 16) (f := fun r x => if p r then x.enumStart r else x) fun r _ x => ?_
    split
    · exact sends_enumStart x r
    · exact sends_refl x
  rw [hall.get g hg, State.incWrap, State.get_put_ne _ _ _ _ hround.symm]

theorem inSvc_apart : ∀ n : Fin 20, (R.AZL_LSTAT_INSVC n).key ≠ R.AZF_ENUM_ROUND.key ∧ sendKey (R.AZL_LSTAT_INSVC n).key = false ∧
    (R.AZL_LSTAT_INSVC n).key ≠ R.SYS_STRAP_BAD.key ∧ (R.AZL_LSTAT_INSVC n).key ≠ R.SYS_STRAP_ROLE.key := by decide

/-- Lane `n` put in service with its delay to be measured anew, before a round starts. -/
def State.admitted (s : State) (n : Nat) : State :=
  let u := s.put (R.AZL_LSTAT_INSVC n) 1
  { u with azf := { u.azf with links := setNth u.azf.links n LinkMeas.init LinkMeas.init } }

theorem admitted_isK (s : State) (n : Fin 20) : (s.admitted n).isK = s.isK := by
  obtain ⟨-, -, hbad, hrole⟩ := inSvc_apart n
  have hget : ∀ g : Fld, (R.AZL_LSTAT_INSVC n).key ≠ g.key → (s.admitted n).get g = s.get g :=
    fun g hg => State.get_put_ne s _ g 1 hg
  simp only [State.isK, State.role, State.on, hget _ hbad, hget _ hrole]
  rfl

theorem admitLane_eq (s : State) (n : Nat) : s.admitLane n = (s.admitted n).when
    (((s.admitted n).isC || (s.admitted n).isS) && (s.admitted n).azfOn && (s.admitted n).enumHas n)
    ((s.admitted n).enumRound (fun r => r == n)) := rfl

theorem admitLane_inSvc (s : State) (n : Fin 20) : (s.admitLane n).inSvc n = true := by
  obtain ⟨hround, hsend, -⟩ := inSvc_apart n
  have hput : (s.admitted n).get (R.AZL_LSTAT_INSVC n) = 1 := State.get_put_self s (R.AZL_LSTAT_INSVC n) 1
  rw [State.inSvc, State.on, admitLane_eq, State.when]
  split
  · rw [enumRound_get _ _ hround hsend, hput]
    rfl
  · rw [hput]
    rfl

/-- A cell starts no round. -/
theorem admitLane_cell {s : State} {n : Fin 20} (hk : s.isK = true) : s.admitLane n = s.admitted n := by
  have hnone : ((s.admitted n).isC || (s.admitted n).isS) = false := by
    refine Bool.eq_false_iff.mpr fun h => ?_
    have hcell := (admitted_isK s n).trans hk
    rw [State.not_cell_of_member (Or.symm (by simpa using h))] at hcell
    exact Bool.false_ne_true hcell
  rw [admitLane_eq, hnone]
  rfl

theorem answers_admission {s : State} {n : Fin 20} (hrun : s.phase = .run) (hon : s.laneOn n = true) (hup : s.laneSt n = 5)
    (hout : s.inSvc n = false) (hwhole : max 1 (s.get (R.AZL_TRCFG_ADMIT n)) ≤ (s.lane n).whole) :
    Answers (.laneAdmission n) s (fun t => t.inSvc n = true ∧
      (s.isK = true → t.mem = s.mem ∧ KeepsFieldsBut [R.AZL_LSTAT_INSVC n] s t ∧
        nth t.azf.links n LinkMeas.init = LinkMeas.init)) := by
  refine answers_live (t := s.admitLane n) ?_ hrun ⟨admitLane_inSvc s n, fun hk => ?_⟩
  · show execLaneAdmission n s = _
    rw [execLaneAdmission, hon, State.laneUp, hup, hout, decide_eq_true hwhole]
    rfl
  · rw [admitLane_cell hk]
    exact ⟨rfl, (laneFrame_put List.mem_cons_self (laneFrame_refl [R.AZL_LSTAT_INSVC n] s)).get, nth_setNth_self ..⟩

theorem answers_notAdmitted {s : State} {n : Fin 20} (hrun : s.phase = .run) (hst : s.laneSt n ≠ 5) :
    Answers (.laneAdmission n) s (fun t => t = s) := by
  have hdown : s.laneUp n = false := beq_eq_false_iff_ne.mpr hst
  refine answers_live (t := s) ?_ hrun rfl
  show execLaneAdmission n s = _
  rw [execLaneAdmission, hdown, Bool.and_false, Bool.false_and, Bool.false_and, State.when_false]

/-! ### The statement -/

/-- Settles O30: every departure notes its cause, leaves UP and raises its FLT bits by one rule each, so that the commands
differ only in what they note. -/
theorem laneDeparturesAndRetries : Obligations.LaneDeparturesAndRetries := by
  unfold Obligations.LaneDeparturesAndRetries
  intro s n ppm b k mv ns gap sym fr x hrun hon hmv hns
  refine ⟨fun hup hppm hlos hsrb c hc => ⟨?_, fun d hd => ?_⟩,
    fun hup hlos hk => answers_losWithLock hrun hon hmv hns hup hlos hk,
    fun hst hlos => answers_trainFails hrun hon hmv hns hst hlos,
    fun hst hauto hsrb => answers_retries hrun hon hst hauto hsrb,
    fun hup hx hkind => answers_badFrame hrun hon hup hx hkind,
    fun hup hlock hx hkind => answers_codeBetween hrun hon hup hlock hx hkind,
    fun hup hlock hx hages => answers_headersLoseLock hrun hon hup hlock hx hages,
    fun hst hlock hnone hx => answers_headerInVerify hrun hon hst hlock hnone hx,
    fun hqueue htx happ => answers_leapSites hrun hon hqueue htx happ,
    fun hup hout hwhole => answers_admission hrun hon hup hout hwhole, answers_notAdmitted hrun⟩
  · have hdown : ∃ fr, Answers c s (WentDown n fr s) := by
      have htold := answers_wentDown (k := k) (fr := fr) hrun hon hmv hns hup hppm hlos
      have huntold := answers_wentDown_untold hrun hon hup hsrb
      simp only [List.mem_cons, List.not_mem_nil, or_false] at hc htold huntold
      rcases hc with h | h | h | h | h | h
      · exact ⟨fr, htold c (by simp [h])⟩
      · exact ⟨fr, htold c (by simp [h])⟩
      · exact ⟨fr, htold c (by simp [h])⟩
      · exact ⟨false, huntold c (by simp [h])⟩
      · exact ⟨fr, htold c (by simp [h])⟩
      · exact ⟨false, huntold c (by simp [h])⟩
    obtain ⟨fr, hdown⟩ := hdown
    exact hdown.imp fun t h => ⟨h.state, h.service, h.mem, h.counted⟩
  · exact (answers_wentDown hrun hon hmv hns hup hppm hlos d hd).imp fun t h => h.hit rfl

end Sys2Proof.Machine
end

/-! O29, first part: LOS clears, block lock, and the end of VERIFY. -/

section
namespace Sys2Proof.Machine

/-! ### From WAKE to ALIGN -/

theorem exec_losClear {s : State} {n : Fin 20} (mv ns : Nat) : exec (.losClear n mv ns) s =
    .next (live s (s.when (s.laneOn n && decide (s.losOff n ≤ mv ∧ s.losDly n ≤ ns)) ((s.put (R.AZL_LSTAT_LOS n) 0).laneAlign n))) := rfl

theorem los_keys : ∀ n : Fin 20, (R.AZL_LSTAT_LOS n).key ≠ (R.AZL_LSTAT_STATE n).key ∧
    (R.AZL_LSTAT_LOS n).key ≠ (R.AZL_PPM_PPM n).key ∧ (R.AZL_LSTAT_LOS n).key ≠ (R.AZL_LOLCFG_PPMTH n).key := by decide

/-- Without LOS, a lane in WAKE with a measured offset within PPMTH goes on to ALIGN. -/
theorem laneAlign_wake {s : State} {n : Fin 20} (hst : s.laneSt n = 1) (hmeasured : (s.lane n).measured = true)
    (hppm : (s.getS (R.AZL_PPM_PPM n)).natAbs ≤ s.ppmTh n) :
    (s.put (R.AZL_LSTAT_LOS n) 0).laneAlign n = (s.put (R.AZL_LSTAT_LOS n) 0).put (R.AZL_LSTAT_STATE n) 2 := by
  obtain ⟨kstate, kppm, kth⟩ := los_keys n
  generalize hu : s.put (R.AZL_LSTAT_LOS n) 0 = u
  have hget : ∀ g : Fld, (R.AZL_LSTAT_LOS n).key ≠ g.key → u.get g = s.get g := fun g hg =>
    hu ▸ State.get_put_ne s _ g 0 hg
  have ust : u.laneSt n = 1 := (hget _ kstate).trans hst
  have ulos : u.on (R.AZL_LSTAT_LOS n) = false := by
    rw [State.on, ← hu, State.get_put_self]
    rfl
  have umeasured : (u.lane n).measured = true := hu ▸ hmeasured
  have uppm : (u.getS (R.AZL_PPM_PPM n)).natAbs ≤ u.ppmTh n := by
    rw [State.getS, State.ppmTh, hget _ kppm, hget _ kth]
    exact hppm
  rw [State.laneAlign, ust, ulos, umeasured, decide_eq_true uppm]
  rfl

theorem answers_losClear {s : State} {n : Fin 20} {mv ns : Nat} (hrun : s.phase = .run) (hon : s.laneOn n = true)
    (hst : s.laneSt n = 1) (hmeasured : (s.lane n).measured = true)
    (hppm : (s.getS (R.AZL_PPM_PPM n)).natAbs ≤ s.ppmTh n) (hmv : s.losOff n ≤ mv) (hns : s.losDly n ≤ ns) :
    Answers (.losClear n mv ns) s (fun t => t.laneSt n = 2 ∧
      t.on (R.AZL_LSTAT_LOS n) = false ∧ OnlyFields [R.AZL_LSTAT_STATE n, R.AZL_LSTAT_LOS n] s t) := by
  obtain ⟨kstate, -⟩ := los_keys n
  refine answers_live (t := (s.put (R.AZL_LSTAT_LOS n) 0).put (R.AZL_LSTAT_STATE n) 2) ?_ hrun ⟨State.get_put_self .., ?_,
    onlyFields_put (by simp) (onlyFields_put (by simp) (onlyFields_refl _ s))⟩
  · rw [exec_losClear, hon, decide_eq_true ⟨hmv, hns⟩, laneAlign_wake hst hmeasured hppm]
    rfl
  · rw [State.on, State.get_put_ne _ _ _ _ kstate.symm, State.get_put_self]
    rfl

theorem answers_losClearShort {s : State} {n : Fin 20} {mv ns : Nat} (hrun : s.phase = .run)
    (hshort : mv < s.losOff n ∨ ns < s.losDly n) : Answers (.losClear n mv ns) s (fun t => t = s) := by
  refine answers_live (t := s) ?_ hrun rfl
  rw [exec_losClear, decide_eq_false (by omega), Bool.and_false, State.when_false]

/-! ### From ALIGN to TRAIN -/

/-- Block lock noted, with no invalid header held against it. -/
def State.lockNoted (s : State) (n : Nat) : State :=
  ((s.put (R.AZL_LSTAT_BLKLK n) 1).setLane n { s.lane n with badHdr := [] }).idleTo n

/-- Entry to TRAIN. -/
def State.trainEntered (s : State) (n : Nat) : State :=
  (s.setLane n { s.lane n with since := s.fcu.timeNs, farRrdy := false, farCount := 255 }).put (R.AZL_LSTAT_STATE n) 3

theorem blklk_key : ∀ n : Fin 20, (R.AZL_LSTAT_STATE n).key ≠ (R.AZL_LSTAT_BLKLK n).key := by decide

theorem blockLock_align {s : State} {n : Fin 20} (hst : s.laneSt n = 2) : s.blockLock n = (s.lockNoted n).trainEntered n := by
  have hkeep : (s.put (R.AZL_LSTAT_BLKLK n) 1).laneSt n = 2 := (State.get_put_ne _ _ _ _ (blklk_key n).symm).trans hst
  unfold State.blockLock
  exact if_pos hkeep

theorem lockNoted_spec (s : State) (n : Nat) : { s.lockNoted n with lanes := s.lanes, regs := s.regs } = s ∧
    LaneFrame [R.AZL_LSTAT_BLKLK n] s (s.lockNoted n) ∧ (s.lockNoted n).on (R.AZL_LSTAT_BLKLK n) = true := by
  generalize hu : (s.put (R.AZL_LSTAT_BLKLK n) 1).setLane n { s.lane n with badHdr := [] } = u
  have hframe : LaneFrame [R.AZL_LSTAT_BLKLK n] s u := hu ▸ laneFrame_setLane (laneFrame_put (by simp) (laneFrame_refl _ s))
  obtain ⟨hrest, -⟩ := u.idleTo_spec n
  have hidle : s.lockNoted n = u.idleTo n := by rw [State.lockNoted, hu]
  rw [hidle]
  refine ⟨?_, laneFrame_lanes hframe (u.idleTo_only n), ?_⟩
  · refine ((congrArg (fun x : State => { x with lanes := s.lanes, regs := s.regs }) hrest) :).trans ?_
    rw [← hu]
    rfl
  · rw [State.on, (u.idleTo_only n).get, ← hu]
    exact congrArg (· == 1) (State.get_put_self s (R.AZL_LSTAT_BLKLK n) 1)

theorem answers_blockLock {s : State} {n : Fin 20} (hrun : s.phase = .run) (hon : s.laneOn n = true) (hst : s.laneSt n = 2) :
    Answers (.blockLock n) s (fun t => t.laneSt n = 3 ∧ t.on (R.AZL_LSTAT_BLKLK n) = true ∧ (t.lane n).since = s.fcu.timeNs ∧
      OnlyFields [R.AZL_LSTAT_STATE n, R.AZL_LSTAT_BLKLK n] { s with lanes := t.lanes } t) := by
  obtain ⟨hrest, hframe, hlock⟩ := lockNoted_spec s n
  have htime : (s.lockNoted n).fcu = s.fcu := (congrArg State.fcu hrest :)
  have hentered : LaneFrame [R.AZL_LSTAT_STATE n, R.AZL_LSTAT_BLKLK n] s ((s.lockNoted n).trainEntered n) :=
    laneFrame_put (by simp) (laneFrame_setLane (hframe.mono (by simp)))
  refine answers_live (t := (s.lockNoted n).trainEntered n) ?_ hrun ⟨State.get_put_self .., ?_, ?_, ?_, hentered.get⟩
  · show execBlockLock n s = _
    rw [execBlockLock, hon, hst, blockLock_align hst]
    rfl
  · rw [State.on, State.trainEntered, State.get_put_ne _ _ _ _ (blklk_key n)]
    exact hlock
  · show ((State.setLane _ n _).lane n).since = _
    rw [State.lane_setLane]
    exact congrArg FcuState.timeNs htime
  · exact (congrArg (fun x : State => { x with lanes := ((s.lockNoted n).trainEntered n).lanes }) hrest :)

/-! ### From VERIFY to UP -/

theorem answers_verified {s : State} {n : Fin 20} (hrun : s.phase = .run) (hon : s.laneOn n = true) (hst : s.laneSt n = 4) :
    Answers (.verifyComplete n) s (fun t => t.laneUp n = true ∧ (t.lane n).whole = 0 ∧ t.fcu.timeNs = s.fcu.timeNs + 167773 ∧
      t.mem = s.mem ∧ KeepsFieldsBut [R.AZL_LSTAT_STATE n] s t) := by
  obtain ⟨-, htime⟩ := s.elapse_frame 167773
  have hpassed : LaneFrame [R.AZL_LSTAT_STATE n] s (s.elapse 167773) := laneFrame_elapse (laneFrame_refl _ s)
  generalize hu : s.elapse 167773 = u at htime hpassed
  have hframe := laneFrame_trans hpassed (laneEnter_frame u n 5)
  have hclock : (u.laneEnter n 5).fcu = u.fcu := (congrArg State.fcu (u.idleTo_only n) :)
  refine answers_live (t := u.laneEnter n 5) ?_ hrun
    ⟨beq_iff_eq.mpr (laneEnter_laneSt u n 5), ?_, ?_, hframe.mem, hframe.get⟩
  · show execVerifyComplete n s = _
    rw [execVerifyComplete, hon, hst, hu]
    rfl
  · show ((State.setLane _ n _).lane n).whole = 0
    rw [State.lane_setLane]
  · rw [hclock, htime]

end Sys2Proof.Machine
end

/-! O29, second part: the countdowns and the Train blocks, and the statement. -/

section
namespace Sys2Proof.Machine

/-! ### The switch to the agreed precoding -/

theorem State.on_putB (s : State) {f : Fld} (b : Bool) (hf : f.width = 1) : (s.putB f b).on f = b := by
  rw [State.on, State.putB, State.get_put_self, hf]
  cases b with
  | true => rfl
  | false => rfl

theorem txSwitch_spec (s : State) (n : Nat) : LaneFrame [R.AZL_LSTAT_TXPREC n] s (s.txSwitch n) ∧
    (s.txSwitch n).lane n = { s.lane n with last := 0 } ∧
    (s.txSwitch n).on (R.AZL_LSTAT_TXPREC n) = ((s.lane n).farPrecReq && s.on (R.AZL_LCTL_PRECALLOW n)) :=
  ⟨laneFrame_put (by simp) (laneFrame_setLane (laneFrame_refl _ s)), State.lane_setLane _ _ _, State.on_putB _ _ rfl⟩

theorem rxSwitch_spec (s : State) (n : Nat) : LaneFrame [R.AZL_LSTAT_RXPREC n] s (s.rxSwitch n) ∧
    (s.rxSwitch n).lane n = { s.lane n with rxLast := 0 } ∧
    (s.rxSwitch n).on (R.AZL_LSTAT_RXPREC n) = ((s.lane n).farPrecAck && s.on (R.AZL_LCTL_PRECREQ n)) :=
  ⟨laneFrame_put (by simp) (laneFrame_setLane (laneFrame_refl _ s)), State.lane_setLane _ _ _, State.on_putB _ _ rfl⟩

/-! ### The countdown -/

/-- A lane whose countdown has fallen by `k`. -/
def State.countedDown (s : State) (n k : Nat) : State := s.setLane n { s.lane n with count := (s.lane n).count - k }

/-- The running countdown falls, and at 0 the transmitter switches. -/
theorem countDown_running {s : State} {n : Nat} (k : Nat) (hrun : (s.lane n).counting = true) (hpos : (s.lane n).count ≠ 0) :
    s.countDown n k = if (s.lane n).count ≤ k then (s.countedDown n k).txSwitch n else s.countedDown n k := by
  unfold State.countDown
  dsimp only
  rw [if_neg (by simp [hrun, hpos])]
  rfl

theorem countDown_cases (s : State) (n k : Nat) : s.countDown n k = s ∨
    s.countDown n k = if (s.lane n).count ≤ k then (s.countedDown n k).txSwitch n else s.countedDown n k := by
  unfold State.countDown
  dsimp only
  split
  · exact .inl rfl
  · exact .inr rfl

theorem countDown_frame (s : State) (n k : Nat) : LaneFrame [R.AZL_LSTAT_TXPREC n] s (s.countDown n k) := by
  have hcounted : LaneFrame [R.AZL_LSTAT_TXPREC n] s (s.countedDown n k) := laneFrame_setLane (laneFrame_refl _ s)
  rcases countDown_cases s n k with h | h
  · rw [h]
    exact laneFrame_refl _ s
  · rw [h]
    split
    · exact laneFrame_trans hcounted (txSwitch_spec _ n).1
    · exact hcounted

/-- A countdown that has more blocks to go than were sent does not reach 0. -/
theorem countDown_left {s : State} {n k : Nat} (hlt : k < (s.lane n).count) : ((s.countDown n k).lane n).count ≠ 0 := by
  rcases countDown_cases s n k with h | h
  · rw [h]
    omega
  · rw [h, if_neg (by omega), State.countedDown, State.lane_setLane]
    show (s.lane n).count - k ≠ 0
    omega

/-! ### Both countdowns run out -/

theorem prec_keys : ∀ n : Fin 20,
    (R.AZL_LSTAT_TXPREC n).key ∉ [R.AZL_LSTAT_RXPREC n, R.AZL_LSTAT_STATE n].map Fld.key ∧
    (R.AZL_LSTAT_RXPREC n).key ∉ [R.AZL_LSTAT_STATE n].map Fld.key ∧
    (R.AZL_LCTL_PRECREQ n).key ∉ [R.AZL_LSTAT_TXPREC n].map Fld.key := by decide

/-- The lane of a countdown about to run out, with the time of that passed. -/
def State.countdownTime (s : State) (n : Nat) : State :=
  (s.elapse ((256 * max (s.lane n).count (s.lane n).farCount + 99) / 100)).idleTo n

theorem countdownTime_spec (s : State) (n : Nat) : LaneFrame [] s (s.countdownTime n) ∧
    LineOnly (s.lane n) ((s.countdownTime n).lane n) := by
  generalize hdt : (256 * max (s.lane n).count (s.lane n).farCount + 99) / 100 = dt
  obtain ⟨hrest, -⟩ := s.elapse_frame dt
  obtain ⟨-, hline⟩ := (s.elapse dt).idleTo_spec n
  have hlanes : (s.elapse dt).lanes = s.lanes := (congrArg State.lanes hrest :)
  have hlane : (s.elapse dt).lane n = s.lane n := by rw [State.lane, hlanes, State.lane]
  rw [State.countdownTime, hdt]
  exact ⟨laneFrame_lanes (laneFrame_elapse (laneFrame_refl _ s)) (State.idleTo_only _ n), hlane ▸ hline⟩

/-- With the far end's countdown at 0 the receiver switches, and VERIFY is entered. -/
def State.verifyEntered (s : State) (n : Nat) : State :=
  ((s.setLane n { s.lane n with farCount := 0 }).rxSwitch n).put (R.AZL_LSTAT_STATE n) 4

theorem countdownDone_eq (s : State) (n : Nat) :
    s.countdownDone n = ((s.countdownTime n).countDown n (s.lane n).count).verifyEntered n := rfl

theorem verifyEntered_spec (s : State) (n : Fin 20) :
    LaneFrame [R.AZL_LSTAT_RXPREC n, R.AZL_LSTAT_STATE n] s (s.verifyEntered n) ∧
    (s.verifyEntered n).laneSt n = 4 ∧ ((s.verifyEntered n).lane n).count = (s.lane n).count ∧
    ((s.verifyEntered n).lane n).farCount = 0 ∧
    (s.verifyEntered n).on (R.AZL_LSTAT_RXPREC n) = ((s.lane n).farPrecAck && s.on (R.AZL_LCTL_PRECREQ n)) := by
  generalize hu : s.setLane n { s.lane n with farCount := 0 } = u
  obtain ⟨hframe, hlane, hprec⟩ := rxSwitch_spec u n
  obtain ⟨-, hkey, -⟩ := prec_keys n
  have hulane : u.lane n = { s.lane n with farCount := 0 } := hu ▸ State.lane_setLane ..
  have huget : ∀ g, u.on g = s.on g := fun _ => hu ▸ rfl
  have hput : LaneFrame [R.AZL_LSTAT_STATE n] (u.rxSwitch n) ((u.rxSwitch n).put (R.AZL_LSTAT_STATE n) 4) :=
    laneFrame_put (by simp) (laneFrame_refl _ _)
  have heq : s.verifyEntered n = (u.rxSwitch n).put (R.AZL_LSTAT_STATE n) 4 := by rw [State.verifyEntered, hu]
  have hlane' : (s.verifyEntered n).lane n = { s.lane n with farCount := 0, rxLast := 0 } := by
    rw [heq]
    refine (show ((u.rxSwitch n).put (R.AZL_LSTAT_STATE n) 4).lane n = (u.rxSwitch n).lane n from rfl).trans ?_
    rw [hlane, hulane]
  refine ⟨?_, ?_, by rw [hlane'], by rw [hlane'], ?_⟩
  · rw [heq, ← hu]
    exact laneFrame_put (by simp) (laneFrame_trans (laneFrame_setLane (laneFrame_refl _ s)) ((rxSwitch_spec _ n).1.mono (by simp)))
  · rw [heq]
    exact State.get_put_self ..
  · rw [heq, State.on, hput.get _ hkey]
    refine hprec.trans ?_
    rw [hulane, huget]

theorem exec_countdown (s : State) (n : Fin 20) : exec (.countdownComplete n) s =
    .next (live s (s.when (s.laneOn n && s.laneSt n == 3 && (s.lane n).counting) (s.countdownDone n))) := rfl

theorem answers_countdown {s : State} {n : Fin 20} (hrun : s.phase = .run) (hon : s.laneOn n = true) (hst : s.laneSt n = 3)
    (hnear : (s.lane n).rrdy = true) (hfar : (s.lane n).farRrdy = true) (hpos : (s.lane n).count ≠ 0) :
    Answers (.countdownComplete n) s (fun t => t.laneSt n = 4 ∧ (t.lane n).count = 0 ∧ (t.lane n).farCount = 0 ∧
      t.on (R.AZL_LSTAT_TXPREC n) = ((s.lane n).farPrecReq && s.on (R.AZL_LCTL_PRECALLOW n)) ∧
      t.on (R.AZL_LSTAT_RXPREC n) = ((s.lane n).farPrecAck && s.on (R.AZL_LCTL_PRECREQ n)) ∧ t.mem = s.mem ∧
      KeepsFieldsBut [R.AZL_LSTAT_STATE n, R.AZL_LSTAT_TXPREC n, R.AZL_LSTAT_RXPREC n] s t) := by
  have hcounting : (s.lane n).counting = true := by rw [LaneState.counting, hnear, hfar]; rfl
  obtain ⟨htx, -, hreq⟩ := prec_keys n
  obtain ⟨uframe, uline⟩ := countdownTime_spec s n
  generalize hu : s.countdownTime n = u at uframe uline
  have ucounting : (u.lane n).counting = (s.lane n).counting := (congrArg LaneState.counting uline :)
  have ucount : (u.lane n).count = (s.lane n).count := (congrArg LaneState.count uline :)
  obtain ⟨vframe, vlane, vprec⟩ := txSwitch_spec (u.countedDown n (s.lane n).count) n
  have vstate : u.countDown n (s.lane n).count = (u.countedDown n (s.lane n).count).txSwitch n := by
    rw [countDown_running _ (ucounting.trans hcounting) (ucount ▸ hpos), if_pos (Nat.le_of_eq ucount)]
  generalize (u.countedDown n (s.lane n).count).txSwitch n = v at vframe vlane vprec vstate
  have hv : LaneFrame [R.AZL_LSTAT_TXPREC n] s v :=
    laneFrame_trans (uframe.mono (by simp)) (laneFrame_trans (laneFrame_setLane (laneFrame_refl _ u)) vframe)
  have hclane : (u.countedDown n (s.lane n).count).lane n = { u.lane n with count := (u.lane n).count - (s.lane n).count } :=
    State.lane_setLane ..
  obtain ⟨wframe, wst, wcount, wfar, wprec⟩ := verifyEntered_spec v n
  refine answers_live (t := v.verifyEntered n) ?_ hrun ⟨wst, ?_, wfar, ?_, ?_, wframe.mem.trans hv.mem,
    (laneFrame_trans (hv.mono (by simp)) (wframe.mono (by simp))).get⟩
  · rw [exec_countdown, hon, hst, hcounting, countdownDone_eq, hu, vstate]
    rfl
  · rw [wcount, vlane, hclane]
    exact Nat.sub_eq_zero_of_le (Nat.le_of_eq ucount)
  · have hallow : u.on (R.AZL_LCTL_PRECALLOW n) = s.on (R.AZL_LCTL_PRECALLOW n) := congrArg (· == 1) (uframe.get _ (by simp))
    have hfarReq : (u.lane n).farPrecReq = (s.lane n).farPrecReq := (congrArg LaneState.farPrecReq uline :)
    rw [State.on, wframe.get _ htx, ← hallow, ← hfarReq]
    refine vprec.trans ?_
    rw [hclane]
    rfl
  · have hack : (v.lane n).farPrecAck = (s.lane n).farPrecAck := by
      rw [vlane, hclane]
      exact (congrArg LaneState.farPrecAck uline :)
    have hon' : v.on (R.AZL_LCTL_PRECREQ n) = s.on (R.AZL_LCTL_PRECREQ n) := congrArg (· == 1) (hv.get _ hreq)
    rw [wprec, hack, hon']

theorem answers_countdownIdle {s : State} {n : Fin 20} (hrun : s.phase = .run)
    (hidle : (s.lane n).rrdy = false ∨ (s.lane n).farRrdy = false) : Answers (.countdownComplete n) s (fun t => t = s) := by
  have hcounting : (s.lane n).counting = false := by
    rw [LaneState.counting]
    rcases hidle with h | h
    · rw [h, Bool.false_and]
    · rw [h, Bool.and_false]
  refine answers_live (t := s) ?_ hrun rfl
  rw [exec_countdown, hcounting, Bool.and_false, State.when_false]

/-! ### A Train block received -/

/-- The settings of this end's transmitter. -/
def tapFields (n : Nat) : List Fld := [R.AZL_TXEQ_PRE n, R.AZL_TXEQ_MAIN n, R.AZL_TXEQ_POST n]

/-- The transmitter's settings put. -/
def State.putTaps (s : State) (n pre main post : Nat) : State :=
  ((s.put (R.AZL_TXEQ_PRE n) pre).put (R.AZL_TXEQ_MAIN n) main).put (R.AZL_TXEQ_POST n) post

theorem putTaps_frame (s : State) (n pre main post : Nat) : LaneFrame (tapFields n) s (s.putTaps n pre main post) :=
  laneFrame_put (by simp [tapFields]) (laneFrame_put (by simp [tapFields]) (laneFrame_put (by simp [tapFields]) (laneFrame_refl _ s)))

theorem main_post_keys : ∀ n : Fin 20, (R.AZL_TXEQ_POST n).key ≠ (R.AZL_TXEQ_MAIN n).key := by decide

theorem putTaps_main (s : State) (n : Fin 20) (pre main post : Nat) :
    (s.putTaps n pre main post).get (R.AZL_TXEQ_MAIN n) = main % 2 ^ (R.AZL_TXEQ_MAIN n).width := by
  rw [State.putTaps, State.get_put_ne _ _ _ _ (main_post_keys n), State.get_put_self]

/-- PRESET loads the initial settings. -/
theorem trainTaps_preset {s : State} {n : Nat} {b : TrainBlock} (h : b.preset = true) : s.trainTaps n b =
    s.putTaps n (s.get (R.AZL_TXEQI_PRE n)) (s.get (R.AZL_TXEQI_MAIN n)) (s.get (R.AZL_TXEQI_POST n)) := by
  unfold State.trainTaps
  dsimp only
  rw [if_pos h]
  rfl

/-- Requests answered leave the countdown. -/
theorem trainTaps_spec (s : State) (n : Nat) (b : TrainBlock) : LaneFrame (tapFields n) s (s.trainTaps n b) ∧
    ((s.trainTaps n b).lane n).count = (s.lane n).count := by
  unfold State.trainTaps
  dsimp only
  split
  · exact ⟨putTaps_frame s n _ _ _, rfl⟩
  · refine ⟨laneFrame_setLane (putTaps_frame s n _ _ _), ?_⟩
    rw [State.lane_setLane]

/-- What a lane has learned from a Train block, and what it asks for. -/
structure Heard (b : TrainBlock) (mine : Adapt) (sent count : Nat) (l : LaneState) : Prop where
  farRrdy : l.farRrdy = b.rrdy
  farPrecReq : l.farPrecReq = b.precReq
  farPrecAck : l.farPrecAck = b.precAck
  farCount : l.farCount = b.countdown
  rrdy : l.rrdy = mine.rrdy
  held : b.stMain ≠ 0 → l.rqFarMain = 0
  restart : b.rrdy = false → sent < count → l.count = 255

theorem heard_trainNear {s : State} {n sent count : Nat} {b : TrainBlock} (mine : Adapt)
    (hleft : sent < count → (s.lane n).count ≠ 0) : Heard b mine sent count ((s.trainNear n b mine).lane n) := by
  rw [State.trainNear, State.lane_setLane]
  refine ⟨rfl, rfl, rfl, rfl, rfl, fun h => if_pos h, fun h hlt => ?_⟩
  have hpos := hleft hlt
  simp [h, hpos]

/-- Neither the receiver's switch nor the block put on the line touches what was learned. -/
theorem Heard.of_line {b : TrainBlock} {mine : Adapt} {sent count : Nat} {l m : LaneState} (h : Heard b mine sent count l)
    (hline : LineOnly l m) : Heard b mine sent count m := by
  rw [← hline] at h
  exact ⟨h.farRrdy, h.farPrecReq, h.farPrecAck, h.farCount, h.rrdy, h.held, h.restart⟩

/-- The lane as it has taken up a Train block: its countdown, the partner, the settings and the next requests. -/
def State.trainNoted (s : State) (n : Nat) (b : TrainBlock) (sent : Nat) : State :=
  (((s.idleTo n).countDown n sent).put (R.AZL_LSTAT_PROLE n) b.role).put (R.AZL_LSTAT_PLANE n) b.lane

/-- The lane as it answers: at COUNTDOWN = 0 the receiver switches, and the next block of its own goes on the line. -/
def State.trainAnswered (s : State) (n : Nat) (b : TrainBlock) : State :=
  let u := if b.countdown = 0 then s.rxSwitch n else s
  u.putLine n (u.idleBlock n).toList

theorem trainBlock_eq {s : State} {n : Nat} (b : TrainBlock) (sent : Nat) (mine : Adapt) (hst : s.laneSt n = 3) :
    s.trainBlock n b sent mine = ((((s.trainNoted n b sent).trainTaps n b).trainNear n b mine).trainAnswered n b).trained n := by
  unfold State.trainBlock
  rw [hst]
  rfl

theorem train_keys : ∀ n : Fin 20,
    (R.AZL_LSTAT_PLANE n).key ≠ (R.AZL_LSTAT_PROLE n).key ∧
    (R.AZL_TXEQI_MAIN n).key ∉ [R.AZL_LSTAT_PROLE n, R.AZL_LSTAT_PLANE n, R.AZL_LSTAT_TXPREC n].map Fld.key ∧
    (∀ f ∈ [R.AZL_LSTAT_PROLE n, R.AZL_LSTAT_PLANE n],
      f.key ∉ (tapFields n).map Fld.key ∧ f.key ∉ [R.AZL_LSTAT_RXPREC n, R.AZL_LSTAT_STATE n].map Fld.key) ∧
    (R.AZL_TXEQ_MAIN n).key ∉ [R.AZL_LSTAT_RXPREC n, R.AZL_LSTAT_STATE n].map Fld.key ∧
    (R.AZL_LSTAT_STATE n).key ∉ [R.AZL_LSTAT_PROLE n, R.AZL_LSTAT_PLANE n, R.AZL_LSTAT_TXPREC n].map Fld.key ∧
    (R.AZL_LSTAT_STATE n).key ∉ (tapFields n).map Fld.key ∧ (R.AZL_LSTAT_STATE n).key ∉ [R.AZL_LSTAT_RXPREC n].map Fld.key := by decide

theorem trainNoted_spec (s : State) (n : Fin 20) (b : TrainBlock) (sent : Nat) :
    LaneFrame [R.AZL_LSTAT_PROLE n, R.AZL_LSTAT_PLANE n, R.AZL_LSTAT_TXPREC n] s (s.trainNoted n b sent) ∧
    (s.trainNoted n b sent).get (R.AZL_LSTAT_PROLE n) = b.role % 4 ∧ (s.trainNoted n b sent).get (R.AZL_LSTAT_PLANE n) = b.lane % 32 ∧
    (sent < (s.lane n).count → ((s.trainNoted n b sent).lane n).count ≠ 0) := by
  obtain ⟨hkey, -⟩ := train_keys n
  obtain ⟨-, hline⟩ := s.idleTo_spec n
  have hcount : ((s.idleTo n).lane n).count = (s.lane n).count := (congrArg LaneState.count hline :)
  have hdown : LaneFrame [R.AZL_LSTAT_PROLE n, R.AZL_LSTAT_PLANE n, R.AZL_LSTAT_TXPREC n] s ((s.idleTo n).countDown n sent) :=
    laneFrame_trans (laneFrame_lanes (laneFrame_refl _ s) (s.idleTo_only n)) ((countDown_frame _ n sent).mono (by simp))
  refine ⟨laneFrame_put (by simp) (laneFrame_put (by simp) hdown), ?_, State.get_put_self .., fun hlt => ?_⟩
  · rw [State.trainNoted, State.get_put_ne _ _ _ _ hkey]
    exact State.get_put_self ..
  · exact countDown_left (s := s.idleTo n) (hcount.symm ▸ hlt)

theorem trainAnswered_spec (s : State) (n : Nat) (b : TrainBlock) : LaneFrame [R.AZL_LSTAT_RXPREC n] s (s.trainAnswered n b) ∧
    ((s.trainAnswered n b).lane n).count = (s.lane n).count ∧
    ∀ mine sent count, Heard b mine sent count (s.lane n) → Heard b mine sent count ((s.trainAnswered n b).lane n) := by
  obtain ⟨hframe, hlane, -⟩ := rxSwitch_spec s n
  generalize hu : (if b.countdown = 0 then s.rxSwitch n else s) = u
  have hspec : LaneFrame [R.AZL_LSTAT_RXPREC n] s u ∧ (u.lane n).count = (s.lane n).count ∧
      ∀ mine sent count, Heard b mine sent count (s.lane n) → Heard b mine sent count (u.lane n) := by
    rw [← hu]
    split
    · refine ⟨hframe, by rw [hlane], fun mine sent count h => ?_⟩
      rw [hlane]
      exact ⟨h.farRrdy, h.farPrecReq, h.farPrecAck, h.farCount, h.rrdy, h.held, h.restart⟩
    · exact ⟨laneFrame_refl _ s, rfl, fun _ _ _ h => h⟩
  obtain ⟨uframe, ucount, uheard⟩ := hspec
  obtain ⟨honly, hline⟩ := u.putLine_spec n (u.idleBlock n).toList
  have heq : s.trainAnswered n b = u.putLine n (u.idleBlock n).toList := by rw [State.trainAnswered, hu]
  rw [heq]
  exact ⟨laneFrame_lanes uframe honly, (congrArg LaneState.count hline : _).trans ucount,
    fun mine sent count h => (uheard mine sent count h).of_line hline⟩

theorem exec_trainBlock {s : State} {n : Fin 20} (pay : BitVec 56) (sent : Nat) (mine : Adapt) (hon : s.laneOn n = true) :
    exec (.trainBlockReceive n pay sent mine) s = .next (live s (s.trainBlock n (trainOf pay) sent mine)) := by
  show execTrainBlockReceive n pay sent mine s = _
  rw [execTrainBlockReceive, hon, State.when_true]

theorem trained_spec (s : State) (n : Nat) (hst : s.laneSt n = 3) : LaneFrame [R.AZL_LSTAT_STATE n] s (s.trained n) ∧
    (s.trained n).lane n = s.lane n ∧
    (s.trained n).laneSt n = if (s.lane n).count = 0 ∧ (s.lane n).farCount = 0 then 4 else 3 := by
  unfold State.trained
  by_cases h : (s.lane n).count = 0 ∧ (s.lane n).farCount = 0
  · obtain ⟨hcount, hfar⟩ := h
    rw [if_pos ⟨hcount, hfar⟩, hcount, hfar]
    exact ⟨laneFrame_put (by simp) (laneFrame_refl _ s), rfl, State.get_put_self ..⟩
  · have hoff : ((s.lane n).count == 0 && (s.lane n).farCount == 0) = false := by simpa using h
    rw [if_neg h, hoff, State.when_false]
    exact ⟨laneFrame_refl _ s, rfl, hst⟩

theorem trainOf_lt (pay : BitVec 56) : (trainOf pay).role < 4 ∧ (trainOf pay).lane < 32 :=
  ⟨Nat.mod_lt _ (by decide), Nat.mod_lt _ (by decide)⟩

/-- The fields of a lane that a Train block can change. -/
def trainFields (n : Nat) : List Fld :=
  [R.AZL_LSTAT_PROLE n, R.AZL_LSTAT_PLANE n, R.AZL_TXEQ_PRE n, R.AZL_TXEQ_MAIN n,
    R.AZL_TXEQ_POST n, R.AZL_LSTAT_TXPREC n, R.AZL_LSTAT_RXPREC n, R.AZL_LSTAT_STATE n]

theorem answers_trainBlock {s : State} {n : Fin 20} {pay : BitVec 56} {sent : Nat} {mine : Adapt} (hrun : s.phase = .run)
    (hon : s.laneOn n = true) (hst : s.laneSt n = 3) : Answers (.trainBlockReceive n pay sent mine) s (fun t =>
      t.laneSt n = (if (t.lane n).count = 0 ∧ (trainOf pay).countdown = 0 then 4 else 3) ∧
      Heard (trainOf pay) mine sent (s.lane n).count (t.lane n) ∧
      t.get (R.AZL_LSTAT_PROLE n) = (trainOf pay).role ∧ t.get (R.AZL_LSTAT_PLANE n) = (trainOf pay).lane ∧
      KeepsFieldsBut (trainFields n) s t ∧
      ((trainOf pay).preset = true → t.get (R.AZL_TXEQ_MAIN n) = s.get (R.AZL_TXEQI_MAIN n) % 2 ^ (R.AZL_TXEQ_MAIN n).width)) := by
  obtain ⟨hrole, hlane⟩ := trainOf_lt pay
  have hexec := exec_trainBlock pay sent mine hon
  rw [trainBlock_eq _ _ _ hst] at hexec
  generalize trainOf pay = b at hrole hlane hexec
  obtain ⟨-, ktaps, kpartner, kmain, kst, kst', kst''⟩ := train_keys n
  obtain ⟨uframe, urole, ulane, uleft⟩ := trainNoted_spec s n b sent
  obtain ⟨vframe, vcount⟩ := trainTaps_spec (s.trainNoted n b sent) n b
  have vmain : b.preset = true → ((s.trainNoted n b sent).trainTaps n b).get (R.AZL_TXEQ_MAIN n) =
      (s.trainNoted n b sent).get (R.AZL_TXEQI_MAIN n) % 2 ^ (R.AZL_TXEQ_MAIN n).width := fun h => by
    rw [trainTaps_preset h, putTaps_main]
  generalize hu : s.trainNoted n b sent = u at hexec uframe urole ulane uleft vframe vcount vmain
  generalize hv : u.trainTaps n b = v at hexec vframe vcount vmain
  have hheard : Heard b mine sent (s.lane n).count ((v.trainNear n b mine).lane n) := heard_trainNear mine fun h => vcount ▸ uleft h
  have wframe : LaneFrame [] v (v.trainNear n b mine) := laneFrame_setLane (laneFrame_refl _ v)
  generalize hw : v.trainNear n b mine = w at hexec hheard wframe
  obtain ⟨xframe, -, xheard⟩ := trainAnswered_spec w n b
  generalize hx : w.trainAnswered n b = x at hexec xframe xheard
  have hst' : x.laneSt n = 3 := by
    rw [State.laneSt, xframe.get _ kst'', wframe.get _ (by simp), vframe.get _ kst', uframe.get _ kst]
    exact hst
  obtain ⟨tframe, tlane, tst⟩ := trained_spec x n hst'
  have hlast : LaneFrame [R.AZL_LSTAT_RXPREC n, R.AZL_LSTAT_STATE n] v (x.trained n) :=
    laneFrame_trans (laneFrame_trans (wframe.mono (by simp)) (xframe.mono (by simp))) (tframe.mono (by simp))
  have hpartner : ∀ f ∈ [R.AZL_LSTAT_PROLE n, R.AZL_LSTAT_PLANE n], (x.trained n).get f = u.get f := fun f hf => by
    obtain ⟨htap, hrest⟩ := kpartner f hf
    rw [hlast.get _ hrest, vframe.get _ htap]
  have hall := xheard mine sent _ hheard
  have hframe : LaneFrame (trainFields n) s (x.trained n) :=
    laneFrame_trans (laneFrame_trans (uframe.mono (by simp [trainFields])) (vframe.mono (by simp [tapFields, trainFields])))
      (hlast.mono (by simp [trainFields]))
  refine answers_live hexec hrun ⟨?_, tlane.symm ▸ hall, ?_, ?_, hframe.get, fun h => ?_⟩
  · rw [tst, tlane, hall.farCount]
  · rw [hpartner _ (by simp), urole, Nat.mod_eq_of_lt hrole]
  · rw [hpartner _ (by simp), ulane, Nat.mod_eq_of_lt hlane]
  · rw [hlast.get _ kmain, vmain h, uframe.get _ ktaps]

/-! ### The statement -/

/-- Nothing of this acts on a lane that is off. -/
theorem answers_laneOff {s : State} {n : Fin 20} {pay : BitVec 56} {mv ns sent : Nat} {mine : Adapt} (hrun : s.phase = .run)
    (hoff : s.laneOn n = false) : ∀ c ∈ [Instr.losClear n mv ns, .blockLock n, .countdownComplete n, .verifyComplete n,
      .trainBlockReceive n pay sent mine], Answers c s (fun t => t = s) := by
  simp only [List.mem_cons, List.not_mem_nil, or_false]
  rintro c (rfl | rfl | rfl | rfl | rfl)
  · refine answers_live (t := s) ?_ hrun rfl
    rw [exec_losClear, hoff, Bool.false_and, State.when_false]
  · refine answers_live (t := s) ?_ hrun rfl
    show execBlockLock n s = _
    rw [execBlockLock, hoff, Bool.false_and, State.when_false]
  · refine answers_live (t := s) ?_ hrun rfl
    rw [exec_countdown, hoff, Bool.false_and, Bool.false_and, State.when_false]
  · refine answers_live (t := s) ?_ hrun rfl
    show execVerifyComplete n s = _
    rw [execVerifyComplete, hoff, Bool.false_and, State.when_false]
  · refine answers_live (t := s) ?_ hrun rfl
    show execTrainBlockReceive n pay sent mine s = _
    rw [execTrainBlockReceive, hoff, State.when_false]

/-- Settles O29: each event of the state diagram is a chain of small steps, each of which names the fields it changes and what
it leaves of the lane's record. -/
theorem laneStatesAdvance : Obligations.LaneStatesAdvance := by
  unfold Obligations.LaneStatesAdvance
  intro s n pay mv ns sent mine hrun
  refine ⟨answers_losClear hrun, answers_losClearShort hrun, answers_blockLock hrun, answers_countdown hrun,
    answers_countdownIdle hrun, answers_verified hrun, fun hon hst => ?_, answers_laneOff hrun⟩
  refine (answers_trainBlock hrun hon hst).imp fun t ht => ?_
  obtain ⟨hst', hheard, hrole, hlane, hkeeps, hpreset⟩ := ht
  exact ⟨hst', hheard.farRrdy, hheard.farPrecReq, hheard.farPrecAck, hheard.farCount, hheard.rrdy, hheard.held,
    hheard.restart, hrole, hlane, hkeeps, hpreset⟩

end Sys2Proof.Machine
end

/-! O43: why it fails. The clause on SLOT_COPY_SEND keeps the memory outside the pool of every state, and the model reads its
memory right only where the list of bytes is in order. -/

section
namespace Sys2Proof.Machine

/-! ### Memory that is in no order -/

/-- Bytes written above the first listed address leave that entry alone. -/
theorem Memory.writeBytes_cons {d : Byte} {c : Host.Cell} {t : List Host.Cell} {a : Nat} (l : List Byte) (h : c.1 < a) :
    Memory.writeBytes d (c :: t) a l = c :: Memory.writeBytes d t a l := by
  induction l generalizing a t with
  | nil => rfl
  | cons b l ih =>
    have hwrite : Memory.write d (c :: t) a b = c :: Memory.write d t a b := by
      rw [Memory.write, if_neg (by omega), if_neg (by omega)]
    rw [Memory.writeBytes, hwrite, ih (by omega), Memory.writeBytes]

/-- A memory that lists the first byte of the Frame Pool before address 5, so that 5, though it is listed, reads 0. -/
def unordered : List Host.Cell := [(0x44000000, 1), (5, 7)]

theorem unordered_read : Memory.read 0 unordered 5 = 0 := by decide

/-- Once the first byte of the pool is 0, address 5 reads what is listed at it. -/
theorem unordered_read_after (l m : List Byte) {a : Nat} (ha : 0x44000000 < a) :
    Memory.read 0 (Memory.writeBytes 0 (Memory.writeBytes 0 unordered a l) 0x44000000 (0 :: m)) 5 = 7 := by
  have hzero : ∀ t : List Host.Cell, Memory.write 0 ((0x44000000, 1) :: t) 0x44000000 0 = t := fun t => by
    rw [Memory.write, if_neg (by decide), if_pos rfl, if_pos rfl]
  rw [unordered, Memory.writeBytes_cons l ha, Memory.writeBytes_cons l (show 5 < a by omega), Memory.writeBytes, hzero,
    Memory.writeBytes_cons m (by decide), Memory.read, if_pos rfl]

/-! ### A run of buffers around the end of the pool -/

/-- Every buffer but the first and the last. -/
def innerBuffers : List Nat := List.range' 1 16382

theorem mem_innerBuffers {b : Nat} : b ∈ innerBuffers ↔ 1 ≤ b ∧ b < 1 + 16382 := by
  rw [innerBuffers, List.mem_range'_1]

/-- With only the last buffer and the first one free, a run of two begins at the last, wherever the search begins. -/
theorem pickRun_around {used : List Nat} {c fuel : Nat} (hused : ∀ b, b ∈ used ↔ 1 ≤ b ∧ b < 1 + 16382)
    (h : 16383 - c % 16384 < fuel) : pickRun used 2 c fuel = 16383 := by
  induction fuel generalizing c with
  | zero => omega
  | succ fuel ih =>
    have htaken : (bufRun c 2).any used.contains = true ↔ c % 16384 ≠ 16383 := by
      simp only [bufRun, List.any_map, List.any_eq_true, List.mem_range, Function.comp, List.contains_eq_mem,
        decide_eq_true_eq, hused]
      constructor
      · rintro ⟨i, hi, hlo, hhi⟩ hc
        omega
      · intro hc
        by_cases h0 : c % 16384 = 0
        · exact ⟨1, by omega, by omega, by omega⟩
        · exact ⟨0, by omega, by omega, by omega⟩
    rw [pickRun]
    split
    · rename_i hc
      rw [htaken] at hc
      exact ih (by omega)
    · rename_i hc
      rw [htaken] at hc
      omega

/-! ### A frame that waits in two buffers -/

/-- A frame of the node's own for a lane that is sending waits in the pool. -/
theorem State.launch_busy {s : State} {n : Nat} {f : Frame} (hk : s.isK = false) (ha : s.azfOn = true) (hl : s.mayLaunch = true)
    (hn : s.laneOk n = true) (hbusy : s.busy n = true) : s.launch n f = s.enqueue (s.entry n true false f) := by
  have hgaps : s.gaps n = s := by
    unfold State.gaps
    cases s.azf.queue.length with
    | zero => rfl
    | succ k => simp [State.settle, hbusy]
  simp [State.launch, State.offer, ha, hl, hn, hgaps, hbusy, State.not_unassigned hk, State.when]

theorem State.entry_f (s : State) (n : Nat) (own app : Bool) (f : Frame) : (s.entry n own app f).f = f := rfl

theorem State.entry_cls (s : State) (n : Nat) (own app : Bool) (f : Frame) : (s.entry n own app f).cls = fClass f := rfl

/-- A frame that may have two buffers is stored in two. -/
theorem State.enqueue_two {s : State} {q : Queued} (hlo : 256 < q.f.length) (hhi : q.f.length ≤ 512)
    (hmay : ∀ k < 2, s.poolMay q.cls k = true) :
    (s.enqueue q).mem = (({ s with freeCtr := s.freeCtr + 1 } : State).poolFill q.f
      (bufRun (pickRun s.poolUsed 2 (s.fresh 14).1 16384) 2)).mem := by
  have htwo : (q.f.length + 255) / 256 = 2 := by omega
  have hask : s.poolAskAll q.cls 0 2 = (s, 2) := by
    simp [State.poolAskAll, State.poolAsk, hmay 0 (by decide), hmay 1 (by decide)]
  have htake : s.poolTake q.cls 2 =
      ({ s with freeCtr := s.freeCtr + 1 }, .ok (bufRun (pickRun s.poolUsed 2 (s.fresh 14).1 16384) 2)) := by
    rw [State.poolTake, hask]
    rfl
  have hstore : s.enqueue q = (({ s with freeCtr := s.freeCtr + 1 } : State).poolFill q.f
      (bufRun (pickRun s.poolUsed 2 (s.fresh 14).1 16384) 2)).queued
        { q with bufs := bufRun (pickRun s.poolUsed 2 (s.fresh 14).1 16384) 2 } := by
    rw [State.enqueue, State.poolStore, htwo, htake]
  rw [hstore]
  rfl

/-! ### The counterexample -/

/-- The full slot accepted from the first cell of ring 15; it is longer than a buffer. -/
def longSlot : CellIn := { slotIn (zeros 300) with full := true }

/-- A waiting Section in LOCK that has one accepted slot for its partner. Partner lane 17 is sending, all buffers but the last
and the first hold a frame that is kept, and memory lists the first byte of the pool before address 5. -/
def standbySection : State :=
  forEach [(R.SYS_STRAP_ROLE, 2), (R.TCK_STAT_LOCK, 1), (R.EN 0x34, 1), (R.AZF_POOLCFG_CRES, 0), (R.EN 0x31, 1),
    (R.AZL_LSTAT_STATE 17, 5), (R.AZL_LSTAT_INSVC 17, 1)] (fun p s => s.put p.1 p.2)
    { State.reset with
      phase := .run
      mem := unordered
      lanes := List.replicate 17 LaneState.init ++
        [{ LaneState.init with tx := some ⟨[], 0, 0, 1, Option.none, false, 0, 0, false, 0, 0⟩ }]
      azf := { AzfState.init with kept := [⟨0, [], 0, innerBuffers, false, false, 0, 0, Option.none⟩] }
      rse := { RseState.init with acc := [(960, longSlot)] } }

/-- The Section forwards slots, lane 17 carries them, and it is busy. -/
theorem standbySection_ready :
    standbySection.forwards = true ∧ standbySection.lock = true ∧ standbySection.azfOn = true ∧
    standbySection.tickNs < standbySection.eveNs ∧ standbySection.isK = false ∧ standbySection.partnerLane 15 = some 17 ∧
    standbySection.laneOk 17 = true ∧ standbySection.busy 17 = true ∧ standbySection.get R.AZF_POOLCFG_CRES = 0 := by
  decide

theorem standbySection_poolUsed : standbySection.poolUsed = innerBuffers := List.append_nil _

/-- Two buffers may be taken for a slot copy. -/
theorem standbySection_poolMay : ∀ k < 2, standbySection.poolMay 3 k = true := by
  intro k hk
  obtain ⟨-, -, -, -, -, -, -, -, hcres⟩ := standbySection_ready
  have hused : standbySection.poolUsed.length = 16382 := by
    rw [standbySection_poolUsed, innerBuffers, List.length_range']
  simp only [State.poolMay, hused, hcres]
  simp
  omega

/-! ### What the Section sends its partner -/

theorem forUpTo_succ {α : Type} (n : Nat) (f : Nat → α → α) (a : α) : forUpTo (n + 1) f a = f n (forUpTo n f a) := by
  simp [forUpTo, List.range_succ]

/-- A loop whose turns change nothing. -/
theorem forUpTo_fixed {α : Type} {f : Nat → α → α} {a : α} {n : Nat} (h : ∀ i < n, f i a = a) : forUpTo n f a = a := by
  induction n with
  | zero => rfl
  | succ n ih =>
    rw [forUpTo_succ, ih fun i hi => h i (by omega)]
    exact h n (by omega)

/-- The twelve bytes of a frame's header (R85). -/
def frameHead (h : Hdr) (t : Nat) : List Byte :=
  bytesBE 1 (64 + h.ty) ++ bytesBE 1 (64 * (classOf h.ty).getD 0 + 32 * h.arm + 16 * b2n h.act) ++ bytesBE 2 h.src ++
    bytesBE 2 h.dst ++ bytesBE 2 t ++ bytesBE 1 (16 * h.ring) ++ bytesBE 1 h.hops ++ bytesBE 2 h.cnt

theorem frameHead_length (h : Hdr) (t : Nat) : (frameHead h t).length = 12 := by
  simp [frameHead]

/-- A frame is its header, its body and its CRC. -/
theorem mkFrame_eq (h : Hdr) (t : Nat) (body : List Byte) :
    mkFrame h t body = frameHead h t ++ (body ++ bytesBE 4 (crc32c (frameHead h t ++ body)).toNat) := by
  rw [mkFrame, sealCrc, ← frameHead, List.append_assoc]

/-- The copy of the accepted slot. -/
def copyFrame : Frame := standbySection.toPartner tySlotCopy 15 1 (zeros 300)

theorem copyFrame_eq : ∃ head crc : List Byte, copyFrame = head ++ (List.replicate 300 0 ++ crc) ∧ head.length = 12 ∧
    crc.length = 4 :=
  ⟨_, _, mkFrame_eq { standbySection.hdr tySlotCopy with
    dst := standbySection.partnerId, arm := armOf 15, ring := 15, cnt := 1 } standbySection.tick16 (zeros 300),
    frameHead_length _ _, bytesBE_length _ _⟩

theorem copyFrame_length : copyFrame.length = 316 := by
  obtain ⟨head, crc, hcopy, hhead, hcrc⟩ := copyFrame_eq
  simp only [hcopy, List.length_append, hhead, hcrc, List.length_replicate]

/-- The second buffer of the copy begins with a byte 0. -/
theorem copyFrame_drop : ∃ l, (copyFrame.drop 256).take 256 = 0 :: l := by
  obtain ⟨head, crc, hcopy, hhead, hcrc⟩ := copyFrame_eq
  rw [hcopy, List.drop_append, List.drop_eq_nil_of_le (by omega), hhead, List.nil_append, List.drop_append, List.drop_replicate,
    List.length_replicate]
  exact ⟨_, rfl⟩

/-- A frame's class is that of its type. -/
theorem fClass_mkFrame {h : Hdr} {t c : Nat} {body : List Byte} (hty : classOf h.ty = some c) (hc : c < 4) (harm : h.arm ≤ 1) :
    fClass (mkFrame h t body) = c := by
  have hact : b2n h.act ≤ 1 := by
    cases h.act <;> decide
  have hbyte : byteAt (mkFrame h t body) 1 = (64 * c + 32 * h.arm + 16 * b2n h.act) % 256 := by
    rw [mkFrame_eq]
    simp only [byteAt, fieldBE, slice, frameHead, bytesBE, hty, Option.getD_some, List.nil_append, List.cons_append, List.drop,
      List.take, natBE, List.foldl, BitVec.toNat_ofNat]
    omega
  rw [fClass, hbyte]
  omega

/-- A slot copy is a frame of class 3. -/
theorem copyFrame_class : fClass copyFrame = 3 := by
  refine fClass_mkFrame rfl (by decide) ?_
  show armOf 15 ≤ 1
  unfold armOf
  split <;> decide

/-- What two buffers hold of a frame. -/
theorem State.poolFill_two (s : State) (f : Frame) (a b : Nat) : (s.poolFill f [a, b]).mem =
    Memory.writeBytes 0 (Memory.writeBytes 0 s.mem (0x44000000 + 256 * a) (f.take 256)) (0x44000000 + 256 * b)
      ((f.drop 256).take 256) := rfl

/-- One ring's turn of a Section that sends the accepted slots to its partner. -/
def State.slotCopyOf (x : State) (r : Nat) : State :=
  let l := (x.rse.acc.filter (fun p => p.1 / 64 == r && p.2.full)).map (fun p => p.2.bytes)
  match x.partnerLane r with
  | Option.none => x
  | some p => x.when (l != []) (x.launch p (x.toPartner tySlotCopy r l.length l.flatten))

theorem State.slotCopies_eq (s : State) : s.slotCopies = forUpTo 16 (fun r x => x.slotCopyOf r) s := rfl

/-- A ring without an accepted slot has no copy. -/
theorem State.slotCopyOf_empty {x : State} {r : Nat} (h : x.rse.acc.filter (fun p => p.1 / 64 == r && p.2.full) = []) :
    x.slotCopyOf r = x := by
  unfold State.slotCopyOf
  rw [h]
  cases x.partnerLane r <;> rfl

/-- The copy of a ring with one accepted slot. -/
theorem State.slotCopyOf_single {x : State} {r p : Nat} {e : Nat × CellIn}
    (h : x.rse.acc.filter (fun p => p.1 / 64 == r && p.2.full) = [e]) (hp : x.partnerLane r = some p) :
    x.slotCopyOf r = x.launch p (x.toPartner tySlotCopy r 1 e.2.bytes) := by
  unfold State.slotCopyOf
  rw [h, hp]
  simp [State.when]

/-- The copy waits at lane 17. -/
theorem standbySection_sends :
    standbySection.slotCopies = standbySection.enqueue (standbySection.entry 17 true false copyFrame) := by
  obtain ⟨-, -, hon, heve, hk, hlane, hok, hbusy, -⟩ := standbySection_ready
  have hrest : ∀ r < 15, standbySection.rse.acc.filter (fun p => p.1 / 64 == r && p.2.full) = [] := by decide
  have hring : standbySection.rse.acc.filter (fun p => p.1 / 64 == 15 && p.2.full) = [(960, longSlot)] := rfl
  have hfixed : forUpTo 15 (fun r x => x.slotCopyOf r) standbySection = standbySection :=
    forUpTo_fixed fun r hr => State.slotCopyOf_empty (hrest r hr)
  rw [State.slotCopies_eq, forUpTo_succ, hfixed, State.slotCopyOf_single hring hlane]
  exact State.launch_busy hk hon (State.mayLaunch_before_eve heve) hok hbusy

/-- Refutes O43: what a Section keeps of the memory outside the pool is stated without the premise that the memory is listed
in order. A copy that waits in the last buffer and the first one writes a 0 over the first entry of an unordered list, and
address 5, which was listed behind it, then reads another value. -/
theorem not_harvestCollectsSlots : ¬ Obligations.HarvestCollectsSlots := by
  unfold Obligations.HarvestCollectsSlots
  intro h
  obtain ⟨hforwards, hlock, hon, heve, -, -, -, -, -⟩ := standbySection_ready
  obtain ⟨-, -, -, -, -, -, -, -, hcopies, -⟩ := h standbySection 0 [] [] 0 rfl (fun l hl => nomatch hl)
  obtain ⟨t, hexec, -, hsame, -⟩ := hcopies hforwards hlock hon heve
  have hmem := State.enqueue_two (s := standbySection) (q := standbySection.entry 17 true false copyFrame)
    (by rw [State.entry_f, copyFrame_length]; decide) (by rw [State.entry_f, copyFrame_length]; decide)
    (by rw [State.entry_cls, copyFrame_class]; exact standbySection_poolMay)
  have hrun : pickRun standbySection.poolUsed 2 (standbySection.fresh 14).1 16384 = 16383 :=
    pickRun_around (fun b => by rw [standbySection_poolUsed, mem_innerBuffers]) (by omega)
  have ht : t = standbySection.enqueue (standbySection.entry 17 true false copyFrame) := by
    rw [show exec .slotCopySend standbySection = .next (live standbySection (standbySection.when
      (standbySection.forwards && standbySection.lock) standbySection.slotCopies)) from rfl, live_run rfl, hforwards, hlock,
      Bool.and_self, State.when_true, standbySection_sends] at hexec
    exact (Host.Outcome.next.inj hexec).symm
  obtain ⟨l, hl⟩ := copyFrame_drop
  have hread : Memory.read 0 t.mem 5 = 7 := by
    rw [ht, hmem, hrun]
    rw [show bufRun 16383 2 = [16383, 0] from rfl, State.poolFill_two, State.entry_f, hl]
    exact unordered_read_after _ _ (by decide)
  have hkeeps : Memory.read 0 t.mem 5 = 0 := (hsame 5).1 (.inl (by decide)) |>.trans unordered_read
  rw [hkeeps] at hread
  exact absurd hread (by decide)

end Sys2Proof.Machine
end

/-! O46, first part: the bytes of a frame that is made or changed, and time that passes to an instant. -/

section
namespace Sys2Proof.Machine

/-! ### Fields of a string of bytes -/

theorem slice_getElem? (l : List Byte) (i n k : Nat) : (slice l i n)[k]? = if k < n then l[i + k]? else Option.none := by
  rw [slice, List.getElem?_take, List.getElem?_drop]

/-- A field that ends before the second of two strings is a field of the first. -/
theorem fieldBE_append_left {a b : List Byte} {i n : Nat} (h : i + n ≤ a.length) : fieldBE (a ++ b) i n = fieldBE a i n := by
  rw [fieldBE, fieldBE, slice, slice, List.drop_append_of_le_length (by omega), List.take_append_of_le_length]
  rw [List.length_drop]
  omega

/-- A field behind the first of two strings is a field of the second. -/
theorem fieldBE_append_right (a b : List Byte) (i n : Nat) : fieldBE (a ++ b) (a.length + i) n = fieldBE b i n := by
  rw [fieldBE, fieldBE, slice, slice, List.drop_append, List.drop_eq_nil_of_le (by omega), List.nil_append,
    Nat.add_sub_cancel_left]

/-- A number written at the head of a string is read there. -/
theorem fieldBE_bytesBE (n v : Nat) (c : List Byte) : fieldBE (bytesBE n v ++ c) 0 n = v % 256 ^ n := by
  rw [fieldBE, slice, List.drop_zero, List.take_left' (bytesBE_length n v), natBE_bytesBE]

theorem overlay_length {l b : List Byte} {i : Nat} (h : i + b.length ≤ l.length) : (overlay l i b).length = l.length := by
  simp only [overlay, List.length_append, List.length_take, List.length_drop]
  omega

/-- A field beside the bytes written stands. -/
theorem fieldBE_overlay_ne {l b : List Byte} {i j n : Nat} (h : i + b.length ≤ l.length)
    (hj : j + n ≤ i ∨ i + b.length ≤ j) : fieldBE (overlay l i b) j n = fieldBE l j n := by
  have hslice : slice (overlay l i b) j n = slice l j n := by
    apply List.ext_getElem?
    intro k
    simp only [slice_getElem?, overlay, List.append_assoc, List.getElem?_append, List.getElem?_take, List.getElem?_drop,
      List.length_take]
    grind
  rw [fieldBE, hslice, fieldBE]

/-- A number written into a string is read where it was written. -/
theorem fieldBE_overlay_self {l : List Byte} {i n v : Nat} (h : i ≤ l.length) :
    fieldBE (overlay l i (bytesBE n v)) i n = v % 256 ^ n := by
  have hi : (l.take i).length = i := List.length_take_of_le h
  have hread := fieldBE_append_right (l.take i) (bytesBE n v ++ l.drop (i + (bytesBE n v).length)) 0 n
  rwa [hi, fieldBE_bytesBE, ← List.append_assoc] at hread

/-! ### Resealed frames -/

theorem reseal_length (ok : Bool) (b : List Byte) : (reseal ok b).length = b.length + 4 := by simp [reseal]

/-- The CRC of a changed frame is right exactly where the relay says so. -/
theorem fCrcOk_reseal (ok : Bool) {b : List Byte} (h : 12 ≤ b.length) : fCrcOk (reseal ok b) = ok := by
  cases ok with
  | true => exact fCrcOk_sealCrc b h
  | false =>
    have hread := fieldBE_append_right b (bytesBE 4 (~~~crc32c b).toNat ++ []) 0 4
    rw [fieldBE_bytesBE, List.append_nil, Nat.mod_eq_of_lt (show (~~~crc32c b).toNat < 256 ^ 4 from (~~~crc32c b).isLt),
      Nat.add_zero] at hread
    have hinv : ~~~crc32c b ≠ crc32c b := fun h => by
      have hbit := congrArg (fun c : BitVec 32 => c.getLsbD 0) h
      simp at hbit
    have hne : (~~~crc32c b).toNat ≠ (crc32c b).toNat := fun h => hinv (BitVec.eq_of_toNat_eq h)
    have hseal : reseal false b = b ++ bytesBE 4 (~~~crc32c b).toNat := rfl
    rw [fCrcOk, reseal_length, Nat.add_sub_cancel, hseal, List.take_left, hread, beq_eq_false_iff_ne.mpr hne,
      Bool.and_false]

/-- A frame without its CRC. -/
theorem fieldBE_stripCrc {f : Frame} {i n : Nat} (h : i + n ≤ f.length - 4) : fieldBE (stripCrc f) i n = fieldBE f i n := by
  rw [fieldBE, fieldBE, stripCrc, slice, slice, List.drop_take, List.take_take, Nat.min_eq_left (by omega)]

/-! ### A relayed Timing frame -/

section
variable {b : List Byte} {d : Nat} (hb : b.length = 48)
include hb

theorem corrAdd_length : (corrAdd b d).length = 48 := by
  have hcorr : ∀ v, (overlay b 22 (bytesBE 4 v)).length = 48 := fun v => by
    rw [overlay_length (by rw [bytesBE_length, hb]; decide), hb]
  unfold corrAdd
  dsimp only
  split
  · rw [overlay_length (by rw [bytesBE_length, hcorr]; decide), hcorr]
  · exact hcorr _

/-- CORR gains what it can hold. -/
theorem corrAdd_corr : fieldBE (corrAdd b d) 22 4 = min (fieldBE b 22 4 + d) 0xFFFFFFFF := by
  have hcorr : ∀ v, fieldBE (overlay b 22 (bytesBE 4 (min v 0xFFFFFFFF))) 22 4 = min v 0xFFFFFFFF := fun v => by
    rw [fieldBE_overlay_self (by omega)]
    omega
  unfold corrAdd
  dsimp only
  split
  · rw [fieldBE_overlay_ne (by rw [overlay_length] <;> simp [hb]) (.inl (by decide)), hcorr]
  · exact hcorr _

/-- CERR is set where the sum does not fit. -/
theorem corrAdd_cerr : bitOf (byteAt (corrAdd b d) 26) 7 = (bitOf (byteAt b 26) 7 || decide (0xFFFFFFFF < fieldBE b 22 4 + d)) := by
  have hkeeps : ∀ v, byteAt (overlay b 22 (bytesBE 4 v)) 26 = byteAt b 26 := fun v =>
    fieldBE_overlay_ne (by simp [hb]) (.inr (by simp))
  unfold corrAdd
  dsimp only
  split
  · rename_i hbig
    have hset : ∀ v w, byteAt (overlay (overlay b 22 (bytesBE 4 v)) 26 (bytesBE 1 (w % 128 + 128))) 26 = w % 128 + 128 := by
      intro v w
      rw [byteAt, fieldBE_overlay_self (by rw [overlay_length] <;> simp [hb])]
      omega
    rw [hset, decide_eq_true hbig, Bool.or_true, bitOf]
    simp
  · rename_i hsmall
    rw [hkeeps, decide_eq_false hsmall, Bool.or_false]

/-- The other fields stand. -/
theorem corrAdd_field {i n : Nat} (h : i + n ≤ 22 ∨ 27 ≤ i) : fieldBE (corrAdd b d) i n = fieldBE b i n := by
  have hcorr : ∀ v, fieldBE (overlay b 22 (bytesBE 4 v)) i n = fieldBE b i n := fun v =>
    fieldBE_overlay_ne (by simp [hb]) (by rw [bytesBE_length]; omega)
  unfold corrAdd
  dsimp only
  split
  · rw [fieldBE_overlay_ne (by rw [overlay_length] <;> simp [hb]) (by rw [bytesBE_length]; omega), hcorr]
  · exact hcorr _

end

/-- What a Timing frame says after a relay that took `d`. -/
theorem timingRelay_spec {f : Frame} (d : Nat) (hlen : f.length = 52) :
    (timingRelay f d).length = 52 ∧ tCorr (timingRelay f d) = min (tCorr f + d) 0xFFFFFFFF ∧
    tCerr (timingRelay f d) = (tCerr f || decide (0xFFFFFFFF < tCorr f + d)) ∧
    fHops (timingRelay f d) = (fHops f + 1) % 256 ∧ fCrcOk (timingRelay f d) = fCrcOk f ∧
    fieldBE (timingRelay f d) 12 6 = fieldBE f 12 6 := by
  have hstrip : (stripCrc f).length = 48 := by simp [stripCrc, hlen]
  have hhop : (overlay (stripCrc f) 9 (bytesBE 1 (fHops f + 1))).length = 48 := by
    rw [overlay_length (by simp [hstrip]), hstrip]
  have hsum := corrAdd_length (d := d) hhop
  have hread : ∀ i n, i + n ≤ 48 → fieldBE (timingRelay f d) i n =
      fieldBE (corrAdd (overlay (stripCrc f) 9 (bytesBE 1 (fHops f + 1))) d) i n := fun i n h =>
    fieldBE_append_left (by omega)
  have hold : ∀ i n, i + n ≤ 48 → i + n ≤ 9 ∨ 10 ≤ i →
      fieldBE (overlay (stripCrc f) 9 (bytesBE 1 (fHops f + 1))) i n = fieldBE f i n := fun i n h hi => by
    rw [fieldBE_overlay_ne (by simp [hstrip]) (by rw [bytesBE_length]; omega), fieldBE_stripCrc (by omega)]
  refine ⟨?_, ?_, ?_, ?_, fCrcOk_reseal _ (by omega), ?_⟩
  · rw [timingRelay, reseal_length, hsum]
  · rw [tCorr, hread 22 4 (by decide), corrAdd_corr hhop, hold 22 4 (by decide) (by decide), tCorr]
  · rw [tCerr, byteAt, hread 26 1 (by decide), ← byteAt, corrAdd_cerr hhop, byteAt, hold 26 1 (by decide) (by decide),
      hold 22 4 (by decide) (by decide), tCerr, tCorr, byteAt]
  · rw [fHops, byteAt, hread 9 1 (by decide), corrAdd_field hhop (.inl (by decide)), fieldBE_overlay_self (by omega)]
    rfl
  · rw [hread 12 6 (by decide), corrAdd_field hhop (.inl (by decide)), hold 12 6 (by decide) (by decide)]

/-! ### Frames of the node's own -/

theorem fType_mkFrame {h : Hdr} (t : Nat) (body : List Byte) (hty : h.ty < 64) : fType (mkFrame h t body) = h.ty := by
  have hread : byteAt (mkFrame h t body) 0 = (64 + h.ty) % 256 := by
    rw [mkFrame_eq, frameHead]
    simp only [List.append_assoc]
    exact fieldBE_bytesBE 1 _ _
  rw [fType, hread]
  omega

theorem fDst_mkFrame (h : Hdr) (t : Nat) (body : List Byte) : fDst (mkFrame h t body) = h.dst % 16384 := by
  have hread : fieldBE (mkFrame h t body) 4 2 = h.dst % 65536 := by
    rw [mkFrame_eq, frameHead]
    simp only [List.append_assoc]
    exact fieldBE_bytesBE 2 _ _
  rw [fDst, hread]
  omega

theorem mkFrame_length (h : Hdr) (t : Nat) (body : List Byte) : (mkFrame h t body).length = body.length + 16 := by
  rw [mkFrame_eq, List.length_append, List.length_append, frameHead_length, bytesBE_length]
  omega

/-- The body of a frame begins at byte 12. -/
theorem fieldBE_mkFrame (h : Hdr) (t : Nat) {body : List Byte} {i n : Nat} (hi : i + n ≤ body.length) :
    fieldBE (mkFrame h t body) (12 + i) n = fieldBE body i n := by
  have hread := fieldBE_append_right (frameHead h t) (body ++ bytesBE 4 (crc32c (frameHead h t ++ body)).toNat) i n
  rwa [frameHead_length, ← mkFrame_eq, fieldBE_append_left hi] at hread

/-- A number in the body of a frame. -/
theorem fieldBE_mkFrame_bytes (h : Hdr) (t n v : Nat) (a c : List Byte) :
    fieldBE (mkFrame h t (a ++ (bytesBE n v ++ c))) (12 + a.length) n = v % 256 ^ n := by
  rw [fieldBE_mkFrame h t (by simp), ← fieldBE_bytesBE n v c, ← fieldBE_append_right a (bytesBE n v ++ c) 0 n, Nat.add_zero]

/-! ### An instant of the tick -/

theorem State.elapse_tickNs (s : State) (dt : Nat) : (s.elapse dt).tickNs = s.tickNs + dt := by
  have htbs : (s.tbsAdvance dt).tickNs = s.tickNs := by
    unfold State.tbsAdvance
    split <;> rfl
  unfold State.elapse
  dsimp only
  split <;> exact congrArg (· + dt) htbs

/-- Up to an instant of the tick the clocks change, and nothing else. -/
theorem State.toInstant_spec (s : State) (ns : Nat) :
    { s.toInstant ns with
      tickNs := s.tickNs, tck := s.tck, tbs := s.tbs, pwm := s.pwm, fcu := s.fcu, dsx := s.dsx, field := s.field } = s ∧
    (s.toInstant ns).tickNs = max s.tickNs ns ∧ s.fcu.timeNs ≤ (s.toInstant ns).fcu.timeNs := by
  unfold State.toInstant
  split
  · obtain ⟨hrest, htime⟩ := s.elapse_frame (ns - s.tickNs)
    refine ⟨hrest, ?_, by omega⟩
    rw [State.elapse_tickNs]
    omega
  · exact ⟨rfl, by omega, by omega⟩

end Sys2Proof.Machine
end

/-! O46, second part: Timing frames that leave. -/

section
namespace Sys2Proof.Machine

/-! ### Timing frames of the node's own -/

/-- The Timing frame of depth `d` that a node puts on lane `n`. -/
def State.timingFrame (s : State) (d n : Nat) : Frame :=
  s.frame { s.hdr tyTiming with hops := d, ring := s.laneRing n } s.timingBody

/-- What the frame says of the tick. -/
theorem timingFrame_spec (s : State) (d n : Nat) : fType (s.timingFrame d n) = tyTiming ∧ fCrcOk (s.timingFrame d n) = true ∧
    fieldBE (s.timingFrame d n) 12 6 = s.tick % 2 ^ 48 ∧ tCorr (s.timingFrame d n) = 0 ∧
    fieldBE (s.timingFrame d n) 28 2 = s.get R.TCK_PER_PER % 65536 := by
  have hbody : s.timingBody = bytesBE 6 s.tick ++ (bytesBE 4 25600 ++ (bytesBE 4 0 ++ (bytesBE 1 (64 * b2n s.tflg) ++ (zeros 1 ++
      (bytesBE 2 (s.get R.TCK_PER_PER) ++ (bytesBE 2 (s.get R.TCK_PNEW_PNEW) ++ (bytesBE 1 s.tck.tpLeft ++ (zeros 1 ++
      (bytesBE 6 (s.get R.TBS_STRKS_SEC) ++ (bytesBE 4 (s.get R.TBS_STRKN_NS) ++ (bytesBE 1 (s.get R.TBS_STRKF_SUB) ++
      zeros 3))))))))))) := by
    simp only [State.timingBody, List.append_assoc]
    rfl
  unfold State.timingFrame State.frame
  refine ⟨fType_mkFrame _ _ (show tyTiming < 64 by decide), fCrcOk_mkFrame _ _ _, ?_, ?_, ?_⟩
  · rw [hbody]
    exact fieldBE_mkFrame_bytes _ _ 6 _ [] _
  · rw [hbody, ← List.append_assoc]
    exact fieldBE_mkFrame_bytes _ _ 4 0 (bytesBE 6 s.tick ++ bytesBE 4 25600) _
  · rw [hbody]
    simp only [← List.append_assoc]
    rw [List.append_assoc]
    exact fieldBE_mkFrame_bytes _ _ 2 _ (bytesBE 6 s.tick ++ bytesBE 4 25600 ++ bytesBE 4 0 ++ bytesBE 1 (64 * b2n s.tflg) ++ zeros 1) _

/-! ### One frame a lane -/

/-- From `s` to `t` only transmitters and what has been sent have changed. -/
def OnlySends (s t : State) : Prop := { t with lanes := s.lanes, out := s.out } = s

theorem OnlySends.trans {s t u : State} (h : OnlySends s t) (k : OnlySends t u) : OnlySends s u :=
  (congrArg (fun x : State => { x with lanes := s.lanes, out := s.out }) k :).trans h

/-- What a launch depends on beside the transmitter stands. -/
theorem OnlySends.same {s t : State} (h : OnlySends s t) : t.isK = s.isK ∧ t.azfOn = s.azfOn ∧ t.mayLaunch = s.mayLaunch ∧
    (∀ n, t.laneOk n = s.laneOk n) ∧ (∀ d n, t.timingFrame d n = s.timingFrame d n) :=
  ⟨(congrArg State.isK h :), (congrArg State.azfOn h :), (congrArg State.mayLaunch h :),
    fun n => (congrArg (fun x : State => x.laneOk n) h :), fun d n => (congrArg (fun x : State => x.timingFrame d n) h :)⟩

/-- A transmitter that is left as it is stays free. -/
theorem OnlySends.free {s t : State} {n : Nat} (h : OnlySends s t) (hlane : t.lane n = s.lane n) (hfree : s.Free n) : t.Free n := by
  obtain ⟨hidle, hbusy, hstop, hqueue⟩ := hfree
  have hnow : t.now10 = s.now10 := (congrArg State.now10 h :)
  have hazf : t.azf = s.azf := (congrArg State.azf h :)
  have hidle' : t.txIdle n = s.txIdle n := (congrArg (fun x : State => x.txIdle n) h :)
  refine ⟨hidle'.trans hidle, ?_, ?_, ?_⟩
  · rw [State.busy, hlane, hnow]
    exact hbusy
  · rw [hlane, hnow]
    exact hstop
  · rw [hazf]
    exact hqueue

/-- The Timing frame of a tick on one lane. -/
def State.timingOn (s : State) (d n : Nat) : State := s.launch n (s.timingFrame d n)

section
variable {s : State} {d : Nat} (hk : s.isK = false) (ha : s.azfOn = true) (hl : s.mayLaunch = true)
include hk ha hl

/-- On a lane in service whose transmitter is free the frame leaves, and on a lane out of service none does. -/
theorem timingOn_spec {n : Nat} (hfree : s.laneOk n = true → s.Free n) :
    OnlySends s (s.timingOn d n) ∧ (∀ m, n ≠ m → (s.timingOn d n).lane m = s.lane m) ∧
    (s.timingOn d n).out = if s.laneOk n then ⟨n, s.timingFrame d n⟩ :: s.out else s.out := by
  cases hn : s.laneOk n with
  | true =>
    have hty : fType (s.timingFrame d n) ≠ tyProbeReply := by
      obtain ⟨hty, -⟩ := timingFrame_spec s d n
      rw [hty]
      decide
    rw [State.timingOn, State.launch_member hk ha hl hn (hfree hn) hty]
    exact ⟨State.startTx_frame _ _ _ _ _ _ _ _, fun m hm => State.startTx_lane_ne _ _ _ _ _ _ _ _ _ hm, rfl⟩
  | false =>
    have hnone : s.timingOn d n = s := by
      simp [State.timingOn, State.launch, hn, State.not_unassigned hk]
    rw [hnone]
    exact ⟨rfl, fun _ _ => rfl, rfl⟩

/-- Every lane in service of a list of free ones gets its frame. -/
theorem timingOn_all {l : List Nat} (hl' : l.Nodup) (hfree : ∀ k ∈ l, s.laneOk k = true → s.Free k) :
    OnlySends s (forEach l (fun n x => x.timingOn d n) s) ∧
    (∀ g ∈ s.out, g ∈ (forEach l (fun n x => x.timingOn d n) s).out) ∧
    ∀ k ∈ l, s.laneOk k = true → ⟨k, s.timingFrame d k⟩ ∈ (forEach l (fun n x => x.timingOn d n) s).out := by
  induction l generalizing s with
  | nil => exact ⟨rfl, fun _ h => h, fun k h => nomatch h⟩
  | cons a l ih =>
    obtain ⟨hal, hnodup⟩ := List.nodup_cons.mp hl'
    obtain ⟨honly, hlanes, hout⟩ := timingOn_spec (d := d) hk ha hl (hfree a (by simp))
    obtain ⟨hk', ha', hm', hok, hframe⟩ := honly.same
    have hfree' : ∀ k ∈ l, (s.timingOn d a).laneOk k = true → (s.timingOn d a).Free k := fun k hkl h =>
      honly.free (hlanes k fun e => hal (e ▸ hkl)) (hfree k (by simp [hkl]) (hok k ▸ h))
    obtain ⟨ionly, iout, isent⟩ := ih (hk'.trans hk) (ha'.trans ha) (hm'.trans hl) hnodup hfree'
    have hcons : forEach (a :: l) (fun n x => x.timingOn d n) s = forEach l (fun n x => x.timingOn d n) (s.timingOn d a) := rfl
    rw [hcons]
    refine ⟨honly.trans ionly, fun g hg => iout g ?_, fun k hkl hk => ?_⟩
    · rw [hout]
      split
      · exact List.mem_cons_of_mem _ hg
      · exact hg
    · rcases List.mem_cons.mp hkl with rfl | hkl
      · refine iout _ ?_
        rw [hout, if_pos hk]
        exact List.mem_cons_self
      · rw [← hframe]
        exact isent k hkl (hok k ▸ hk)

end

/-! ### The origin -/

/-- A node that originates Timing frames is a member in LOCK, and names each of its lanes once. -/
theorem timingLanes_spec {s : State} (h : s.timingLanes ≠ []) : s.isK = false ∧ s.lock = true ∧ s.timingLanes.Nodup := by
  have hlanes : s.timingLanes.Nodup := by
    unfold State.timingLanes
    split
    · split
      · decide
      · split
        · decide
        · exact List.nodup_nil
    · split
      · exact List.nodup_range
      · exact List.nodup_nil
  unfold State.timingLanes at h
  split at h
  · rename_i hc
    obtain ⟨hc, hlock⟩ := Bool.and_eq_true_iff.mp hc
    exact ⟨State.not_cell_of_member (.inr hc), hlock, hlanes⟩
  · split at h
    · rename_i hs
      obtain ⟨hs, hlock⟩ := Bool.and_eq_true_iff.mp hs
      exact ⟨State.not_cell_of_member (.inl hs), hlock, hlanes⟩
    · exact absurd rfl h

/-- What a launch depends on, once time has passed to an instant of the tick. -/
theorem toInstant_same (s : State) (ns : Nat) : (s.toInstant ns).regs = s.regs ∧ (s.toInstant ns).mem = s.mem ∧
    (s.toInstant ns).out = s.out ∧ (s.toInstant ns).azf = s.azf ∧ (s.toInstant ns).azfOn = s.azfOn ∧
    (∀ n, (s.toInstant ns).laneOk n = s.laneOk n) ∧ (∀ n, s.Free n → (s.toInstant ns).Free n) := by
  obtain ⟨hrest, -, htime⟩ := s.toInstant_spec ns
  have hlane : ∀ n, (s.toInstant ns).lane n = s.lane n := fun n => (congrArg (fun x : State => x.lane n) hrest :)
  have hazf : (s.toInstant ns).azf = s.azf := (congrArg State.azf hrest :)
  refine ⟨(congrArg State.regs hrest :), (congrArg State.mem hrest :), (congrArg State.out hrest :), hazf,
    (congrArg State.azfOn hrest :), fun n => (congrArg (fun x : State => x.laneOk n) hrest :), fun n hfree => ?_⟩
  obtain ⟨hidle, hbusy, hstop, hqueue⟩ := hfree
  have hidle' : (s.toInstant ns).txIdle n = s.txIdle n := (congrArg (fun x : State => x.txIdle n) hrest :)
  refine ⟨hidle'.trans hidle, ?_, ?_, hazf ▸ hqueue⟩
  · unfold State.busy State.now10 at hbusy ⊢
    rw [hlane]
    split at hbusy
    · simp only [decide_eq_false_iff_not] at hbusy ⊢
      omega
    · rfl
  · unfold State.now10 at hstop ⊢
    rw [hlane]
    omega

/-- Before Eve a node in LOCK may launch at an instant of the tick. -/
theorem toInstant_mayLaunch {s : State} {ns : Nat} (h : max s.tickNs ns < s.eveNs ∨ s.lock = false) :
    (s.toInstant ns).mayLaunch = true := by
  obtain ⟨hrest, htick, -⟩ := s.toInstant_spec ns
  rcases h with heve | hlock
  · have heve' : (s.toInstant ns).eveNs = s.eveNs := (congrArg State.eveNs hrest :)
    exact State.mayLaunch_before_eve (by omega)
  · have hlock' : (s.toInstant ns).lock = s.lock := (congrArg State.lock hrest :)
    rw [State.mayLaunch, State.mayLaunchAt, hlock', hlock]
    rfl

/-- The depth that a node's own Timing frames carry (R114). -/
def State.originDepth (s : State) : Nat := if s.isC && s.active then 0 else s.get R.AZF_TSTA_DEPTH

theorem State.timingOrigin_eq {s : State} (h : s.timingLanes ≠ []) : s.timingOrigin =
    forEach (s.toInstant 100).timingLanes (fun n x => x.timingOn (s.toInstant 100).originDepth n) (s.toInstant 100) := by
  rw [State.timingOrigin, if_neg h]
  rfl

theorem answers_timingOrigin {s : State} {l : Nat} (hrun : s.phase = .run) (ha : s.azfOn = true) (hl : l ∈ s.timingLanes)
    (hok : s.laneOk l = true) (heve : max s.tickNs 100 < s.eveNs) (hfree : ∀ k ∈ s.timingLanes, s.laneOk k = true → s.Free k) :
    Answers .timingFrameOrigin s (fun t =>
      t.tickNs = max s.tickNs 100 ∧ t.mem = s.mem ∧ t.regs = s.regs ∧ ∃ g, ⟨l, g⟩ ∈ t.out ∧ fType g = tyTiming ∧
        fCrcOk g = true ∧ fieldBE g 12 6 = s.tick % 2 ^ 48 ∧ tCorr g = 0 ∧ fieldBE g 28 2 = s.get R.TCK_PER_PER % 65536) := by
  have hne : s.timingLanes ≠ [] := List.ne_nil_of_mem hl
  obtain ⟨hk, -, hnodup⟩ := timingLanes_spec hne
  obtain ⟨hrest, htick, -⟩ := s.toInstant_spec 100
  obtain ⟨hregs, hmem, -, -, hazf, hlanes, hfrees⟩ := toInstant_same s 100
  have hk' : (s.toInstant 100).isK = false := (congrArg State.isK hrest :).trans hk
  obtain ⟨honly, -, hsent⟩ := timingOn_all (d := (s.toInstant 100).originDepth) hk' (hazf.trans ha) (toInstant_mayLaunch (.inl heve)) hnodup
    fun k hkl h => hfrees k (hfree k hkl (hlanes k ▸ h))
  obtain ⟨hty, hcrc, hnum, hcorr, hper⟩ := timingFrame_spec (s.toInstant 100) (s.toInstant 100).originDepth l
  have hlanes' : (s.toInstant 100).timingLanes = s.timingLanes := (congrArg State.timingLanes hrest :)
  have hexec : exec .timingFrameOrigin s = .next (live s s.timingOrigin) := by
    show execTimingFrameOrigin s = _
    rw [execTimingFrameOrigin, ha, State.when_true]
  rw [State.timingOrigin_eq hne, hlanes'] at hexec
  refine answers_live hexec hrun ⟨(congrArg State.tickNs honly :).trans htick, (congrArg State.mem honly :).trans hmem,
    (congrArg State.regs honly :).trans hregs, _, hsent l hl ((hlanes l).trans hok), hty, hcrc, ?_, hcorr, ?_⟩
  · have hnum' : (s.toInstant 100).tick = s.tick := (congrArg State.tick hrest :)
    rw [hnum, hnum']
  · have hper' : (s.toInstant 100).get R.TCK_PER_PER = s.get R.TCK_PER_PER :=
      (congrArg (fun x : State => x.get R.TCK_PER_PER) hrest :)
    rw [hper, hper']

theorem answers_timingOrigin_none {s : State} (hrun : s.phase = .run) (h : s.timingLanes = []) :
    Answers .timingFrameOrigin s (fun t => t = s) := by
  refine answers_live (t := s) ?_ hrun rfl
  show execTimingFrameOrigin s = _
  rw [execTimingFrameOrigin, State.timingOrigin, if_pos h]
  cases s.azfOn <;> rfl

/-! ### The relay -/

theorem answers_timingRelay {s : State} {n m : Fin 20} {f : Frame} {res : Nat} (hrun : s.phase = .run) (ha : s.azfOn = true)
    (hn : s.laneOk n = true) (hm : s.laneOk m = true) (hpath : s.timingPath n m = true) (hknown : fKnown f = true)
    (hty : fType f = tyTiming) (hlen : f.length = 52) (hends : s.endsCopy f = false) (hfree : s.Free m) :
    Answers (.timingFrameRelay n m f res) s (fun t => t.mem = s.mem ∧ t.regs = s.regs ∧
      t.out = ⟨m, timingRelay f (s.get (R.AZF_LDLY_LD n) + res)⟩ :: s.out) := by
  refine answers_live (t := s.passOn n m false (timingRelay f (s.get (R.AZF_LDLY_LD n) + res))) ?_ hrun ?_
  · show execTimingFrameRelay n m f res s = _
    simp [execTimingFrameRelay, ha, hn, hpath, hknown, hty, tooLong, hlen, hends]
  · rw [State.passOn_free _ _ ha hm hfree]
    exact ⟨rfl, rfl, rfl⟩

end Sys2Proof.Machine
end

/-! O46, third part: link probes. -/

section
namespace Sys2Proof.Machine

/-! ### A frame launched over a free lane -/

/-- A launch over a free lane changes the transmitter, what has been sent, and the count of open sources. -/
theorem launch_spec {s : State} {n : Nat} {f : Frame} (ha : s.azfOn = true) (hl : s.mayLaunch = true) (hn : s.laneOk n = true)
    (h : s.Free n) (hp : fType f = tyProbeReply → fieldBE f 14 4 ≤ 256000) :
    { s.launch n f with lanes := s.lanes, out := s.out, freeCtr := s.freeCtr } = s ∧ (s.launch n f).out = ⟨n, f⟩ :: s.out := by
  rw [State.launch_free f ha hl hn h hp, State.when]
  split
  · exact ⟨rfl, rfl⟩
  · exact ⟨rfl, rfl⟩

/-! ### Probes sent -/

theorem State.link_setLink (s : State) (n : Nat) (l : LinkMeas) : (s.setLink n l).link n = l := nth_setNth_self ..

/-- The sequence number of a lane's next Probe. -/
def State.nextProbe (s : State) (n : Nat) : Nat := ((s.link n).pseq + 1) % 65536

/-- Lane `n` awaits the reply to its next Probe, which leaves at `t1`. -/
def State.asking (s : State) (n t1 : Nat) : State :=
  s.setLink n { s.link n with pseq := s.nextProbe n, asked := some (s.nextProbe n, t1) }

/-- The Probe `q` of lane `n`. -/
def State.probe (s : State) (n q : Nat) : Frame :=
  s.frame { s.hdr tyProbe with ring := s.laneRing n } (bytesBE 2 q ++ zeros 2)

theorem probe_spec (s : State) (n q : Nat) : fType (s.probe n q) = tyProbe ∧ (s.probe n q).length = 20 ∧
    fieldBE (s.probe n q) 12 2 = q % 65536 := by
  refine ⟨fType_mkFrame _ _ (show tyProbe < 64 by decide), ?_, fieldBE_mkFrame_bytes _ _ 2 q [] (zeros 2)⟩
  rw [State.probe, State.frame, mkFrame_length]
  simp [zeros]

theorem exec_probeSend {s : State} {n : Fin 20} {t1 : Nat} (ha : s.azfOn = true) (hn : s.laneOk n = true)
    (hturn : s.tick % 64 = n.val) : exec (.probeSend n t1) s = .next (live s (((s.toInstant 200).asking n t1).launch n
      (((s.toInstant 200).asking n t1).probe n ((s.toInstant 200).nextProbe n)))) := by
  show execProbeSend n t1 s = _
  rw [execProbeSend, ha, hn, beq_iff_eq.mpr hturn]
  rfl

theorem answers_probeSend {s : State} {n : Fin 20} {t1 : Nat} (hrun : s.phase = .run) (ha : s.azfOn = true)
    (hn : s.laneOk n = true) (hfree : s.Free n) (hturn : s.tick % 64 = n.val) (hl : max s.tickNs 200 < s.eveNs ∨ s.lock = false) :
    Answers (.probeSend n t1) s (fun t => (t.link n).asked = some (s.nextProbe n, t1) ∧ t.mem = s.mem ∧
      t.regs = s.regs ∧ ∃ g, t.out = ⟨n, g⟩ :: s.out ∧ fType g = tyProbe ∧ g.length = 20 ∧ fieldBE g 12 2 = s.nextProbe n) := by
  obtain ⟨hregs, hmem, hout, hazf, hon, hlane, hfree'⟩ := toInstant_same s 200
  have hmay : ((s.toInstant 200).asking n t1).mayLaunch = true := toInstant_mayLaunch hl
  have hnext : (s.toInstant 200).nextProbe n = s.nextProbe n := by
    rw [State.nextProbe, State.link, hazf]
    rfl
  obtain ⟨gty, glen, gseq⟩ := probe_spec ((s.toInstant 200).asking n t1) n ((s.toInstant 200).nextProbe n)
  obtain ⟨hrest, hsent⟩ := launch_spec (s := (s.toInstant 200).asking n t1) (hon.trans ha) hmay ((hlane n).trans hn) (hfree' n hfree)
    (fun h => absurd (gty.symm.trans h) (by decide))
  refine answers_live (exec_probeSend ha hn hturn) hrun ⟨?_, (congrArg State.mem hrest :).trans hmem,
    (congrArg State.regs hrest :).trans hregs, _, hsent.trans (congrArg _ hout), gty, glen, ?_⟩
  · refine (congrArg (fun x : State => (x.link n).asked) hrest :).trans ?_
    rw [State.asking, State.link_setLink, hnext]
  · rw [gseq, hnext]
    exact Nat.mod_mod _ _

theorem answers_probeSend_notTurn {s : State} {n : Fin 20} {t1 : Nat} (hrun : s.phase = .run) (hturn : s.tick % 64 ≠ n.val)
    (hsvc : 8 ≤ (s.link n).svc) : Answers (.probeSend n t1) s (fun t => t = s) := by
  refine answers_live (t := s) ?_ hrun rfl
  show execProbeSend n t1 s = _
  rw [execProbeSend, beq_eq_false_iff_ne.mpr hturn, decide_eq_false (by omega), Bool.or_false, Bool.and_false, State.when_false]

/-! ### Frames that do not tell of an active partner -/

/-- A frame of a cell's, or without ACT, or not from the partner. -/
def State.Quiet (s : State) (f : Frame) : Prop := s.isK = true ∨ fAct f = false ∨ fSrc f ≠ s.partnerId

theorem State.not_member_of_cell {s : State} (h : s.isK = true) : s.isC = false ∧ s.isS = false := by
  simp only [State.isS, State.isC, State.isK, decide_eq_true_eq, decide_eq_false_iff_not] at h ⊢
  rw [h]
  decide

theorem State.noteAct_quiet {s : State} {f : Frame} (h : s.Quiet f) : s.noteAct f = s := by
  have hnone : ((s.isC || s.isS) && fKnown f && fAct f && fSrc f == s.partnerId && fCrcOk f) = false := by
    rcases h with hk | hact | hsrc
    · obtain ⟨hc, hs⟩ := State.not_member_of_cell hk
      simp [hc, hs]
    · simp [hact]
    · simp [hsrc]
  rw [State.noteAct, hnone, State.when_false]

/-- What a Probe or Probe reply that is taken does. -/
theorem State.onProbe_taken {s : State} {n ty len : Nat} {f : Frame} {g : State → State} (ha : s.azfOn = true)
    (hn : s.laneOk n = true) (hknown : fKnown f = true) (hty : fType f = ty) (hlen : f.length = len) (hcrc : fCrcOk f = true)
    (htag : s.lock = true → fTick f = s.tick16) (hquiet : s.Quiet f) : s.onProbe n ty len f g = g s := by
  have hstale : (s.lock && fTick f != s.tick16) = false := by
    cases hlock : s.lock with
    | false => rfl
    | true => simp [htag hlock]
  simp [State.onProbe, ha, hn, hknown, hty, hlen, hcrc, hstale, State.noteAct_quiet hquiet]

/-! ### Probes received -/

section
variable {s : State} {n : Fin 20} {f : Frame} (hrun : s.phase = .run) (ha : s.azfOn = true) (hquiet : s.Quiet f)
  (hn : s.laneOk n = true) (hknown : fKnown f = true) (hcrc : fCrcOk f = true)
include hrun ha hquiet hn hknown hcrc

theorem answers_probeReceive {turn : Nat} (hty : fType f = tyProbe) (hlen : f.length = 20)
    (htag : s.lock = true → fTick f = s.tick16 ∧ s.tickNs < s.eveNs) (hturn : turn ≤ 256000) (hfree : s.Free n) :
    Answers (.probeReceive n f turn) s (fun t => t.mem = s.mem ∧ t.regs = s.regs ∧
      ∃ g, t.out = ⟨n, g⟩ :: s.out ∧ fType g = tyProbeReply ∧ fieldBE g 12 2 = fieldBE f 12 2 ∧ fieldBE g 14 4 = turn ∧
        fDst g = fSrc f ∧ fCrcOk g = true) := by
  have hmay : s.mayLaunch = true := by
    cases hlock : s.lock with
    | true => exact State.mayLaunch_before_eve (htag hlock).2
    | false => rw [State.mayLaunch, State.mayLaunchAt, hlock]; rfl
  have hslice : (slice f 12 2).length = 2 := by simp [slice, hlen]
  generalize hg : s.frame { s.hdr tyProbeReply with dst := fSrc f, ring := s.laneRing n }
    (slice f 12 2 ++ bytesBE 4 turn ++ zeros 2) = g
  have gty : fType g = tyProbeReply := hg ▸ fType_mkFrame _ _ (show tyProbeReply < 64 by decide)
  have gseq : fieldBE g 12 2 = fieldBE f 12 2 := by
    rw [← hg, State.frame, List.append_assoc]
    refine (fieldBE_mkFrame _ _ (i := 0) (by simp [hslice])).trans ?_
    rw [fieldBE_append_left (by simp [hslice]), fieldBE, slice, List.drop_zero, List.take_of_length_le (by omega), fieldBE]
  have gturn : fieldBE g 14 4 = turn := by
    have hread := fieldBE_mkFrame_bytes { s.hdr tyProbeReply with dst := fSrc f, ring := s.laneRing n } s.tick16 4 turn
      (slice f 12 2) (zeros 2)
    rw [hslice, ← List.append_assoc] at hread
    rw [← hg, State.frame]
    exact hread.trans (by omega)
  have gdst : fDst g = fSrc f := by
    rw [← hg, State.frame, fDst_mkFrame]
    exact Nat.mod_eq_of_lt (Nat.mod_lt _ (by decide))
  have gcrc : fCrcOk g = true := hg ▸ fCrcOk_mkFrame _ _ _
  obtain ⟨hrest, hsent⟩ := launch_spec ha hmay hn hfree (f := g) (fun _ => by omega)
  refine answers_live (t := s.launch n g) ?_ hrun ⟨(congrArg State.mem hrest :), (congrArg State.regs hrest :), g, hsent, gty,
    gseq, gturn, gdst, gcrc⟩
  show execProbeReceive n f turn s = _
  rw [execProbeReceive, State.onProbe_taken ha hn hknown hty hlen hcrc (fun h => (htag h).1) hquiet, decide_eq_true hturn,
    State.when_true, hg]

/-- A reply that would leave too late does not leave. -/
theorem answers_probeReceive_late {turn : Nat} (hty : fType f = tyProbe) (hlen : f.length = 20)
    (htag : s.lock = true → fTick f = s.tick16) (hturn : 256000 < turn) : Answers (.probeReceive n f turn) s (fun t => t = s) := by
  refine answers_live (t := s) ?_ hrun rfl
  show execProbeReceive n f turn s = _
  rw [execProbeReceive, State.onProbe_taken ha hn hknown hty hlen hcrc htag hquiet, decide_eq_false (by omega), State.when_false]

/-! ### Probe replies received -/

omit hrun ha hquiet hn hknown hcrc in
/-- The first measurement of a link is taken as it is. -/
theorem State.measure_first {v : Int} (hcount : (s.link n).count = 0) (hacc : (s.link n).acc = []) : s.measure n v =
    (s.setLink n { s.link n with asked := Option.none, rej := 0, acc := [v], count := 1 }).put (R.AZF_LDLY_LD n) (satUns 24 v) := by
  simp [State.measure, hcount, hacc, meanOf]

theorem answers_probeReply {t1 t4 : Nat} (hty : fType f = tyProbeReply) (hlen : f.length = 24)
    (htag : s.lock = true → fTick f = s.tick16) (hasked : (s.link n).asked = some (fieldBE f 12 2, t1))
    (hcount : (s.link n).count = 0) (hacc : (s.link n).acc = []) :
    Answers (.probeReplyReceive n f t4) s (fun t => (t.link n).asked = Option.none ∧
      OnlyFields [R.AZF_LDLY_LD n] { s with azf := t.azf } t ∧ t.get (R.AZF_LDLY_LD n) =
        satUns 24 ((((t4 : Int) - t1) - fieldBE f 14 4) / 2 + 16 * s.getS (R.AZF_LDLY_ASYM n))) := by
  generalize hv : (((t4 : Int) - t1) - fieldBE f 14 4) / 2 + 16 * s.getS (R.AZF_LDLY_ASYM n) = v
  refine answers_live (t := (s.setLink n { s.link n with asked := Option.none, rej := 0, acc := [v], count := 1 }).put
    (R.AZF_LDLY_LD n) (satUns 24 v)) ?_ hrun ⟨?_, ?_, ?_⟩
  · show execProbeReplyReceive n f t4 s = _
    rw [execProbeReplyReceive, State.onProbe_taken ha hn hknown hty hlen hcrc htag hquiet, hasked]
    dsimp only
    rw [if_pos rfl, hv, State.measure_first hcount hacc]
  · exact congrArg LinkMeas.asked (State.link_setLink s n _)
  · exact onlyFields_put (List.mem_singleton_self _) (onlyFields_refl _ _)
  · rw [State.get_put_self]
    refine Nat.mod_eq_of_lt ?_
    show satUns 24 v < 2 ^ 24
    rw [satUns, satNat]
    omega

theorem answers_probeReply_unasked {t4 : Nat} (hty : fType f = tyProbeReply) (hlen : f.length = 24)
    (htag : s.lock = true → fTick f = s.tick16) (hasked : (s.link n).asked = Option.none) :
    Answers (.probeReplyReceive n f t4) s (fun t => t = s) := by
  refine answers_live (t := s) ?_ hrun rfl
  show execProbeReplyReceive n f t4 s = _
  rw [execProbeReplyReceive, State.onProbe_taken ha hn hknown hty hlen hcrc htag hquiet, hasked]

end

end Sys2Proof.Machine
end

/-! O46, fourth part: alignment is lost. -/

section
namespace Sys2Proof.Machine

/-! ### An event leaves a cell's command alone -/

/-- The command that a cell has received stands. -/
def KeepsCmd (s t : State) : Prop := t.cell.cmd = s.cell.cmd

theorem KeepsCmd.trans {s t u : State} (h : KeepsCmd s t) (k : KeepsCmd t u) : KeepsCmd s u := Eq.trans k h

theorem dsxIssueCore_keepsCmd (s : State) (n a : Nat) : KeepsCmd s (s.dsxIssueCore n a).1 := by
  have hmin : ∀ x : State, KeepsCmd x x.dsxMin := fun x => by
    unfold State.dsxMin State.when
    split <;> rfl
  unfold State.dsxIssueCore
  split
  · rfl
  · split
    · rfl
    · split
      · rfl
      · split
        · rfl
        · split
          · rfl
          · exact hmin _

theorem fcuEventCore_keepsCmd (s : State) (n : Nat) : KeepsCmd s (s.fcuEventCore n).1 := by
  have hlog : ∀ (x : State) a b c d, KeepsCmd x (x.fcuLog a b c d) := fun x a b c d => by
    simp only [State.fcuLog]
    split <;> rfl
  unfold State.fcuEventCore
  split
  · rfl
  · dsimp only
    split
    · rfl
    · split
      · rfl
      · rfl
      · split
        · exact hlog _ _ _ _ _
        · rfl

theorem fcuAct_keepsCmd (s : State) (r : Nat) : KeepsCmd s (s.fcuAct r) := by
  have hyield : KeepsCmd s s.fcuYield := by
    unfold State.fcuYield State.when
    split <;> rfl
  have hleave : KeepsCmd s s.leave := by
    unfold State.leave State.when
    split
    · rfl
    · dsimp only
      split <;> rfl
  unfold State.fcuAct
  split
  · exact hyield
  · split
    · exact hleave
    · exact hyield
  · rfl
  · rfl

theorem fcuStep_keepsCmd (s : State) (n : Nat) : KeepsCmd s (s.fcuStep n).1 := by
  have h0 := fcuEventCore_keepsCmd s n
  have hhalt : ∀ x : State, KeepsCmd x x.redHalt := fun x => by
    unfold State.redHalt State.when
    split <;> rfl
  unfold State.fcuStep
  generalize s.fcuEventCore n = p at *
  obtain ⟨t, r⟩ := p
  dsimp only at *
  split
  · exact h0
  · generalize hu : (if ({ t with fcu := { t.fcu with reacted := n :: t.fcu.reacted } } : State).on (R.FCU_SCFG_GATE n) then
      ({ t with fcu := { t.fcu with reacted := n :: t.fcu.reacted } } : State).redHalt
      else { t with fcu := { t.fcu with reacted := n :: t.fcu.reacted } }) = u
    have hgate : KeepsCmd s u := by
      subst hu
      split
      · exact h0.trans (hhalt { t with fcu := { t.fcu with reacted := n :: t.fcu.reacted } })
      · exact h0
    split
    · exact hgate
    · have hissue := dsxIssueCore_keepsCmd u 0x40 n
      generalize u.dsxIssueCore 0x40 n = q at *
      obtain ⟨v, full⟩ := q
      exact hgate.trans (hissue.trans (fcuAct_keepsCmd _ _))

theorem fcuEvent_keepsCmd (s : State) (n : Nat) : KeepsCmd s (s.fcuEvent n) := by
  have h := fcuStep_keepsCmd s n
  unfold State.fcuEvent
  generalize s.fcuStep n = p at *
  obtain ⟨t, full⟩ := p
  dsimp only at *
  split
  · exact h.trans (fcuStep_keepsCmd _ _)
  · exact h

/-! ### Gates held off -/

/-- The fields of the pulse unit that holding the gates off changes. -/
def gateFields : List Fld := [R.PWM_GSTA_HIZ, R.PWM_GSTA_GOUT, R.PWM_GSTA_APPL, R.PWM_GSTA_DTACT, R.PWM_IRES_RESID]

/-- From `s` to `t` only gate fields, the pulse unit's record, the Almanac's counts and the trim of a cell have changed. -/
structure GateFrame (s t : State) : Prop where
  rest : { t with regs := s.regs, cell := s.cell, pwm := s.pwm, alm := s.alm } = s
  get : KeepsFieldsBut gateFields s t
  cmd : KeepsCmd s t

theorem gateFrame_refl (s : State) : GateFrame s s := ⟨rfl, fun _ _ => rfl, rfl⟩

theorem gateFrame_put {s t : State} {f : Fld} (v : Nat) (hf : f ∈ gateFields) (h : GateFrame s t) : GateFrame s (t.put f v) :=
  ⟨h.rest, fun g hg => (State.get_put_ne _ _ _ _ fun e => hg (e ▸ List.mem_map_of_mem hf)).trans (h.get g hg), h.cmd⟩

theorem gatesOff_spec (s : State) : GateFrame s s.gatesOff ∧ s.gatesOff.get R.PWM_GSTA_APPL = 3 := by
  generalize hu : (if s.cell.trimDue then s.trimLost else s) = u
  have hlost : GateFrame s u := by
    subst hu
    split
    · exact gateFrame_put (s := s) (t := { s with cell := { s.cell with trimDue := false, trimRes := Option.none } }) _
        (by simp [gateFields]) ⟨rfl, fun _ _ => rfl, rfl⟩
    · exact gateFrame_refl s
  have hout : ∀ x : State, GateFrame s x → GateFrame s (x.setGout 0) := fun x h => by
    obtain ⟨hrest, hget, hcmd⟩ := gateFrame_put (f := R.PWM_GSTA_GOUT) 0 (by simp [gateFields]) h
    exact ⟨hrest, hget, hcmd⟩
  have hpend : ∀ x : State, GateFrame s x → GateFrame s x.noPend := fun x h => ⟨h.rest, h.get, h.cmd⟩
  generalize hv : (((((u.put R.PWM_GSTA_HIZ 0).setGout 0).put R.PWM_GSTA_APPL 3).noPend).put R.PWM_GSTA_DTACT 0) = v
  have hv1 : GateFrame s v := by
    rw [← hv]
    exact gateFrame_put _ (by simp [gateFields]) (hpend _ (gateFrame_put _ (by simp [gateFields])
      (hout _ (gateFrame_put _ (by simp [gateFields]) hlost))))
  have happl : v.get R.PWM_GSTA_APPL = 3 := by
    rw [← hv, State.get_put_ne _ _ _ _ (by decide)]
    exact State.get_put_self _ _ _
  have hback : s.gatesOff = v.trimBack := by rw [State.gatesOff, hu, hv]
  rw [hback, State.trimBack]
  split
  · exact ⟨hv1, happl⟩
  · unfold State.when
    split
    · exact ⟨gateFrame_put _ (by simp [gateFields]) hv1, (State.get_put_ne _ _ _ _ (by decide)).trans happl⟩
    · exact ⟨hv1, happl⟩

theorem gatesHeld_spec (s : State) : GateFrame s s.gatesHeld ∧
    (s.canDrive = true → s.hiz = false → s.gatesHeld.get R.PWM_GSTA_APPL = 3) := by
  obtain ⟨hframe, happl⟩ := gatesOff_spec s
  unfold State.gatesHeld State.when
  split
  · exact ⟨hframe, fun _ _ => happl⟩
  · rename_i hoff
    exact ⟨gateFrame_refl s, fun hd hz => absurd (by rw [hd, hz]; rfl) hoff⟩

/-! ### LOCK and ALGN cleared -/

/-- Alignment is lost from `s` to `t`. -/
structure Unaligned (s t : State) : Prop where
  algn : t.get R.TCK_STAT_ALGN = 0
  mem : t.mem = s.mem
  pick : t.azf.pick = s.azf.pick
  pwr : t.pwr = s.pwr
  outl : t.get R.AZF_TSTA_OUTL = s.get R.AZF_TSTA_OUTL
  conductor : s.isC = true → t.lock = s.lock
  node : s.isC = false → t.lock = false ∧ t.bit (R.FCU_STK_STK 0) 16 = true ∧ t.cell.cmd = .none
  cell : s.isK = true → s.canDrive = true → s.hiz = false → t.get R.PWM_GSTA_APPL = 3

/-- What the role depends on stands. -/
theorem State.role_congr {s t : State} (hbad : t.get R.SYS_STRAP_BAD = s.get R.SYS_STRAP_BAD)
    (hrole : t.get R.SYS_STRAP_ROLE = s.get R.SYS_STRAP_ROLE) : t.role = s.role := by
  rw [State.role, State.on, hbad, hrole, State.role, State.on]

/-- ALGN and the counts of in-band frames are cleared. -/
def State.unalign (s : State) : State :=
  (s.setAlign { s.azf.align with good := 0, outl := 0, noBand := 0 }).put R.TCK_STAT_ALGN 0

/-- LOCK is cleared beside ALGN, and a cell's command is void. -/
def State.unlock (s : State) : State :=
  let t := s.unalign.put R.TCK_STAT_LOCK 0
  { t with cell := { t.cell with cmd := .none } }

theorem State.alignLost_eq (s : State) : s.alignLost =
    if s.unalign.isC then s.unalign else (if s.unlock.isK then s.unlock.gatesHeld else s.unlock).fcuEvent 0x10 := rfl

theorem unalign_get (s : State) {g : Fld} (hg : R.TCK_STAT_ALGN.key ≠ g.key) : s.unalign.get g = s.get g :=
  State.get_put_ne _ _ _ _ hg

theorem unlock_get (s : State) {g : Fld} (hlock : R.TCK_STAT_LOCK.key ≠ g.key) (halgn : R.TCK_STAT_ALGN.key ≠ g.key) :
    s.unlock.get g = s.get g :=
  (State.get_put_ne s.unalign _ _ _ hlock).trans (unalign_get s halgn)

theorem unalign_isC (s : State) : s.unalign.isC = s.isC := by
  rw [State.isC, State.role_congr (unalign_get s (by decide)) (unalign_get s (by decide)), State.isC]

/-- A cell whose LOCK is cleared drives its gates as before. -/
theorem unlock_gates (s : State) : s.unlock.isK = s.isK ∧ s.unlock.canDrive = s.canDrive ∧ s.unlock.hiz = s.hiz := by
  have hrole : s.unlock.role = s.role :=
    State.role_congr (unlock_get s (by decide) (by decide)) (unlock_get s (by decide) (by decide))
  refine ⟨?_, ?_, ?_⟩
  · rw [State.isK, hrole, State.isK]
  · rw [State.canDrive, State.en, State.on, State.heldOff, State.imgFail, hrole, unlock_get s (by decide) (by decide),
      unlock_get s (by decide) (by decide), unlock_get s (by decide) (by decide)]
    rfl
  · rw [State.hiz, State.on, unlock_get s (by decide) (by decide), State.hiz, State.on]

theorem unaligned_conductor {s : State} (hc : s.isC = true) : Unaligned s s.unalign where
  algn := State.get_put_self _ _ _
  mem := rfl
  pick := rfl
  pwr := rfl
  outl := unalign_get s (by decide)
  conductor _ := by rw [State.lock, State.on, unalign_get s (by decide), State.lock, State.on]
  node h := absurd (hc.symm.trans h) (by decide)
  cell hk := by
    obtain ⟨hnot, -⟩ := State.not_member_of_cell hk
    exact absurd (hc.symm.trans hnot) (by decide)

/-- A node whose gates, if it has any, are held off, and which raises the source of a lost LOCK. -/
theorem unaligned_node {s u : State} (hc : s.isC = false) (h : GateFrame s.unlock u)
    (hcell : s.isK = true → s.canDrive = true → s.hiz = false → u.get R.PWM_GSTA_APPL = 3) : Unaligned s (u.fcuEvent 0x10) := by
  have hevent := fcuEvent_frame u 0x10
  have halgn : s.unlock.get R.TCK_STAT_ALGN = 0 :=
    (State.get_put_ne s.unalign _ _ _ (by decide)).trans (State.get_put_self _ _ _)
  have hlock : s.unlock.get R.TCK_STAT_LOCK = 0 := State.get_put_self s.unalign _ _
  have hlast : ∀ g : Fld, faultKey g.key = false → g.key ∉ gateFields.map Fld.key → (u.fcuEvent 0x10).get g = s.unlock.get g :=
    fun g hfault hgate => (hevent.get g hfault).trans (h.get g hgate)
  exact {
    algn := (hlast _ (by decide) (by decide)).trans halgn
    mem := (congrArg State.mem hevent.rest :).trans (congrArg State.mem h.rest :)
    pick := (congrArg (fun x : State => x.azf.pick) hevent.rest :).trans (congrArg (fun x : State => x.azf.pick) h.rest :)
    pwr := (congrArg State.pwr hevent.rest :).trans (congrArg State.pwr h.rest :)
    outl := (hlast _ (by decide) (by decide)).trans (unlock_get s (by decide) (by decide))
    conductor := fun h => absurd (hc.symm.trans h) (by decide)
    node := fun _ => ⟨by rw [State.lock, State.on, hlast _ (by decide) (by decide), hlock]; rfl,
      fcuEvent_sticky u (by decide) (by decide), h.cmd.trans (fcuEvent_keepsCmd u 0x10)⟩
    cell := fun hk hd hz => (hevent.get _ (by decide)).trans (hcell hk hd hz) }

theorem alignLost_spec (s : State) : Unaligned s s.alignLost := by
  rw [State.alignLost_eq, unalign_isC]
  cases hc : s.isC with
  | true => exact unaligned_conductor hc
  | false =>
    rw [if_neg (by decide)]
    obtain ⟨hk, hdrive, hhiz⟩ := unlock_gates s
    split
    · obtain ⟨hframe, happl⟩ := gatesHeld_spec s.unlock
      exact unaligned_node hc hframe fun _ hd hz => happl (hdrive.trans hd) (hhiz.trans hz)
    · rename_i hnot
      exact unaligned_node hc (gateFrame_refl _) fun h => absurd (hk.trans h) hnot

/-! ### The end of a tick -/

/-- The tick ends with no frame, or with an outlier that is counted. -/
def State.tickMissed (s : State) : State :=
  let t := if s.azf.pick.isSome then s.incSat R.AZF_TSTA_OUTL else s
  { t with azf := { t.azf with pick := Option.none } }

theorem exec_alignmentLost_none {s : State} (hf : s.follows = true) (ha : s.aligned = true) (hp : s.azf.pick = Option.none)
    (hlost : 15 ≤ s.azf.align.noBand) : exec .alignmentLost s = .next (live s s.tickMissed.alignLost.swNow) := by
  show execAlignmentLost s = _
  simp [execAlignmentLost, State.tickMissed, hf, ha, hp, hlost]

theorem exec_alignmentLost_outlier {s : State} {p : TimingPick} (hf : s.follows = true) (ha : s.aligned = true)
    (hp : s.azf.pick = some p) (hband : p.inBand = false) (hlost : 2 ≤ s.azf.align.outl) :
    exec .alignmentLost s = .next (live s s.tickMissed.alignLost.swNow) := by
  show execAlignmentLost s = _
  simp [execAlignmentLost, State.tickMissed, hf, ha, hp, hband, hlost]

theorem tickMissed_get (s : State) {g : Fld} (hg : R.AZF_TSTA_OUTL.key ≠ g.key) : s.tickMissed.get g = s.get g := by
  unfold State.tickMissed
  split
  · exact State.get_put_ne _ _ _ _ hg
  · rfl

/-- What a missed frame leaves of the node. -/
theorem tickMissed_spec (s : State) : s.tickMissed.mem = s.mem ∧ s.tickMissed.pwr = s.pwr ∧
    s.tickMissed.azf.pick = Option.none ∧ s.tickMissed.lock = s.lock ∧ s.tickMissed.isC = s.isC ∧ s.tickMissed.isK = s.isK ∧
    s.tickMissed.canDrive = s.canDrive ∧ s.tickMissed.hiz = s.hiz := by
  have hrest : s.tickMissed.mem = s.mem ∧ s.tickMissed.pwr = s.pwr ∧ s.tickMissed.sec = s.sec ∧ s.tickMissed.pwm = s.pwm ∧
      s.tickMissed.azf.pick = Option.none := by
    unfold State.tickMissed
    split
    · exact ⟨rfl, rfl, rfl, rfl, rfl⟩
    · exact ⟨rfl, rfl, rfl, rfl, rfl⟩
  obtain ⟨hmem, hpwr, hsec, hpwm, hpick⟩ := hrest
  have hrole : s.tickMissed.role = s.role := State.role_congr (tickMissed_get s (by decide)) (tickMissed_get s (by decide))
  refine ⟨hmem, hpwr, hpick, ?_, ?_, ?_, ?_, ?_⟩
  · rw [State.lock, State.on, tickMissed_get s (by decide), State.lock, State.on]
  · rw [State.isC, hrole, State.isC]
  · rw [State.isK, hrole, State.isK]
  · rw [State.canDrive, State.en, State.on, State.heldOff, State.imgFail, State.frozen, hrole, hpwm,
      tickMissed_get s (by decide), tickMissed_get s (by decide), tickMissed_get s (by decide)]
    rfl
  · rw [State.hiz, State.on, tickMissed_get s (by decide), State.hiz, State.on]

/-- What holds of a node whose alignment a missed frame loses. -/
theorem alignmentLost_spec {s : State} (hsw : s.pwr.swPend = false) :
    let t := s.tickMissed.alignLost.swNow
    (t.get R.TCK_STAT_ALGN = 0 ∧ t.mem = s.mem ∧ t.azf.pick = Option.none ∧ (s.isC = true → t.lock = s.lock) ∧
      (s.isC = false → t.lock = false ∧ t.bit (R.FCU_STK_STK 0) 16 = true ∧ t.cell.cmd = .none) ∧
      (s.isK = true → s.canDrive = true → s.hiz = false → t.get R.PWM_GSTA_APPL = 3)) ∧
    t.get R.AZF_TSTA_OUTL = s.tickMissed.get R.AZF_TSTA_OUTL := by
  obtain ⟨hmem, hpwr, hpick, hlock, hisC, hisK, hdrive, hhiz⟩ := tickMissed_spec s
  have h := alignLost_spec s.tickMissed
  have hno : s.tickMissed.alignLost.swNow = s.tickMissed.alignLost := by
    rw [State.swNow, h.pwr, hpwr, hsw, Bool.false_and, State.when_false]
  dsimp only
  rw [hno]
  exact ⟨⟨h.algn, h.mem.trans hmem, h.pick.trans hpick, fun hc => (h.conductor (hisC.trans hc)).trans hlock,
    fun hc => h.node (hisC.trans hc), fun hk hd hz => h.cell (hisK.trans hk) (hdrive.trans hd) (hhiz.trans hz)⟩, h.outl⟩

theorem answers_alignmentLost_inBand {s : State} {p : TimingPick} (hrun : s.phase = .run) (hp : s.azf.pick = some p)
    (hband : p.inBand = true) : Answers .alignmentLost s (fun t => t = s) := by
  refine answers_live (t := s) ?_ hrun rfl
  show execAlignmentLost s = _
  simp [execAlignmentLost, hp, hband]

end Sys2Proof.Machine
end

/-! O46, fifth part: what a Timing frame received changes beside what it is chosen for. -/

section
namespace Sys2Proof.Machine

/-! ### What stands aside -/

/-- The register fields that an event, the timebase, an acquisition and dual activity can change. -/
def asideKey (k : Nat) : Bool :=
  faultKey k || decide ((0x20000 * 6 ≤ k ∧ k < 0x20000 * 7) ∨ (0x20000 * 12 ≤ k ∧ k < 0x20000 * 13)) ||
    [(R.FLT 0x0B).key, (R.FCT 0x0B).key].contains k

/-- From `s` to `t` only those fields and the records of their units have changed. -/
structure Aside (s t : State) : Prop where
  rest : { t with
    regs := s.regs, dsx := s.dsx, fcu := s.fcu, alm := s.alm, red := s.red, cell := s.cell, tbs := s.tbs, acq := s.acq } = s
  get : ∀ g : Fld, asideKey g.key = false → t.get g = s.get g

theorem aside_refl (s : State) : Aside s s := ⟨rfl, fun _ _ => rfl⟩

theorem Aside.trans {s t u : State} (h : Aside s t) (k : Aside t u) : Aside s u :=
  ⟨(congrArg (fun x : State => { x with
    regs := s.regs, dsx := s.dsx, fcu := s.fcu, alm := s.alm, red := s.red, cell := s.cell, tbs := s.tbs, acq := s.acq })
    k.rest :).trans h.rest, fun g hg => (k.get g hg).trans (h.get g hg)⟩

theorem aside_put (s : State) {f : Fld} (v : Nat) (hf : asideKey f.key = true) : Aside s (s.put f v) :=
  ⟨rfl, fun g hg => State.get_put_ne _ _ _ _ fun e => by rw [e, hg] at hf; cases hf⟩

/-- Only records of those units are replaced. -/
theorem aside_rec {s t : State} (hregs : t.regs = s.regs) (h : { t with
    regs := s.regs, dsx := s.dsx, fcu := s.fcu, alm := s.alm, red := s.red, cell := s.cell, tbs := s.tbs, acq := s.acq } = s) :
    Aside s t :=
  ⟨h, fun g _ => by rw [State.get, hregs, State.get]⟩

theorem asideKey_fault {k : Nat} (h : asideKey k = false) : faultKey k = false := by
  simp only [asideKey, Bool.or_eq_false_iff] at h
  obtain ⟨⟨h, -⟩, -⟩ := h
  exact h

/-- An event, and FLT bits raised, of pages whose fields are among those. -/
theorem aside_faults {s t : State} {l : List Fld} (hl : ∀ f ∈ l, asideKey f.key = true) (h : FaultsAnd l s t) : Aside s t := by
  obtain ⟨hrest, hget⟩ := h
  refine ⟨(congrArg (fun x : State => { x with tbs := s.tbs, acq := s.acq }) hrest :), fun g hg => hget g ?_ (asideKey_fault hg)⟩
  intro hmem
  obtain ⟨f, hf, hkey⟩ := List.mem_map.mp hmem
  exact absurd ((hl f hf).symm.trans (hkey ▸ hg)) (by decide)

theorem aside_frame {s t : State} (h : FaultFrame s t) : Aside s t :=
  aside_faults (l := []) (fun _ hf => nomatch hf) ⟨h.rest, fun g _ hg => h.get g hg⟩

theorem aside_raiseIf (s : State) (b : Bool) {p : Nat} (k : Nat) (hp : asideKey (R.FLT p).key = true)
    (hc : asideKey (R.FCT p).key = true) : Aside s (s.raiseIf b p k) := by
  unfold State.raiseIf
  split
  · exact ⟨(congrArg (fun x : State => { x with tbs := s.tbs, acq := s.acq }) (raiseFlt_rest s p k) :), fun g hg =>
      raiseFlt_get s p k g (asideKey_fault hg) (fun e => by rw [e, hp] at hg; cases hg) (fun e => by rw [e, hc] at hg; cases hg)⟩
  · exact aside_refl s

theorem aside_when {s t : State} {b : Bool} (h : Aside s t) : Aside s (s.when b t) := by
  unfold State.when
  split
  · exact h
  · exact aside_refl s

/-! ### The offset that a node delivers -/

theorem tbsCoast_aside (s : State) (k : Nat) : Aside s (s.tbsCoast k) := by
  unfold State.tbsCoast
  exact (aside_put s _ (by decide)).trans (aside_faults (by decide) (raiseFlts_faults _ 6 _))

theorem tbsServo_aside (s : State) (o : Int) : Aside s (s.tbsServo o) := by
  have hunref : ∀ x : State, Aside x x.tbsUnref := fun x => aside_rec rfl rfl
  unfold State.tbsServo
  exact (aside_put s _ (by decide)).trans ((aside_put _ _ (by decide)).trans ((hunref _).trans ((aside_put _ _ (by decide)).trans
    (aside_raiseIf _ _ _ (by decide) (by decide)))))

theorem tbsAccept_aside (s : State) (o : Int) : Aside s (s.tbsAccept o) := by
  have hstep : Aside s (s.tbsStep o) := aside_rec rfl rfl
  have hunref : ∀ x : State, Aside x x.tbsUnref := fun x => aside_rec rfl rfl
  exact hstep.trans ((aside_put _ _ (by decide)).trans ((aside_put _ _ (by decide)).trans (hunref _)))

theorem tbsPend_aside (s : State) (o : Int) : Aside s (s.tbsPend o) := by
  have hput : Aside s (s.put R.TBS_PEND_PEND (ofSigned 64 o)) := aside_put s _ (by decide)
  have hend : ∀ (x : State) (b : Bool), Aside s x → Aside s (if b then x.tbsAccept o else x) := fun x b h => by
    split
    · exact h.trans (tbsAccept_aside x o)
    · exact h
  exact hend _ _ (hput.trans (aside_rec rfl rfl))

theorem tbsRefuse_aside (s : State) (o : Int) : Aside s (s.tbsRefuse o) :=
  (aside_frame (fcuEvent_frame s 0x0C)).trans ((aside_put _ _ (by decide)).trans ((aside_put _ _ (by decide)).trans
    ((tbsCoast_aside _ _).trans (tbsPend_aside _ o))))

theorem tbsHandle_aside (s : State) (o : Int) : Aside s (s.tbsHandle o) := by
  have hseen : Aside s { s with tbs := { s.tbs with sinceOfs := 0 } } := aside_rec rfl rfl
  have hfree : ∀ x : State, Aside x ((x.tbsStep o).tbsUnref.put R.TBS_STA_STATE 2) := fun x =>
    (aside_rec rfl rfl : Aside x (x.tbsStep o).tbsUnref).trans (aside_put _ _ (by decide))
  have hjump : ∀ (x : State) (b : Bool), Aside x (if b then x.tbsServo o else x.tbsRefuse o) := fun x b => by
    split
    · exact tbsServo_aside x o
    · exact tbsRefuse_aside x o
  unfold State.tbsHandle
  dsimp only
  refine hseen.trans ?_
  split
  · exact hfree _
  · exact hjump _ _
  · exact hjump _ _
  · exact tbsPend_aside _ o
  · exact aside_refl _

theorem nodeOffset_aside (s : State) : Aside s s.nodeOffset := by
  unfold State.nodeOffset
  split
  · exact aside_refl s
  · split
    · exact aside_refl s
    · exact aside_when (tbsHandle_aside s _)

/-! ### A change of TP, and a frame of an active partner -/

theorem acqTp_aside (s : State) : Aside s s.acqTp := by
  have hmark : Aside s (s.acqMark 0x82) := by
    have hclose : ∀ x : State, Aside x x.enterClose := fun x =>
      (aside_rec rfl rfl : Aside x (x.setAcq _)).trans (aside_put _ _ (by decide))
    unfold State.acqMark
    split
    · exact (aside_rec rfl rfl : Aside s (s.setRec _)).trans ((hclose _).trans (aside_rec rfl rfl))
    · exact aside_refl s
  exact aside_when hmark

theorem noteAct_aside (s : State) (f : Frame) : Aside s (s.noteAct f) := by
  have hred : ∀ r, Aside s { s with red := r } := fun _ => aside_rec rfl rfl
  exact aside_when ((hred _).trans (aside_raiseIf _ _ (p := 0x0B) _ (by decide) (by decide)))

/-- A Conductor that is not active keeps its registers. -/
theorem noteAct_notActive {s : State} (f : Frame) (h : s.active = false) : (s.noteAct f).regs = s.regs := by
  unfold State.noteAct
  rw [h]
  unfold State.when
  split <;> rfl

end Sys2Proof.Machine
end

/-! O46, sixth part: the Timing frame that is chosen. -/

section
namespace Sys2Proof.Machine

/-! ### What the choice depends on -/

/-- What alignment depends on stands. -/
theorem State.aligned_congr {s t : State} (hbad : t.get R.SYS_STRAP_BAD = s.get R.SYS_STRAP_BAD)
    (hrole : t.get R.SYS_STRAP_ROLE = s.get R.SYS_STRAP_ROLE) (halgn : t.get R.TCK_STAT_ALGN = s.get R.TCK_STAT_ALGN)
    (hlock : t.get R.TCK_STAT_LOCK = s.get R.TCK_STAT_LOCK) : t.aligned = s.aligned := by
  rw [State.aligned, State.isC, State.role_congr hbad hrole, State.lock, State.on, State.on, halgn, hlock]
  rfl

section
variable {s t : State}

theorem Aside.azf (h : Aside s t) : t.azf = s.azf := (congrArg State.azf h.rest :)

theorem Aside.role (h : Aside s t) : t.role = s.role :=
  State.role_congr (h.get _ (by decide)) (h.get _ (by decide))

theorem Aside.isK (h : Aside s t) : t.isK = s.isK := by rw [State.isK, h.role, State.isK]

theorem Aside.aligned (h : Aside s t) : t.aligned = s.aligned :=
  State.aligned_congr (h.get _ (by decide)) (h.get _ (by decide)) (h.get _ (by decide)) (h.get _ (by decide))

theorem Aside.tick16 (h : Aside s t) : t.tick16 = s.tick16 := by
  rw [State.tick16, State.tick, h.get _ (by decide), State.tick16, State.tick]

theorem Aside.runs (h : Aside s t) {p : Nat} (hp : asideKey (R.EN p).key = false) : t.runs p = s.runs p := by
  have hsec : t.sec = s.sec := (congrArg State.sec h.rest :)
  simp only [State.runs, State.en, State.on, State.gated, State.heldPage, State.imgFail, State.isK, State.isC, State.isS, h.role,
    h.get R.SEC_STA_BSTAGE (by decide), hsec, h.get _ hp]

/-- No register of a lane is among those. -/
theorem asideKey_lane : ∀ m : Fin 20, asideKey (R.EN (lanePage m)).key = false ∧ asideKey (R.AZL_LSTAT_STATE m).key = false ∧
    asideKey (R.AZL_LSTAT_INSVC m).key = false ∧ asideKey (R.AZF_LDLY_LD m).key = false := by decide

theorem Aside.laneOk (h : Aside s t) (m : Fin 20) : t.laneOk m = s.laneOk m := by
  obtain ⟨hen, hst, hsvc, -⟩ := asideKey_lane m
  simp only [State.laneOk, State.laneUp, State.laneSt, State.inSvc, State.on, h.runs hen, h.get _ hst, h.get _ hsvc]

theorem Aside.timingPick (h : Aside s t) (m : Fin 20) (f : Frame) (rx : Int) : t.timingPick m f rx = s.timingPick m f rx := by
  obtain ⟨-, -, -, hdelay⟩ := asideKey_lane m
  rw [State.timingPick, h.get _ hdelay, State.timingPick]

end

/-- A node that follows is not an active Conductor. -/
theorem State.follows_iff (s : State) : s.follows = true ↔
    (s.isC = true → s.get R.RED_STA_STATE = 0 ∨ s.get R.RED_STA_STATE = 2) ∧ s.azfOn = true ∧ s.en 7 = true := by
  cases hc : s.isC <;> simp [State.follows, hc, and_assoc]

/-- A node that follows still does after a frame of an active partner. -/
theorem noteAct_follows {s : State} (f : Frame) (h : s.follows = true) : (s.noteAct f).follows = true := by
  have haside := noteAct_aside s f
  obtain ⟨hstate, hon, hen⟩ := (State.follows_iff s).mp h
  refine (State.follows_iff _).mpr ⟨fun hc => ?_, (haside.runs (by decide)).trans hon, ?_⟩
  · rw [State.isC, haside.role] at hc
    have hactive : s.active = false := by
      rcases hstate hc with h | h
      · rw [State.active, h]; rfl
      · rw [State.active, h]; rfl
    rw [State.get, noteAct_notActive f hactive]
    exact hstate hc
  · rw [State.en, State.on, haside.get _ (by decide)]
    exact hen

theorem State.timingOk_iff (s : State) (n : Nat) (f : Frame) : s.timingOk n f = true ↔ s.follows = true ∧ s.laneOk n = true ∧
    fKnown f = true ∧ fType f = tyTiming ∧ f.length = 52 ∧ fCrcOk f = true ∧ tCerr f = false ∧
    (nth s.azf.links n LinkMeas.init).acc ≠ [] := by
  simp [State.timingOk, and_assoc]

theorem noteAct_timingOk {s : State} {n : Fin 20} {f : Frame} (h : s.timingOk n f = true) : (s.noteAct f).timingOk n f = true := by
  have haside := noteAct_aside s f
  obtain ⟨hfollows, hlane, hrest⟩ := (State.timingOk_iff s n f).mp h
  rw [← haside.azf] at hrest
  exact (State.timingOk_iff _ n f).mpr ⟨noteAct_follows f hfollows, (haside.laneOk n).trans hlane, hrest⟩

/-! ### The frame recorded -/

/-- The chosen frame is used where the node seeks alignment or finds it in the band. -/
def State.uses (s : State) (p : TimingPick) : Bool := !s.aligned || p.inBand

/-- The frame chosen, its error and whether it is used. -/
def State.pickNoted (s : State) (p : TimingPick) : State :=
  ((({ s with azf := { s.azf with pick := some p, holdover := p.hold } } : State).putS R.AZF_TERR_TERR p.e).putB
    R.TBS_STA_UHOLD p.hold).putB R.AZF_TSTA_TVALID (s.uses p)

/-- Its lane and depth, where it is used. -/
def State.laneNoted (s : State) (p : TimingPick) (used : Bool) : State :=
  if used then (s.put R.AZF_TSTA_TLANE p.lane).put R.AZF_TSTA_DEPTH p.depth else s

/-- A node that seeks alignment takes TP. -/
def State.periodTaken (s : State) (p : TimingPick) : State :=
  if s.aligned || s.get R.TCK_PER_PER == p.tper then s else ((s.put R.TCK_PER_PER p.tper).dsxIssue 0x16 1).acqTp

/-- The announcement of a new TP, where the frame is used. -/
def State.announced (s : State) (p : TimingPick) (used : Bool) : State :=
  if !used then s
  else
    (({ s with tck := { s.tck with tpLeft := p.tpcd } } : State).put R.TCK_PNEW_PNEW
      (if p.tpcd = 0 then 0 else p.tpnew)).putB R.TCK_STAT_TPCHG (p.tpcd != 0)

theorem State.choose_eq (s : State) (p : TimingPick) :
    s.choose p = (((s.pickNoted p).laneNoted p (s.uses p)).periodTaken p).announced p (s.uses p) := by
  unfold State.choose
  rfl

/-- What a node keeps of the frame `p` that it has chosen: `u` before, `t` after. -/
structure Chosen (p : TimingPick) (u t : State) : Prop where
  pick : t.azf = { u.azf with pick := some p, holdover := p.hold }
  mem : t.mem = u.mem
  out : t.out = u.out
  valid : t.on R.AZF_TSTA_TVALID = u.uses p
  used : u.uses p = true → t.get R.AZF_TSTA_TLANE = p.lane % 2 ^ R.AZF_TSTA_TLANE.width ∧
    t.get R.AZF_TSTA_DEPTH = p.depth % 2 ^ R.AZF_TSTA_DEPTH.width ∧ t.tck.tpLeft = p.tpcd ∧
    t.on R.TCK_STAT_TPCHG = (p.tpcd != 0)
  discarded : u.uses p = false → t.get R.AZF_TSTA_TLANE = u.get R.AZF_TSTA_TLANE ∧
    t.get R.AZF_TSTA_DEPTH = u.get R.AZF_TSTA_DEPTH
  period : t.get R.TCK_PER_PER = if u.aligned then u.get R.TCK_PER_PER else p.tper % 2 ^ R.TCK_PER_PER.width

/-- What stands aside of a chosen frame leaves what is kept of it. -/
theorem Chosen.aside {p : TimingPick} {u t v : State} (h : Chosen p u t) (k : Aside t v) : Chosen p u v where
  pick := k.azf.trans h.pick
  mem := (congrArg State.mem k.rest :).trans h.mem
  out := (congrArg State.out k.rest :).trans h.out
  valid := by rw [State.on, k.get _ (by decide)]; exact h.valid
  used hu := by
    obtain ⟨hlane, hdepth, hleft, hchg⟩ := h.used hu
    have htck : v.tck = t.tck := (congrArg State.tck k.rest :)
    refine ⟨(k.get _ (by decide)).trans hlane, (k.get _ (by decide)).trans hdepth, by rw [htck, hleft], ?_⟩
    rw [State.on, k.get _ (by decide)]
    exact hchg
  discarded hu := by
    obtain ⟨hlane, hdepth⟩ := h.discarded hu
    exact ⟨(k.get _ (by decide)).trans hlane, (k.get _ (by decide)).trans hdepth⟩
  period := (k.get _ (by decide)).trans h.period

/-- The frame is noted, with nothing of its lane, depth and period yet. -/
theorem pickNoted_get (s : State) (p : TimingPick) {g : Fld}
    (hg : g.key ∉ [R.AZF_TERR_TERR, R.TBS_STA_UHOLD, R.AZF_TSTA_TVALID].map Fld.key) : (s.pickNoted p).get g = s.get g := by
  simp only [List.map_cons, List.map_nil, List.mem_cons, List.not_mem_nil, or_false, not_or] at hg
  obtain ⟨hterr, huhold, hvalid⟩ := hg
  exact (State.get_put_ne _ _ _ _ (Ne.symm hvalid)).trans ((State.get_put_ne _ _ _ _ (Ne.symm huhold)).trans
    (State.get_put_ne _ _ _ _ (Ne.symm hterr)))

theorem laneNoted_get (s : State) (p : TimingPick) (used : Bool) {g : Fld}
    (hg : g.key ∉ [R.AZF_TSTA_TLANE, R.AZF_TSTA_DEPTH].map Fld.key) : (s.laneNoted p used).get g = s.get g := by
  simp only [List.map_cons, List.map_nil, List.mem_cons, List.not_mem_nil, or_false, not_or] at hg
  obtain ⟨hlane, hdepth⟩ := hg
  unfold State.laneNoted
  split
  · exact (State.get_put_ne _ _ _ _ (Ne.symm hdepth)).trans (State.get_put_ne _ _ _ _ (Ne.symm hlane))
  · rfl

/-- Up to the lane and depth noted alignment and TP stand. -/
theorem laneNoted_spec (s : State) (p : TimingPick) :
    ((s.pickNoted p).laneNoted p (s.uses p)).aligned = s.aligned ∧
    ((s.pickNoted p).laneNoted p (s.uses p)).get R.TCK_PER_PER = s.get R.TCK_PER_PER ∧
    { (s.pickNoted p).laneNoted p (s.uses p) with regs := s.regs } =
      { s with azf := { s.azf with pick := some p, holdover := p.hold } } := by
  have hget : ∀ g : Fld, g.key ∉ [R.AZF_TSTA_TLANE, R.AZF_TSTA_DEPTH].map Fld.key →
      g.key ∉ [R.AZF_TERR_TERR, R.TBS_STA_UHOLD, R.AZF_TSTA_TVALID].map Fld.key →
      ((s.pickNoted p).laneNoted p (s.uses p)).get g = s.get g := fun g hlane hpick =>
    (laneNoted_get _ p _ hlane).trans (pickNoted_get s p hpick)
  refine ⟨State.aligned_congr (hget _ (by decide) (by decide)) (hget _ (by decide) (by decide)) (hget _ (by decide) (by decide))
    (hget _ (by decide) (by decide)), hget _ (by decide) (by decide), ?_⟩
  unfold State.laneNoted
  split <;> rfl

/-- The period of an aligned node stands, and another takes the frame's. -/
theorem periodTaken_spec (u : State) (p : TimingPick) :
    { u.periodTaken p with
      regs := u.regs, dsx := u.dsx, fcu := u.fcu, alm := u.alm, red := u.red, cell := u.cell, tbs := u.tbs, acq := u.acq } = u ∧
    (∀ g : Fld, asideKey g.key = false → R.TCK_PER_PER.key ≠ g.key → (u.periodTaken p).get g = u.get g) ∧
    (u.periodTaken p).get R.TCK_PER_PER =
      if u.aligned then u.get R.TCK_PER_PER else p.tper % 2 ^ R.TCK_PER_PER.width := by
  have htold : ∀ x : State, Aside x (x.dsxIssue 0x16 1).acqTp := fun x =>
    (aside_frame (dsxIssue_frame x 0x16 1)).trans (acqTp_aside _)
  unfold State.periodTaken
  split
  · rename_i hkeep
    refine ⟨rfl, fun _ _ _ => rfl, ?_⟩
    split
    · rfl
    · rename_i hfree
      have hsame : u.get R.TCK_PER_PER = p.tper := by simpa [hfree] using hkeep
      rw [← hsame, State.get_mod]
  · rename_i hnew
    have hfree : ¬ u.aligned = true := fun h => hnew (by rw [h, Bool.true_or])
    obtain ⟨hrest, hget⟩ := htold (u.put R.TCK_PER_PER p.tper)
    refine ⟨(congrArg (fun x : State => { x with regs := u.regs }) hrest :), fun g hg hne =>
      (hget g hg).trans (State.get_put_ne _ _ _ _ hne), ?_⟩
    rw [if_neg hfree, hget _ (by decide), State.get_put_self]

theorem announced_get (s : State) (p : TimingPick) (used : Bool) {g : Fld}
    (hg : g.key ∉ [R.TCK_PNEW_PNEW, R.TCK_STAT_TPCHG].map Fld.key) : (s.announced p used).get g = s.get g := by
  simp only [List.map_cons, List.map_nil, List.mem_cons, List.not_mem_nil, or_false, not_or] at hg
  obtain ⟨hnew, hchg⟩ := hg
  unfold State.announced
  split
  · rfl
  · exact (State.get_put_ne _ _ _ _ (Ne.symm hchg)).trans (State.get_put_ne _ _ _ _ (Ne.symm hnew))

/-- A frame that is used tells how long the announcement of TP still runs. -/
theorem announced_spec (s : State) (p : TimingPick) (used : Bool) :
    { s.announced p used with regs := s.regs, tck := s.tck } = s ∧
    (used = true → (s.announced p used).tck.tpLeft = p.tpcd ∧ (s.announced p used).on R.TCK_STAT_TPCHG = (p.tpcd != 0)) := by
  cases used with
  | false => exact ⟨rfl, fun h => nomatch h⟩
  | true => exact ⟨rfl, fun _ => ⟨rfl, State.on_putB _ _ rfl⟩⟩

theorem choose_spec (s : State) (p : TimingPick) : Chosen p s (s.choose p) := by
  obtain ⟨haligned, hper, hrest⟩ := laneNoted_spec s p
  have hused : s.uses p = true → ((s.pickNoted p).laneNoted p (s.uses p)).get R.AZF_TSTA_TLANE = p.lane % 2 ^ R.AZF_TSTA_TLANE.width ∧
      ((s.pickNoted p).laneNoted p (s.uses p)).get R.AZF_TSTA_DEPTH = p.depth % 2 ^ R.AZF_TSTA_DEPTH.width := fun hu => by
    rw [State.laneNoted, if_pos hu]
    exact ⟨(State.get_put_ne _ _ _ _ (by decide)).trans (State.get_put_self _ _ _), State.get_put_self _ _ _⟩
  have hdiscarded : s.uses p = false → ∀ g : Fld, g.key ∉ [R.AZF_TERR_TERR, R.TBS_STA_UHOLD, R.AZF_TSTA_TVALID].map Fld.key →
      ((s.pickNoted p).laneNoted p (s.uses p)).get g = s.get g := fun hu g hg => by
    rw [State.laneNoted, hu]
    exact pickNoted_get s p hg
  have hvalid : ((s.pickNoted p).laneNoted p (s.uses p)).on R.AZF_TSTA_TVALID = s.uses p := by
    rw [State.on, laneNoted_get _ _ _ (by decide)]
    exact State.on_putB _ _ rfl
  rw [State.choose_eq]
  generalize (s.pickNoted p).laneNoted p (s.uses p) = v at *
  obtain ⟨prest, pget, pper⟩ := periodTaken_spec v p
  generalize v.periodTaken p = w at *
  obtain ⟨arest, aused⟩ := announced_spec w p (s.uses p)
  have hget : ∀ g : Fld, asideKey g.key = false → R.TCK_PER_PER.key ≠ g.key →
      g.key ∉ [R.TCK_PNEW_PNEW, R.TCK_STAT_TPCHG].map Fld.key → (w.announced p (s.uses p)).get g = v.get g :=
    fun g haside hne hg => (announced_get w p _ hg).trans (pget g haside hne)
  exact {
    pick := (congrArg State.azf arest :).trans ((congrArg State.azf prest :).trans (congrArg State.azf hrest :))
    mem := (congrArg State.mem arest :).trans ((congrArg State.mem prest :).trans (congrArg State.mem hrest :))
    out := (congrArg State.out arest :).trans ((congrArg State.out prest :).trans (congrArg State.out hrest :))
    valid := by
      rw [State.on, hget _ (by decide) (by decide) (by decide)]
      exact hvalid
    used := fun hu => by
      obtain ⟨hlane, hdepth⟩ := hused hu
      obtain ⟨hleft, hchg⟩ := aused hu
      exact ⟨(hget _ (by decide) (by decide) (by decide)).trans hlane, (hget _ (by decide) (by decide) (by decide)).trans hdepth,
        hleft, hchg⟩
    discarded := fun hu => ⟨(hget _ (by decide) (by decide) (by decide)).trans (hdiscarded hu _ (by decide)),
      (hget _ (by decide) (by decide) (by decide)).trans (hdiscarded hu _ (by decide))⟩
    period := by rw [announced_get w p _ (by decide), pper, haligned, hper] }

/-! ### The frame received -/

/-- A Timing frame has reached the node whole. -/
def State.timingSeen (s : State) (f : Frame) : State :=
  { s.noteAct f with azf := { (s.noteAct f).azf with timSeen := true } }

/-- It is chosen, and a cell delivers its offset. -/
def State.timingTaken (s : State) (p : TimingPick) : State := (s.choose p).when (s.choose p).isK (s.choose p).nodeOffset

theorem timingTaken_spec (s : State) (p : TimingPick) : Chosen p s (s.timingTaken p) :=
  (choose_spec s p).aside (aside_when (nodeOffset_aside _))

/-- What the choice of a frame depends on stands. -/
theorem timingSeen_spec (s : State) (n : Fin 20) (f : Frame) (rx : Int) (p : TimingPick) :
    (s.timingSeen f).timingPick n f rx = s.timingPick n f rx ∧ (s.timingSeen f).picks p = s.picks p ∧
    (s.timingSeen f).aligned = s.aligned ∧ (∀ g : Fld, asideKey g.key = false → (s.timingSeen f).get g = s.get g) := by
  have h := noteAct_aside s f
  have hpick : (s.timingSeen f).azf.pick = s.azf.pick := (congrArg AzfState.pick h.azf :)
  have hcell : (s.timingSeen f).isK = s.isK := h.isK
  refine ⟨h.timingPick n f rx, ?_, h.aligned, h.get⟩
  rw [State.picks, hpick, hcell]
  rfl

section
variable {s : State} {n : Fin 20} {f : Frame} {rx : Int} (ha : s.azfOn = true) (hok : s.timingOk n f = true)
include ha hok

/-- A frame whose tag is right, or is not tested, may be chosen. -/
theorem exec_timingReceive (htag : s.aligned = true → fTick f = s.tick16) : exec (.timingFrameReceive n f rx) s =
    .next (live s (if s.picks (s.timingPick n f rx) then (s.timingSeen f).timingTaken (s.timingPick n f rx)
      else s.timingSeen f)) := by
  obtain ⟨-, hlane, -, hty, -⟩ := (State.timingOk_iff s n f).mp hok
  obtain ⟨hpick, hpicks, -, -⟩ := timingSeen_spec s n f rx (s.timingPick n f rx)
  have hstale : ((s.noteAct f).aligned && fTick f != (s.noteAct f).tick16) = false := by
    rw [(noteAct_aside s f).aligned, (noteAct_aside s f).tick16]
    cases hal : s.aligned with
    | false => rfl
    | true => simp [htag hal]
  have hin : s.timingIn n f rx = if (s.timingSeen f).picks ((s.timingSeen f).timingPick n f rx) then
      (s.timingSeen f).timingTaken ((s.timingSeen f).timingPick n f rx) else s.timingSeen f := by
    rw [State.timingIn, hlane, beq_iff_eq.mpr hty, Bool.and_self, State.when_true]
    dsimp only
    rw [if_pos (noteAct_timingOk hok), if_neg (by rw [hstale]; decide)]
    rfl
  show execTimingFrameReceive n f rx s = _
  rw [execTimingFrameReceive, ha, State.when_true, hin, hpick, hpicks]

/-- An aligned node only counts a frame of another tick. -/
theorem exec_timingReceive_stale (hquiet : s.Quiet f) (hal : s.aligned = true) (htag : fTick f ≠ s.tick16) :
    exec (.timingFrameReceive n f rx) s = .next (live s (s.incSat R.AZF_TAGERR_STALE)) := by
  have hstale : (s.aligned && fTick f != s.tick16) = true := by simp [hal, htag]
  show execTimingFrameReceive n f rx s = _
  rw [execTimingFrameReceive, ha, State.when_true, State.timingIn, State.noteAct_quiet hquiet]
  have hwhen : s.when (s.laneOk n && fType f == tyTiming) s = s := by
    unfold State.when
    split <;> rfl
  dsimp only
  rw [hwhen, if_pos hok, if_pos hstale]

theorem answers_timingStale (hrun : s.phase = .run) (hquiet : s.Quiet f) (hal : s.aligned = true) (htag : fTick f ≠ s.tick16) :
    Answers (.timingFrameReceive n f rx) s (fun t => OnlyFields [R.AZF_TAGERR_STALE] s t) :=
  answers_live (exec_timingReceive_stale ha hok hquiet hal htag) hrun
    (onlyFields_incSat (List.mem_singleton_self _) (onlyFields_refl _ s))

theorem answers_timingChosen (hrun : s.phase = .run) (htag : s.aligned = true → fTick f = s.tick16)
    (hpicks : s.picks (s.timingPick n f rx) = true) : Answers (.timingFrameReceive n f rx) s (fun t =>
      let p := s.timingPick n f rx
      t.azf.pick = some p ∧ t.azf.timSeen = true ∧ t.mem = s.mem ∧ t.out = s.out ∧
      t.on R.AZF_TSTA_TVALID = (!s.aligned || p.inBand) ∧
      (s.aligned = false ∨ p.inBand = true →
        t.get R.AZF_TSTA_TLANE = n ∧ t.get R.AZF_TSTA_DEPTH = (fHops f + 1) % 2 ^ R.AZF_TSTA_DEPTH.width ∧
        t.tck.tpLeft = byteAt f 32 ∧ t.on R.TCK_STAT_TPCHG = (byteAt f 32 != 0)) ∧
      (s.aligned = true → p.inBand = false →
        t.get R.AZF_TSTA_TLANE = s.get R.AZF_TSTA_TLANE ∧ t.get R.AZF_TSTA_DEPTH = s.get R.AZF_TSTA_DEPTH) ∧
      t.get R.TCK_PER_PER = (if s.aligned then s.get R.TCK_PER_PER
        else fieldBE f 28 2 % 16384 % 2 ^ R.TCK_PER_PER.width)) := by
  have hexec := exec_timingReceive (rx := rx) ha hok htag
  rw [hpicks, if_pos rfl] at hexec
  have haside := noteAct_aside s f
  obtain ⟨-, -, hal, hget⟩ := timingSeen_spec s n f rx (s.timingPick n f rx)
  have hchosen := timingTaken_spec (s.timingSeen f) (s.timingPick n f rx)
  have huses : (s.timingSeen f).uses (s.timingPick n f rx) = (!s.aligned || (s.timingPick n f rx).inBand) := by
    rw [State.uses, hal]
  refine answers_live hexec hrun ⟨congrArg AzfState.pick hchosen.pick, congrArg AzfState.timSeen hchosen.pick,
    hchosen.mem.trans (congrArg State.mem haside.rest :), hchosen.out.trans (congrArg State.out haside.rest :),
    hchosen.valid.trans huses, fun hused => ?_, fun haligned hband => ?_, ?_⟩
  · have hu : (s.timingSeen f).uses (s.timingPick n f rx) = true := by
      rw [huses]
      rcases hused with h | h
      · rw [h]; rfl
      · rw [h, Bool.or_true]
    obtain ⟨hlane, hdepth, hleft, hchg⟩ := hchosen.used hu
    exact ⟨hlane.trans (Nat.mod_eq_of_lt (Nat.lt_of_lt_of_le n.isLt (by decide))), hdepth, hleft, hchg⟩
  · obtain ⟨hlane, hdepth⟩ := hchosen.discarded (by rw [huses, haligned, hband]; rfl)
    exact ⟨hlane.trans (hget _ (by decide)), hdepth.trans (hget _ (by decide))⟩
  · rw [hchosen.period, hal, hget _ (by decide)]
    rfl

/-- A cell that has chosen keeps its choice. -/
theorem answers_timingSecond (hrun : s.phase = .run) (htag : s.aligned = true → fTick f = s.tick16) (hk : s.isK = true)
    (hpick : s.azf.pick.isSome) : Answers (.timingFrameReceive n f rx) s (fun t =>
      t.azf.pick = s.azf.pick ∧ t.regs = s.regs ∧ t.mem = s.mem) := by
  have hexec := exec_timingReceive (rx := rx) ha hok htag
  have hno : s.picks (s.timingPick n f rx) = false := by
    obtain ⟨q, hq⟩ := Option.isSome_iff_exists.mp hpick
    rw [State.picks, hq, hk]
    rfl
  have hseen : s.timingSeen f = { s with azf := { s.azf with timSeen := true } } := by
    rw [State.timingSeen, State.noteAct_quiet (.inl hk)]
  rw [hno, if_neg (by decide), hseen] at hexec
  exact answers_live hexec hrun ⟨rfl, rfl, rfl⟩

end

/-! ### The statement -/

/-- Settles O46: each frame that leaves is its header, its body and its CRC, a frame chosen and what it sets aside of it are
kept apart, and a lost alignment is followed through what holds the gates off and what the event leaves of the node. -/
theorem timingFramesAlignTheNode : Obligations.TimingFramesAlignTheNode := by
  unfold Obligations.TimingFramesAlignTheNode
  intro s n m f res turn t1 t4 rx hrun ha
  refine ⟨fun l hl hok heve hfree => answers_timingOrigin hrun ha hl hok heve hfree, answers_timingOrigin_none hrun,
    fun hn hm hpath hknown hty hlen hends hfree => ?_, fun hok htag => ⟨answers_timingChosen ha hok hrun htag,
      answers_timingSecond ha hok hrun htag⟩, fun hquiet hok hal htag => answers_timingStale ha hok hrun hquiet hal htag,
    fun hf hal hsw => ⟨fun hp hband => ?_, fun p hp hband hout => ?_⟩, fun p hp hband => answers_alignmentLost_inBand hrun hp hband,
    fun hn hfree hturn hl => answers_probeSend hrun ha hn hfree hturn hl, answers_probeSend_notTurn hrun,
    fun hquiet hn hknown hty hlen hcrc htag => ⟨fun hturn hfree => ?_, fun hturn => ?_⟩,
    fun hquiet hn hknown hty hlen hcrc htag => ⟨fun hasked hcount hacc => ?_, fun hasked => ?_⟩⟩
  · refine (answers_timingRelay hrun ha hn hm hpath hknown hty hlen hends hfree).imp fun t ht => ?_
    obtain ⟨hmem, hregs, hout⟩ := ht
    exact ⟨hmem, hregs, _, hout, timingRelay_spec _ hlen⟩
  · obtain ⟨hlost, -⟩ := alignmentLost_spec hsw
    exact answers_live (exec_alignmentLost_none hf hal hp hband) hrun hlost
  · obtain ⟨hlost, houtl⟩ := alignmentLost_spec hsw
    refine answers_live (exec_alignmentLost_outlier hf hal hp hband hout) hrun ⟨hlost, houtl.trans ?_⟩
    rw [State.tickMissed, hp]
    exact State.get_incSat_self s _
  · exact answers_probeReceive hrun ha hquiet hn hknown hcrc hty hlen htag hturn hfree
  · exact answers_probeReceive_late hrun ha hquiet hn hknown hcrc hty hlen (fun h => (htag h).1) hturn
  · exact answers_probeReply hrun ha hquiet hn hknown hcrc hty hlen htag hasked hcount hacc
  · exact answers_probeReply_unasked hrun ha hquiet hn hknown hcrc hty hlen htag hasked

end Sys2Proof.Machine
end
